-- ==== Sys2Proof/Word.lean ====
section
/-! DEFINITION. The word types of the hub and the fixed-size tables its blocks hold. -/

namespace Sys2Proof

/-- One byte. -/
abbrev Byte := BitVec 8

/-- Hub time: a 32-bit count of 20 ns ticks that wraps (R27). -/
abbrev HubTime := BitVec 32

/-- A 24-bit angle, one print repeat being 2^24 increments (00_scope.md, Units). -/
abbrev Angle := BitVec 24

/-- The full master angle: 24 integer bits and 12 fraction bits. -/
abbrev FullAngle := BitVec 36

/-- A client port, CP0 to CP3. -/
abbrev PortNo := Fin 4

/-- The tag of a request, 0 to 3 (R175). -/
abbrev Tag := Fin 4

/-- A section slot, 0 to 15 (R45). -/
abbrev SlotNo := Fin 16

/-- A fixed number of like things: `n` entries numbered from 0. -/
structure Table (n : Nat) (α : Type) where
  list : List α
  size : list.length = n
deriving DecidableEq, Repr

namespace Table

variable {n : Nat} {α β : Type}

/-- Entry `i`. -/
def get (t : Table n α) (i : Fin n) : α := t.list.get (i.cast t.size.symm)

/-- The table with entry `i` replaced. -/
def set (t : Table n α) (i : Fin n) (x : α) : Table n α :=
  ⟨t.list.set i.val x, by simp [t.size]⟩

/-- The table with entry `i` changed by `f`. -/
def modify (t : Table n α) (i : Fin n) (f : α → α) : Table n α := t.set i (f (t.get i))

/-- Every entry replaced by a function of its number and its value. -/
def mapIdx (t : Table n α) (f : Fin n → α → β) : Table n β :=
  ⟨(List.finRange n).map (fun i => f i (t.get i)), by simp⟩

/-- Every entry replaced by a function of its value. -/
def map (t : Table n α) (f : α → β) : Table n β := ⟨t.list.map f, by simp [t.size]⟩

/-- The table whose every entry is `x`. -/
def const (n : Nat) (x : α) : Table n α := ⟨List.replicate n x, by simp⟩

/-- The table whose entry `i` is `f i`. -/
def ofFn (f : Fin n → α) : Table n α := ⟨(List.finRange n).map f, by simp⟩

end Table

end Sys2Proof
end

