-- ==== Sys2Proof/Syntax.lean ====
section
/-! DEFINITION. The commands of the hub: one constructor of `Instr` per row of spec/opcode_table.json, with the values
that each row carries. Values that the wire can carry out of range are plain numbers; `WellFormed` bounds them. -/

namespace Sys2Proof

/-! ### Names the rows use -/

/-- The role of a client port (R178). `unassigned` is NONE. -/
inductive Role where
  | unassigned | drive | vision | panel | desk
deriving DecidableEq, Repr

/-- The straps kept at the rise of RESET (R186). `roles` are the ROLE pins, before DESK SELECT overrides one port. -/
structure Straps where
  master : Bool
  period : Fin 4
  roles : Table 4 (Fin 4)
  deskSelect : PortNo
deriving DecidableEq, Repr

/-- The kind of an edge of a mark input (R71). -/
inductive Edge where
  | rising | falling
deriving DecidableEq, Repr

/-- The two lines that raise a cause (R89). -/
inductive TripLine where
  | tripIn | webBrk
deriving DecidableEq, Repr

/-- The status word of a response, in the order of the status table of chapter 10. `unlisted` is a code that the table does
not list, as an EDIT REPLY of another hub can carry one (R187). -/
inductive Status where
  | done | clamped | posted | notPermitted | notMaster | notRunning | notAtRest | badState | badArgument | full
  | staleSerial | noRoom | outOfOrder | notYours | gone | busy | stillActive | lockedOut | timeout | discarded
  | unknownKind
  | unlisted (code : Byte)
deriving DecidableEq, Repr

/-- The status of an IMAGE REPLY (section 11.3), or a code that its field does not list (R187). -/
inductive ReplyStatus where
  | accept | busy | complete
  | unlisted (code : Byte)
deriving DecidableEq, Repr

/-- The reason of an IMAGE ABORT (section 11.3), or a code that its field does not list (R187). -/
inductive AbortReason where
  | sequence | timeout | badBegin | noTransfer
  | unlisted (code : Byte)
deriving DecidableEq, Repr

/-- The status of a SUBSCRIBE REPLY (section 11.3), or a code that its field does not list (R187). -/
inductive SubStatus where
  | accept | full | badArgument
  | unlisted (code : Byte)
deriving DecidableEq, Repr

/-- The mode of a camera or a strip (R115). -/
inductive Mode where
  | grey | cmyk
deriving DecidableEq, Repr

/-- The exposure stamp an IMAGE BEGIN carries: KNOWN with angle and cycle number, or UNKNOWN (section 7.1). -/
inductive SentStamp where
  | known (angle : Angle) (cycle : BitVec 16)
  | unknown
deriving DecidableEq, Repr

/-- One item of an item list: its number and its value (section 11.2). -/
structure Item where
  num : Nat
  value : List Byte
deriving DecidableEq, Repr

/-! ### Ring frames (sections 1.1 and 11.3) -/

/-- The three shaft flags of the master flags (R28). -/
structure ShaftFlags where
  atRest : Bool
  inching : Bool
  tripDecel : Bool
deriving DecidableEq, Repr

/-- One group of the trip classes: SYNC, QUICK, COAST (section 1.5). -/
structure ClassGroup where
  sync : Bool
  quick : Bool
  coast : Bool
deriving DecidableEq, Repr

/-- The trip classes of a cycle frame: the carried and the gathered group (section 1.5). -/
structure TripClasses where
  gathered : ClassGroup
  carried : ClassGroup
deriving DecidableEq, Repr

/-- The fields of a CENSUS. -/
structure CensusFields where
  number : BitVec 16
  stamp : HubTime
  count : Nat
  overflow : Bool
deriving DecidableEq, Repr

/-- The fields of a ROSTER. -/
structure RosterFields where
  number : BitVec 16
  stamp : HubTime
  hubCount : Nat
  period : Fin 4
  dpub : Nat
deriving DecidableEq, Repr

/-- The fields of a cycle frame. -/
structure CycleFields where
  number : BitVec 16
  period : Fin 4
  hubCount : Nat
  flags : ShaftFlags
  resetRequest : Bool
  dpub : Nat
  age : Nat
  angle : FullAngle
  v : Int
  classes : TripClasses
  mask : BitVec 32
deriving DecidableEq, Repr

/-- The ten kinds of data frame (R4). -/
inductive DataKind where
  | edit | editReply | imageBegin | imageReply | imageSegment | imageAbort
  | subscribe | subscribeReply | unsubscribe | viewUpdate
deriving DecidableEq, Repr

/-- A data frame as it stands on the fibre: its header and the payload bytes that arrived. `payloadLen` is the length the
header gives. -/
structure DataFields where
  kind : DataKind
  dst : Nat
  src : Nat
  payloadLen : Nat
  payload : List Byte
deriving DecidableEq, Repr

/-- What a frame is. A kind code that is none of those of section 11.3 is `unknown`. -/
inductive FrameBody where
  | census (f : CensusFields)
  | roster (f : RosterFields)
  | cycle (f : CycleFields)
  | data (f : DataFields)
  | unknown (code : Byte)
deriving DecidableEq, Repr

/-- A frame on the fibre: its contents, the number of bytes of it (the CRC counted), and whether its CRC is that of its
bytes. -/
structure Frame where
  body : FrameBody
  length : Nat
  crcGood : Bool
deriving DecidableEq, Repr

/-- An arrived frame of one kind, with its length in bytes and whether its CRC is good. -/
structure Inbound (α : Type) where
  fields : α
  length : Nat
  crcGood : Bool
deriving DecidableEq, Repr

/-- The fields of an IMAGE BEGIN (section 7.1). -/
structure BeginFields where
  strip : Nat
  number : BitVec 16
  camera : Nat
  mode : Nat
  width : Nat
  rows : Nat
  byteSize : Nat
  segCount : Nat
  stamp : SentStamp
deriving DecidableEq, Repr

/-! ### Request arguments with several parts -/

/-- The items a REGISTER SET in its input form may carry (R74). -/
structure InputItems where
  edge : Option Nat := none
  holdOff : Option Nat := none
  map : Option (BitVec 16) := none
deriving DecidableEq, Repr

/-- The source of a loop as a request names it: a code (0 SENSOR, 1 IMAGE) and the input or camera number (R76). -/
structure SourceArg where
  code : Nat
  index : Nat
deriving DecidableEq, Repr

/-- The items a REGISTER SET in its loop form may carry (R76). -/
structure LoopItems where
  enable : Option Bool := none
  source : Option SourceArg := none
  channel : Option Nat := none
  startColumn : Option Nat := none
  direction : Option Nat := none
  threshold : Option Nat := none
  runLength : Option Nat := none
  mexp : Option Nat := none
  window : Option Nat := none
  deadband : Option Nat := none
  gain : Option Nat := none
  missLimit : Option Nat := none
  minSpeed : Option Nat := none
deriving DecidableEq, Repr

/-- What a RECORD READ names: a record number, or the selector NEWEST (R110). -/
inductive RecordSel where
  | number (n : BitVec 16)
  | newest
deriving DecidableEq, Repr

/-- The items a CAMERA SET may carry (R117). -/
structure CameraItems where
  mode : Option Nat := none
  pitch : Option Nat := none
  mask : Option (BitVec 32) := none
  minSpeed : Option Nat := none
deriving DecidableEq, Repr

/-! ### The commands -/

/-- One constructor per row of spec/opcode_table.json. `t` is the hub time at which the command takes place
(notes/assumptions/1.md); `p` and `g` are the port and the tag of a request. A value that a request may omit (R188) is
an `Option`. -/
inductive Instr where
  | hardwareReset (straps : Straps) (tripInLow webBrk : Bool)
  | censusTimerExpiry (t : HubTime)
  | frameForward (t : HubTime) (f : Frame)
  | heldFrameRelease (t : HubTime)
  | ownFrameStart (t : HubTime)
  | census (t : HubTime) (f : Inbound CensusFields)
  | returnedCensus (t : HubTime) (f : Inbound CensusFields)
  | roster (t : HubTime) (f : Inbound RosterFields)
  | returnedRoster (t : HubTime) (f : Inbound RosterFields)
  | rosterTimerExpiry (t : HubTime)
  | cycleOrigination (t : HubTime)
  | returnedCycleFrame (t : HubTime) (f : Inbound CycleFields)
  | cycleFrame (t : HubTime) (f : Inbound CycleFields)
  | deadlineExpiry (t : HubTime)
  | dataFrameRemoval (t : HubTime) (f : Inbound DataFields)
  | setCableComp (t : HubTime) (p : PortNo) (g : Tag) (value : Option Nat)
  | setPublicationOffset (t : HubTime) (p : PortNo) (g : Tag) (value : Option Nat)
  | hubInfo (t : HubTime) (p : PortNo) (g : Tag)
  | setSpeed (t : HubTime) (p : PortNo) (g : Tag) (speed : Option Int)
  | setRamp (t : HubTime) (p : PortNo) (g : Tag) (a dn de : Option Nat)
  | setVmax (t : HubTime) (p : PortNo) (g : Tag) (vmax : Option Nat)
  | inchStart (t : HubTime) (p : PortNo) (g : Tag) (speed : Option Int)
  | inchStop (t : HubTime) (p : PortNo) (g : Tag)
  | shaftRead (t : HubTime) (p : PortNo) (g : Tag)
  | setpointPublication (t : HubTime) (slot : SlotNo)
  | sectionSet (t : HubTime) (p : PortNo) (g : Tag) (slot expected : Option Nat) (pairs : List (Nat × Int))
  | trimNudge (t : HubTime) (p : PortNo) (g : Tag) (hub slot : Option Nat) (amount : Option Int)
  | edit (t : HubTime) (src : Nat) (ref : BitVec 16) (slot : Nat) (amount : Int)
  | sectionRead (t : HubTime) (p : PortNo) (g : Tag) (slot : Option Nat)
  | fence (t : HubTime) (p : PortNo) (g : Tag)
  | couple (t : HubTime) (p : PortNo) (g : Tag) (slot : Option Nat)
  | decouple (t : HubTime) (p : PortNo) (g : Tag) (slot : Option Nat)
  | setPosition (t : HubTime) (p : PortNo) (g : Tag) (slot position : Option Nat)
  | setpointPickup (t : HubTime) (p : PortNo) (g : Tag) (slot : Option Nat)
  | driveStatus (t : HubTime) (p : PortNo) (g : Tag) (slot : Option Nat) (ready fault following : Option Bool)
      (position : Option Nat)
  | markEdge (t : HubTime) (input : Fin 8) (edge : Edge)
  | holdOffExpiry (t : HubTime) (input : Fin 8)
  | passCompare (t : HubTime)
  | registerSetInputForm (t : HubTime) (p : PortNo) (g : Tag) (input : Option Nat) (items : InputItems)
  | registerSetLoopForm (t : HubTime) (p : PortNo) (g : Tag) (loop : Option Nat) (items : LoopItems)
  | registerRead (t : HubTime) (p : PortNo) (g : Tag) (loop input : Option Nat)
  | tripIn (t : HubTime)
  | webBrk (t : HubTime)
  | matrixSet (t : HubTime) (p : PortNo) (g : Tag) (pairs : List (Nat × Nat))
  | stopPress (t : HubTime) (p : PortNo) (g : Tag)
  | tripReset (t : HubTime) (p : PortNo) (g : Tag)
  | recordRead (t : HubTime) (p : PortNo) (g : Tag) (sel : Option RecordSel)
  | recordRelease (t : HubTime) (p : PortNo) (g : Tag) (number : Option (BitVec 16))
  | tripRead (t : HubTime) (p : PortNo) (g : Tag)
  | freezeWalkExamination (t : HubTime)
  | freezeWalkCompletion (t : HubTime)
  | cameraSet (t : HubTime) (p : PortNo) (g : Tag) (camera : Option Nat) (items : CameraItems)
  | triggerSet (t : HubTime) (p : PortNo) (g : Tag) (camera : Option Nat) (angles : Option (List Nat))
  | triggerFire (t : HubTime) (camera : Fin 4)
  | triggerPulseEnd (t : HubTime) (camera : Fin 4)
  | stripOpen (t : HubTime) (p : PortNo) (g : Tag) (camera trigger width rows : Option Nat)
  | stripData (t : HubTime) (p : PortNo) (g : Tag) (strip offset : Option Nat) (bytes : List Byte)
  | stripClose (t : HubTime) (p : PortNo) (g : Tag) (strip : Option Nat)
  | stripDiscard (t : HubTime) (p : PortNo) (g : Tag) (strip : Option Nat)
  | stripHold (t : HubTime) (p : PortNo) (g : Tag) (strip : Option Nat)
  | stripUnhold (t : HubTime) (p : PortNo) (g : Tag) (strip : Option Nat)
  | stripRead (t : HubTime) (p : PortNo) (g : Tag) (strip offset count : Option Nat)
  | stripList (t : HubTime) (p : PortNo) (g : Tag) (start : Option Nat)
  | freezeSpanSet (t : HubTime) (p : PortNo) (g : Tag) (span : Option Nat)
  | senderTakeHead (t : HubTime)
  | beginTimeout (t : HubTime)
  | retryWaitExpiry (t : HubTime)
  | awaitCompleteTimeout (t : HubTime)
  | imageReply (t : HubTime) (src strip : Nat) (number : BitVec 16) (status : ReplyStatus) (receiverStrip : Nat)
  | imageAbortToSender (t : HubTime) (src strip : Nat) (number : BitVec 16) (reason : AbortReason)
  | imageBegin (t : HubTime) (src : Nat) (f : BeginFields)
  | imageSegment (t : HubTime) (src strip : Nat) (number : BitVec 16) (seg count : Nat) (bytes : List Byte)
  | segmentTimeout (t : HubTime) (context : Fin 2)
  | imageAbortToReceiver (t : HubTime) (src strip : Nat) (number : BitVec 16) (reason : AbortReason)
  | scanCompletion (t : HubTime)
  | rateTimerExpiry (t : HubTime) (rate : Fin 4)
  | viewOpen (t : HubTime) (p : PortNo) (g : Tag) (hub kind index rate : Option Nat)
  | viewFetch (t : HubTime) (p : PortNo) (g : Tag)
  | viewClose (t : HubTime) (p : PortNo) (g : Tag) (view : Option Nat)
  | exportKeepAlive (t : HubTime) (entry : Fin 16)
  | subscribe (t : HubTime) (src view : Nat) (sub : BitVec 16) (kind index rate : Nat)
  | unsubscribe (t : HubTime) (src view : Nat) (sub : BitVec 16)
  | subscribeReply (t : HubTime) (src view : Nat) (sub : BitVec 16) (status : SubStatus)
  | viewUpdate (t : HubTime) (src view : Nat) (sub : BitVec 16) (content : Option (List Item))
  | staleCountExpiry (t : HubTime) (view : Fin 16)
  | editReply (t : HubTime) (src : Nat) (ref : BitVec 16) (status : Status) (amount : Int) (serial : BitVec 16)
  | nudgeTimeout (t : HubTime) (ref : BitVec 16)
  | put (t : HubTime) (p : PortNo) (bytes : List Byte)
  | get (t : HubTime) (p : PortNo)
  | getCompletion (t : HubTime) (p : PortNo) (clocked : Nat)
  | voidTransaction (t : HubTime) (p : PortNo) (byte : Byte)
  | noticeRoute (t : HubTime) (p : PortNo) (g : Tag) (pairs : List (Nat × Nat))
  | noticeEnable (t : HubTime) (p : PortNo) (g : Tag) (kinds : Option Nat)
  | lineReturnsToInactive (t : HubTime) (line : TripLine)
deriving DecidableEq, Repr

end Sys2Proof
end

