-- ==== Sys2Proof/Decode.lean ====
section
/-! DEFINITION. The command that a word of spec/opcode_table.json spells. -/

namespace Sys2Proof

/-- No row of the table gives bits, so no word spells a command. The bytes that a client port receives are read in
Machine/Ports.lean (PUT) and those of a ring frame in Machine/Frames.lean. -/
def decodeTableWord (_nbits _w : Nat) : Option Instr := none

end Sys2Proof
end

