-- ==== Sys2Proof/Machine/Types.lean ====
section
/-! DEFINITION. The types of the ten blocks' state: plain data only. -/

namespace Sys2Proof.Machine

/-! ### Ring Controller (chapter 1) -/

/-- The ring states (section 1.2). -/
inductive RingState where
  | down | addressed | running | lost | conflict
deriving DecidableEq, Repr

/-- The blocks that offer frames to the control queue (R25). -/
inductive Block where
  | sectionEngine | imageMover | viewUnit
deriving DecidableEq, Repr

/-- The payload of a data frame, field by field (section 11.3). -/
inductive DataPayload where
  | edit (ref : BitVec 16) (slot : Nat) (amount : Int)
  | editReply (ref : BitVec 16) (status : Status) (amount : Int) (serial : BitVec 16)
  | imageBegin (f : BeginFields)
  | imageReply (strip : Nat) (number : BitVec 16) (status : ReplyStatus) (receiverStrip : Nat)
  | imageSegment (strip : Nat) (number : BitVec 16) (seg count : Nat) (bytes : List Byte)
  | imageAbort (toReceiver : Bool) (strip : Nat) (number : BitVec 16) (reason : AbortReason)
  | subscribe (view : Nat) (sub : BitVec 16) (kind index rate : Nat)
  | subscribeReply (view : Nat) (sub : BitVec 16) (status : SubStatus)
  | unsubscribe (view : Nat) (sub : BitVec 16)
  | viewUpdate (view : Nat) (sub : BitVec 16) (content : Option (List Item))
deriving DecidableEq, Repr

/-- A data frame of the hub's own making: its destination and its payload. -/
structure OwnFrame where
  dst : Nat
  payload : DataPayload
deriving DecidableEq, Repr

/-- The census or roster that the master has made and not yet started (R6, R9, R25). -/
inductive RingFrameDue where
  | census (f : CensusFields)
  | roster (f : RosterFields)
deriving DecidableEq, Repr

/-- The record of the last cycle frame (R5). -/
structure LastCycle where
  number : BitVec 16
  flags : ShaftFlags
  resetRequest : Bool
  hubCount : Nat
  dpub : Nat
  angle : FullAngle
  v : Int
  classes : TripClasses
  mask : BitVec 32
  arrivalTime : HubTime
  arrivalAge : Nat
deriving DecidableEq, Repr

/-- A frame in the transit buffer, with the hub time at which its first byte arrived (R23) and the cable compensation in
force then, which a frame that had arrived keeps (R26). -/
structure HeldFrame where
  frame : Frame
  arrival : HubTime
  comp : Nat
deriving DecidableEq, Repr

/-- A frame given to RING OUT that leaves 32 ticks after its arrival, and when RING OUT is free of what goes before it. -/
structure Passing where
  held : HeldFrame
  free : HubTime
deriving DecidableEq, Repr

/-- The first byte of the latest frame at RING IN: its time, whether the hub was RUNNING then (removal is decided on the
header, R3), and the cable compensation in force (R26). -/
structure Arrival where
  start : HubTime
  running : Bool
  comp : Nat
deriving DecidableEq, Repr

/-- A frame that RING OUT began to send, and when. -/
structure Sent where
  frame : Frame
  start : HubTime
deriving DecidableEq, Repr

/-- The Ring Controller (R5). -/
structure RC where
  ringState : RingState
  hubAddress : Option Nat
  hubCount : Option Nat
  period : Option (Fin 4)
  dpub : Option Nat
  rosterHeld : Bool
  cableComp : Nat
  censusNumber : BitVec 16
  joinedCensus : Option (BitVec 16 × HubTime)
  outstandingCensus : Option (BitVec 16 × HubTime)
  outstandingRoster : Option RosterFields
  ringFrameDue : Option RingFrameDue
  cycleNumber : BitVec 16
  lastCycle : Option LastCycle
  returnedClass : ClassGroup
  returnedMask : BitVec 32
  returnSeen : Bool
  missedDeadlines : Nat
  failedReturns : Nat
  reforming : Bool
  tooMany : Bool
  transit : List HeldFrame
  controlQueue : List OwnFrame
  viewQueue : List OwnFrame
  imagePending : Option OwnFrame
  controlWaiters : List Block
  corruptCount : Nat
  undeliverableCount : Nat
  censusTimer : Option HubTime
  rosterTimer : Option HubTime
  deadline : Option HubTime
  expectedNext : Option HubTime
  nextOrigination : Option HubTime
  ringOut : Option Sent
  outLeft : Nat
  outHeld : Bool
  inbound : Option Arrival
  passing : List Passing
deriving DecidableEq, Repr

/-! ### Shaft Unit (chapter 2) -/

/-- The shaft generator, used at the master (section 2.2). -/
structure Generator where
  vt : Int
  vi : Int
  a : Nat
  dn : Nat
  de : Nat
  vmax : Nat
  v : Int
  angle : FullAngle
  inching : Bool
  tripDecel : Bool
deriving DecidableEq, Repr

/-- One entry of the shaft history (R38). -/
structure HistEntry where
  cycle : BitVec 16
  p : HubTime
  theta : Angle
  delta : Int
  extrapolated : Bool
  late : Bool
deriving DecidableEq, Repr

/-- The tracker (R38). The history is oldest first. -/
structure Tracker where
  history : List HistEntry
  angle : FullAngle
  lastV : Int
  lastCycle : BitVec 16
  flags : ShaftFlags
deriving DecidableEq, Repr

/-- The Shaft Unit. -/
structure SU where
  gen : Generator
  tracker : Tracker
deriving DecidableEq, Repr

/-! ### Section Engine (chapter 3) -/

/-- The section states (R45). -/
inductive SectionState where
  | vacant | idle | coupled | held | released
deriving DecidableEq, Repr

/-- A drive report (R70). -/
structure DriveReport where
  ready : Bool
  fault : Bool
  following : Bool
  position : Angle
deriving DecidableEq, Repr

/-- A group of SECTION SET field values, already checked and clamped (R53, R54). -/
structure FieldSet where
  port : Option PortNo := none
  n : Option Nat := none
  d : Option Nat := none
  os : Option Int := none
  tmax : Option Nat := none
  tt : Option Int := none
  slew : Option Nat := none
  nudgeLimit : Option Nat := none
  tol : Option Nat := none
deriving DecidableEq, Repr

/-- What a posted change does (section 3.3). -/
inductive ChangeBody where
  | set (f : FieldSet)
  | nudge (amount : Int)
deriving DecidableEq, Repr

/-- A posted change, with the port that posted it, or none when it came by EDIT. -/
structure Change where
  poster : Option PortNo
  body : ChangeBody
deriving DecidableEq, Repr

/-- A setpoint record (R66). -/
structure SetpointRecord where
  slot : SlotNo
  cycle : BitVec 16
  position : Angle
  delta : Int
  state : SectionState
  late : Bool
  extrapolated : Bool
  correcting : Bool
  positionSet : Bool
deriving DecidableEq, Repr

/-- A prepared record waiting for its publication instant (R67). -/
structure Armed where
  record : SetpointRecord
  due : HubTime
deriving DecidableEq, Repr

/-- The published record and whether it has been picked (R67, R68). -/
structure Published where
  record : SetpointRecord
  picked : Bool
deriving DecidableEq, Repr

/-- One slot of the section table, with its posted change list, correction sum and records (R45). `corrHeld` says that a
correction has been delivered since the last step (R49). `ct` and `correcting` are computed from it (Machine/Flags.lean). -/
structure Section where
  state : SectionState
  port : PortNo
  n : Nat
  d : Nat
  r : Nat
  position : Angle
  os : Int
  tt : Int
  tmax : Nat
  ca : Int
  slew : Nat
  nudgeLimit : Nat
  tol : Nat
  miss : Nat
  serial : BitVec 16
  report : Option DriveReport
  atLimit : Bool
  late : Bool
  extrapolated : Bool
  posted : List Change
  corrSum : Int
  corrHeld : Bool
  armed : Option Armed
  published : Option Published
deriving DecidableEq, Repr

/-- What a waiting request asks (R62). -/
inductive WaitKind where
  | couple
  | decouple
  | setPosition (position : Angle)
deriving DecidableEq, Repr

/-- A COUPLE, DECOUPLE or SET POSITION waiting for the next cycle step (R62). -/
structure Waiting where
  port : PortNo
  tag : Tag
  slot : SlotNo
  kind : WaitKind
deriving DecidableEq, Repr

/-- A waiting FENCE (R59). The changes of one slot are always resolved together, since a step applies and an order
discards a whole list, so the unresolved changes it noted are held as the slots they stand on. -/
structure Fence where
  port : PortNo
  tag : Tag
  slots : List SlotNo
deriving DecidableEq, Repr

/-- The Section Engine (R45). -/
structure SE where
  slots : Table 16 Section
  waiting : List Waiting
  fences : List Fence
  replies : List OwnFrame
deriving DecidableEq, Repr

/-! ### Register Unit (chapter 4) -/

/-- The angle of a capture: not resolved yet, UNKNOWN, or an angle (R71). -/
inductive CaptureAngle where
  | unresolved
  | unknown
  | angle (a : Angle)
deriving DecidableEq, Repr

/-- The last capture of a mark input (R71). -/
structure Capture where
  time : HubTime
  angle : CaptureAngle
deriving DecidableEq, Repr

/-- A mark input (R71). `holdOffUntil` is the expiry of a running hold-off. -/
structure MarkInput where
  edge : Edge
  holdOff : Nat
  map : BitVec 16
  pending : Option HubTime
  holdOffUntil : Option HubTime
  lastCapture : Option Capture
  dropped : Nat
deriving DecidableEq, Repr

/-- The source of a register loop (R75). -/
inductive Source where
  | sensor (input : Fin 8)
  | image (camera : Fin 4)
deriving DecidableEq, Repr

/-- The direction of a search (R75). -/
inductive Direction where
  | right | left
deriving DecidableEq, Repr

/-- The search spec of a loop (R75). -/
structure SearchSpec where
  channel : Nat
  startColumn : Nat
  direction : Direction
  threshold : Nat
  runLength : Nat
deriving DecidableEq, Repr

/-- The states of a register loop (R75). -/
inductive LoopState where
  | off | seeking | locked | lost
deriving DecidableEq, Repr

/-- A register loop (R75). -/
structure Loop where
  enable : Bool
  state : LoopState
  source : Source
  search : SearchSpec
  mexp : Angle
  window : Nat
  deadband : Nat
  gain : Nat
  missLimit : Nat
  minSpeed : Nat
  misses : Nat
  markSeen : Bool
  lastE : Option Int
  lastEs : Option Int
  lastC : Option Int
  strays : Nat
  lastStrayE : Option Int
deriving DecidableEq, Repr

/-- The pass compare: when it acts and the angle noted with it (R81). -/
structure PassCompare where
  due : HubTime
  theta : Angle
deriving DecidableEq, Repr

/-- The Register Unit. -/
structure RU where
  inputs : Table 8 MarkInput
  loops : Table 16 Loop
  passCompare : Option PassCompare
  judged : Option Angle
deriving DecidableEq, Repr

/-! ### Trip Unit (chapter 5) -/

/-- A class, or `noClass` where a rule says that there is none. -/
inductive Cls where
  | noClass | notify | sync | quick | coast
deriving DecidableEq, Repr

/-- The causes, in the order of the trip matrix, and REMOTE (R87, R88). -/
inductive Cause where
  | tripIn | webBreak | ringLost | driveFault | driveSilent | registerLost | operatorStop | publicationLate
  | followingError | remote
deriving DecidableEq, Repr

/-- A cause with its section, where it is per section (R87). -/
structure CausePair where
  cause : Cause
  slot : Option SlotNo
deriving DecidableEq, Repr

/-- The trip states (section 5.3). -/
inductive TripState where
  | normal | capture | stopping | stopped | releasing | lockout
deriving DecidableEq, Repr

/-- The snapshot of one section in a trip record (R97). -/
structure Snapshot where
  slot : SlotNo
  state : SectionState
  position : Angle
  ca : Int
  ct : Int
deriving DecidableEq, Repr

/-- A trip record (R109). -/
structure TripRecord where
  number : BitVec 16
  first : CausePair
  entryClass : Cls
  highest : Cls
  cycle : BitVec 16
  time : HubTime
  angle : FullAngle
  v : Int
  mask : BitVec 32
  snapshots : List Snapshot
  secondary : List CausePair
  frozen : List Nat
  capturing : Bool
deriving DecidableEq, Repr

/-- The trip matrix: the class of each cause 0 to 8 (R88). -/
structure Matrix where
  tripIn : Cls
  webBreak : Cls
  ringLost : Cls
  driveFault : Cls
  driveSilent : Cls
  registerLost : Cls
  operatorStop : Cls
  publicationLate : Cls
  followingError : Cls
deriving DecidableEq, Repr

/-- The Trip Unit. `causes` is in order of cause number and then section. -/
structure TU where
  causes : List CausePair
  matrix : Matrix
  state : TripState
  releaseLevel : Option Cls
  carried : Cls
  carriedMask : BitVec 32
  records : List TripRecord
  recordCount : BitVec 16
  current : Option (BitVec 16)
  tripInLow : Bool
  webBrk : Bool
  resetRequest : Bool
deriving DecidableEq, Repr

/-! ### Image Store (chapter 6) -/

/-- The bytes of the tile store: (address, byte) pairs, addresses rising, no byte equal to what an unlisted address reads
as (Machine/Ops.lean, `Memory.wf`). -/
abbrev Memory := List Host.Cell

/-- An exposure stamp (R115). -/
inductive Stamp where
  | pending (fire : HubTime) (cycle : BitVec 16)
  | known (angle : Angle) (cycle : BitVec 16)
  | unknown
deriving DecidableEq, Repr

/-- Where a strip came from (R115). -/
inductive Origin where
  | here (port : PortNo)
  | remote (hub strip : Nat)
deriving DecidableEq, Repr

/-- A scan result held in a strip (R115). -/
inductive ScanResult where
  | hit (row column : Nat)
  | none
deriving DecidableEq, Repr

/-- A strip record (R115) with its pins (R116). `complete` is its state, FILLING when clear. -/
structure Strip where
  id : Nat
  origin : Origin
  camera : Fin 4
  mode : Mode
  width : Nat
  rows : Nat
  byteSize : Nat
  tiles : List Nat
  fill : Nat
  complete : Bool
  stamp : Stamp
  sending : List Nat
  receiving : Bool
  scanning : Bool
  freezeSet : List (BitVec 16)
  holds : Table 4 Nat
  results : Table 16 (Option ScanResult)
deriving DecidableEq, Repr

/-- An armed firing (R117). -/
structure Firing where
  time : HubTime
  cycle : BitVec 16
deriving DecidableEq, Repr

/-- An entry of the trigger log (R119). -/
structure LogEntry where
  number : BitVec 16
  fire : HubTime
  stamp : Stamp
deriving DecidableEq, Repr

/-- A camera record (R117), with the end of the pulse on its TRG line, which is high while there is one (R119). -/
structure Camera where
  mode : Mode
  pitch : Nat
  mask : BitVec 32
  table : List Angle
  minSpeed : Nat
  scheduled : Option Angle
  armed : List Firing
  trigNumber : BitVec 16
  log : List LogEntry
  pulseEnd : Option HubTime
deriving DecidableEq, Repr

/-- A freeze walk in progress: the record it belongs to, the candidates not yet examined, none for one that has left the
directory, and the ids frozen (R130, R131). -/
structure Walk where
  record : BitVec 16
  candidates : List (Option Nat)
  frozen : List Nat
deriving DecidableEq, Repr

/-- The Image Store. `strips` is in order of creation; `age` holds strip ids, oldest first. -/
structure IS where
  mem : Memory
  free : List Nat
  strips : List Strip
  idCount : Nat
  age : List Nat
  cameras : Table 4 Camera
  span : Nat
  walk : Option Walk
deriving DecidableEq, Repr

/-! ### Image Mover (chapter 7) -/

/-- The sender states (section 7.3). -/
inductive SenderState where
  | idle | beginSent | sending | retryWait | awaitComplete
deriving DecidableEq, Repr

/-- The transfer in hand (R133). -/
structure Transfer where
  strip : Nat
  dst : Nat
  number : BitVec 16
  attempt : Nat
  segCount : Nat
  nextSeg : Nat
  receiverStrip : Option Nat
deriving DecidableEq, Repr

/-- A running count of cycle steps and its limit (R133). -/
structure StepTimer where
  count : Nat
  limit : Nat
deriving DecidableEq, Repr

/-- A RECEIVING reception context (R142). -/
structure Reception where
  src : Nat
  srcStrip : Nat
  number : BitVec 16
  strip : Nat
  reservation : List Nat
  segCount : Nat
  nextSeg : Nat
  timer : Nat
deriving DecidableEq, Repr

/-- Whose place a frame of the control store stands in (R147). -/
inductive Place where
  | general
  | accept (context : Fin 2)
  | final
deriving DecidableEq, Repr

/-- A frame of the control store (R147). -/
structure StoreEntry where
  frame : OwnFrame
  place : Place
deriving DecidableEq, Repr

/-- The Image Mover. -/
structure IM where
  sendQueue : List (Nat × Nat)
  sender : SenderState
  transfer : Option Transfer
  timer : Option StepTimer
  transferCount : BitVec 16
  offered : List OwnFrame
  contexts : Table 2 (Option Reception)
  store : List StoreEntry
  transfersDone : Nat
  transfersDropped : Nat
  receptionsDone : Nat
  receptionsAbandoned : Nat
  notMade : Nat
  abortsToSender : Nat
  lastAbort : Option AbortReason
deriving DecidableEq, Repr

/-! ### Mark Scanner (chapter 8) -/

/-- A job: a strip and the section whose loop asked for the search (section 8.1). -/
structure Job where
  strip : Nat
  slot : SlotNo
deriving DecidableEq, Repr

/-- The scan in progress with its plan and the hub time at which it completes (R152, R156). -/
structure Scan where
  job : Job
  camera : Fin 4
  mode : Mode
  width : Nat
  theta : Angle
  pitch : Nat
  rows : List Nat
  startColumn : Nat
  search : SearchSpec
  completeAt : HubTime
deriving DecidableEq, Repr

/-- The Mark Scanner (R150). -/
structure MS where
  queue : List Job
  scan : Option Scan
  hits : Nat
  nones : Nat
  skipped : Nat
  removed : Nat
  void : Nat
deriving DecidableEq, Repr

/-! ### View Unit (chapter 9) -/

/-- The kind and index of a view (R162). -/
inductive ViewKind where
  | shaft
  | slot (s : SlotNo)
  | register (s : SlotNo)
  | trips
  | camera (c : Fin 4)
deriving DecidableEq, Repr

/-- The states of a view; an export uses the first three (R161, R168). -/
inductive ViewState where
  | initial | clean | dirty | stale | gone
deriving DecidableEq, Repr

/-- A view (R161). `target` is none for LOCAL. -/
structure View where
  owner : PortNo
  target : Option Nat
  kind : ViewKind
  rate : Fin 4
  state : ViewState
  ready : Bool
  mirror : Option (List Item)
  received : Option (List Item)
  sub : BitVec 16
  stale : Nat
deriving DecidableEq, Repr

/-- The due mark of an export (R168). -/
inductive Due where
  | none | content | keepAlive
deriving DecidableEq, Repr

/-- An export (R168). -/
structure ExportEntry where
  hub : Nat
  view : Nat
  sub : BitVec 16
  kind : ViewKind
  rate : Fin 4
  state : ViewState
  due : Due
  steps : Nat
deriving DecidableEq, Repr

/-- A waiting remote nudge (R173). -/
structure Nudge where
  port : PortNo
  tag : Tag
  dst : Nat
  ref : BitVec 16
  steps : Nat
deriving DecidableEq, Repr

/-- The VIEW UPDATE that the View Unit keeps for a full view queue, and the export it belongs to (R169). -/
structure OfferedUpdate where
  entry : Fin 16
  frame : OwnFrame
deriving DecidableEq, Repr

/-- The View Unit. `rateNext` is the next expiry of each rate timer. -/
structure VU where
  rateNext : Table 4 HubTime
  views : Table 16 (Option View)
  exports : Table 16 (Option ExportEntry)
  controlList : List OwnFrame
  nudges : List Nudge
  offered : Option OfferedUpdate
  subCount : BitVec 16
  refCount : BitVec 16
deriving DecidableEq, Repr

/-! ### Client Ports (chapter 10) -/

/-- The eleven notices, in the order of the notice table (section 10.3). -/
inductive Notice where
  | setpoint | trigger | views | trip | notify | register | late | ring | imageDropped | frameError | overrun
deriving DecidableEq, Repr

/-- A ready response (R177). -/
structure Response where
  tag : Tag
  status : Status
  payload : List Byte
deriving DecidableEq, Repr

/-- What a GET fixed at its transaction byte: the response it returns, or none for an idle header, the reported notices,
and the bytes it shifts out (R177). -/
structure GetFixed where
  response : Option Response
  reported : BitVec 11
  bytes : List Byte
deriving DecidableEq, Repr

/-- A client port (section 10). `outstanding` is a set of tags. `shifted` holds the bytes that the data lines gave in the last
GET that has ended; nothing reads it (R177, notes/assumptions/54.md). -/
structure Port where
  role : Role
  outstanding : BitVec 4
  responses : List Response
  pending : BitVec 11
  enabled : BitVec 11
  frameErrors : Nat
  overruns : Nat
  getting : Option GetFixed
  shifted : List Byte
deriving DecidableEq, Repr

/-- The notice routing table: the set of ports of each routable kind (R181). -/
structure Routes where
  trigger : BitVec 4
  trip : BitVec 4
  notify : BitVec 4
  register : BitVec 4
  late : BitVec 4
  ring : BitVec 4
  imageDropped : BitVec 4
deriving DecidableEq, Repr

/-- The Client Ports. -/
structure CP where
  ports : Table 4 Port
  routes : Routes
deriving DecidableEq, Repr

end Sys2Proof.Machine
end

