-- ==== Sys2Proof/Machine/Reset.lean ====
section
/-! DEFINITION. The values that every block takes after hardware reset. -/

namespace Sys2Proof

/-- A shaft at rest: AT REST set, INCHING and TRIP DECEL clear (R38). -/
def ShaftFlags.rest : ShaftFlags := ⟨true, false, false⟩

/-- No class bit set. -/
def ClassGroup.empty : ClassGroup := ⟨false, false, false⟩

/-- The role that the straps give port `p` (R178, R186). -/
def Straps.roleOf (st : Straps) (p : PortNo) : Role :=
  if p = st.deskSelect then .desk
  else
    match st.roles.get p with
    | 0 => .unassigned
    | 1 => .drive
    | 2 => .vision
    | 3 => .panel

/-- The set of ports whose strapped role satisfies `f`. -/
def Straps.portsWith (st : Straps) (f : Role → Bool) : BitVec 4 :=
  (if f (st.roleOf 0) then 1#4 else 0#4) ||| (if f (st.roleOf 1) then 2#4 else 0#4)
    ||| (if f (st.roleOf 2) then 4#4 else 0#4) ||| (if f (st.roleOf 3) then 8#4 else 0#4)

/-- All strap pins low: a follower with period code 0, port 0 DESK, the other ports NONE. DESIGN CHOICE
(notes/assumptions/4.md); HARDWARE_RESET samples any other straps. -/
def Straps.low : Straps :=
  { master := false, period := 0, roles := .const 4 0, deskSelect := 0 }

end Sys2Proof

namespace Sys2Proof.Machine

/-- The period of a period code, in ticks (R186; 00_scope.md, Units). -/
def periodTicks (code : Fin 4) : Nat :=
  match code with
  | 0 => 12500
  | 1 => 25000
  | 2 => 50000
  | 3 => 100000

/-- R5. -/
def RC.reset (st : Straps) : RC where
  ringState := .down
  hubAddress := if st.master then some 0 else none
  hubCount := none
  period := if st.master then some st.period else none
  dpub := if st.master then some (periodTicks st.period / 2) else none
  rosterHeld := false
  cableComp := 0
  censusNumber := 0
  joinedCensus := none
  outstandingCensus := none
  outstandingRoster := none
  ringFrameDue := none
  cycleNumber := 0
  lastCycle := none
  returnedClass := .empty
  returnedMask := 0
  returnSeen := false
  missedDeadlines := 0
  failedReturns := 0
  reforming := false
  tooMany := false
  transit := []
  controlQueue := []
  viewQueue := []
  imagePending := none
  controlWaiters := []
  corruptCount := 0
  undeliverableCount := 0
  censusTimer := if st.master then some 500000 else none
  rosterTimer := none
  deadline := none
  expectedNext := none
  nextOrigination := none
  ringOut := none
  outLeft := 0
  outHeld := false
  inbound := none
  passing := []

/-- Section 2.2 and R38. -/
def SU.reset : SU where
  gen :=
    { vt := 0, vi := 0, a := 2577, dn := 2577, de := 20000, vmax := 2147479552, v := 0, angle := 0, inching := false,
      tripDecel := false }
  tracker := { history := [], angle := 0, lastV := 0, lastCycle := 0, flags := .rest }

/-- R45: VACANT, every field zero or absent. -/
def Section.reset : Section where
  state := .vacant
  port := 0
  n := 0
  d := 0
  r := 0
  position := 0
  os := 0
  tt := 0
  tmax := 0
  ca := 0
  slew := 0
  nudgeLimit := 0
  tol := 0
  miss := 0
  serial := 0
  report := none
  atLimit := false
  late := false
  extrapolated := false
  posted := []
  corrSum := 0
  corrHeld := false
  armed := none
  published := none

/-- R71. -/
def MarkInput.reset : MarkInput where
  edge := .rising
  holdOff := 0
  map := 0
  pending := none
  holdOffUntil := none
  lastCapture := none
  dropped := 0

/-- R75. -/
def Loop.reset : Loop where
  enable := false
  state := .off
  source := .sensor 0
  search := { channel := 0, startColumn := 0, direction := .right, threshold := 128, runLength := 1 }
  mexp := 0
  window := 0
  deadband := 0
  gain := 0
  missLimit := 3
  minSpeed := 0
  misses := 0
  markSeen := false
  lastE := none
  lastEs := none
  lastC := none
  strays := 0
  lastStrayE := none

/-- The default classes of R88. -/
def Matrix.default : Matrix where
  tripIn := .quick
  webBreak := .quick
  ringLost := .quick
  driveFault := .quick
  driveSilent := .quick
  registerLost := .notify
  operatorStop := .sync
  publicationLate := .notify
  followingError := .notify

/-- The Trip Unit after hardware reset, with the levels its two lines have (R87 to R108). -/
def TU.reset (tripInLow webBrk : Bool) : TU where
  causes := []
  matrix := .default
  state := .normal
  releaseLevel := none
  carried := .noClass
  carriedMask := 0
  records := []
  recordCount := 0
  current := none
  tripInLow := tripInLow
  webBrk := webBrk
  resetRequest := false

/-- R117. -/
def Camera.reset : Camera where
  mode := .grey
  pitch := 1
  mask := 0
  table := []
  minSpeed := 0
  scheduled := none
  armed := []
  trigNumber := 0
  log := []
  pulseEnd := none

/-- R113 to R117, R130. -/
def IS.reset : IS where
  mem := []
  free := List.range 1024
  strips := []
  idCount := 0
  age := []
  cameras := .const 4 .reset
  span := 32
  walk := none

/-- R133, R142, R147, R149. -/
def IM.reset : IM where
  sendQueue := []
  sender := .idle
  transfer := none
  timer := none
  transferCount := 0
  offered := []
  contexts := .const 2 none
  store := []
  transfersDone := 0
  transfersDropped := 0
  receptionsDone := 0
  receptionsAbandoned := 0
  notMade := 0
  abortsToSender := 0
  lastAbort := none

/-- R150. -/
def MS.reset : MS where
  queue := []
  scan := none
  hits := 0
  nones := 0
  skipped := 0
  removed := 0
  void := 0

/-- R160, R161: each rate timer first expires one period after the rise of RESET. -/
def VU.reset : VU where
  rateNext := ⟨[1000000, 2500000, 5000000, 12500000], rfl⟩
  views := .const 16 none
  exports := .const 16 none
  controlList := []
  nudges := []
  offered := none
  subCount := 0
  refCount := 0

/-- R175: the state of a port after hardware reset. -/
def Port.reset (role : Role) : Port where
  role := role
  outstanding := 0
  responses := []
  pending := 0
  enabled := BitVec.allOnes 11
  frameErrors := 0
  overruns := 0
  getting := none
  shifted := []

/-- The default routes of R181. -/
def Routes.default (st : Straps) : Routes :=
  let deskPanel := st.portsWith (fun r => r == .desk || r == .panel)
  let vision := st.portsWith (· == .vision)
  let desk := st.portsWith (· == .desk)
  { trigger := vision, trip := deskPanel, notify := deskPanel, register := desk, late := desk, ring := deskPanel,
    imageDropped := vision }

end Sys2Proof.Machine
end

