-- ==== Sys2Proof/Machine/State.lean ====
section
/-! DEFINITION. The state of one hub, why it could stop, and its value after hardware reset. Plain data only. -/

namespace Sys2Proof.Machine

/-! ### Outcomes -/

/-- Why the hub could stop with a fault. Nothing in the spec stops it (INVENTORY.md, Faults), so there is no reason. -/
inductive Fault where
deriving DecidableEq, Repr

/-- Why a command could be refused. -/
inductive Refusal where
  /-- Raised by `exec` alone, for a command that has no meaning yet; safe, since nothing can be proved of its effect. -/
  | notModelled (mnemonic : String)
deriving DecidableEq, Repr

/-! ### The hub -/

/-- The state of the hub and the queue of commands that wait, first in, first out. -/
structure State where
  hubTime : HubTime
  straps : Straps
  rc : RC
  su : SU
  se : SE
  ru : RU
  tu : TU
  is : IS
  im : IM
  ms : MS
  vu : VU
  cp : CP
  pending : List Instr
deriving DecidableEq, Repr

/-- Every block at its reset value for the given straps and line levels, before the lines raise their causes. -/
def State.resetWith (st : Straps) (tripInLow webBrk : Bool) (queue : List Instr) : State where
  hubTime := 0
  straps := st
  rc := .reset st
  su := .reset
  se := { slots := .const 16 .reset, waiting := [], fences := [], replies := [] }
  ru := { inputs := .const 8 .reset, loops := .const 16 .reset, passCompare := none, judged := none }
  tu := .reset tripInLow webBrk
  is := .reset
  im := .reset
  ms := .reset
  vu := .reset
  cp := { ports := .ofFn (fun p => .reset (st.roleOf p)), routes := .default st }
  pending := queue

/-- The hub right after reset, with all straps low and both trip lines inactive (notes/assumptions/4.md). -/
def State.reset : State := State.resetWith .low false false []

end Sys2Proof.Machine
end

