-- ==== Sys2Proof/Machine/Ops.lean ====
section
/-! DEFINITION. The operations that every block shares: changing one block of the state, hub time, rounding and clamping,
the bytes of the tile store, notices, responses and the taking of a request. -/

namespace Sys2Proof.Machine

/-! ### Changing one block -/

/-- Change the Ring Controller alone. -/
def State.onRc (s : State) (f : RC → RC) : State := { s with rc := f s.rc }
/-- Change the Shaft Unit alone. -/
def State.onSu (s : State) (f : SU → SU) : State := { s with su := f s.su }
/-- Change the Section Engine alone. -/
def State.onSe (s : State) (f : SE → SE) : State := { s with se := f s.se }
/-- Change the Register Unit alone. -/
def State.onRu (s : State) (f : RU → RU) : State := { s with ru := f s.ru }
/-- Change the Trip Unit alone. -/
def State.onTu (s : State) (f : TU → TU) : State := { s with tu := f s.tu }
/-- Change the Image Store alone. -/
def State.onIs (s : State) (f : IS → IS) : State := { s with is := f s.is }
/-- Change the Image Mover alone. -/
def State.onIm (s : State) (f : IM → IM) : State := { s with im := f s.im }
/-- Change the Mark Scanner alone. -/
def State.onMs (s : State) (f : MS → MS) : State := { s with ms := f s.ms }
/-- Change the View Unit alone. -/
def State.onVu (s : State) (f : VU → VU) : State := { s with vu := f s.vu }
/-- Change the Client Ports alone. -/
def State.onCp (s : State) (f : CP → CP) : State := { s with cp := f s.cp }

/-- Change one section slot. -/
def State.onSlot (s : State) (i : SlotNo) (f : Section → Section) : State :=
  s.onSe (fun e => { e with slots := e.slots.modify i f })
/-- Change one register loop. -/
def State.onLoop (s : State) (i : SlotNo) (f : Loop → Loop) : State :=
  s.onRu (fun r => { r with loops := r.loops.modify i f })
/-- Change one mark input. -/
def State.onInput (s : State) (i : Fin 8) (f : MarkInput → MarkInput) : State :=
  s.onRu (fun r => { r with inputs := r.inputs.modify i f })
/-- Change one camera record. -/
def State.onCamera (s : State) (c : Fin 4) (f : Camera → Camera) : State :=
  s.onIs (fun x => { x with cameras := x.cameras.modify c f })
/-- Change one client port. -/
def State.onPort (s : State) (p : PortNo) (f : Port → Port) : State :=
  s.onCp (fun c => { c with ports := c.ports.modify p f })
/-- Change every strip with the given id. Ids in the directory are distinct (R114). -/
def State.onStrip (s : State) (id : Nat) (f : Strip → Strip) : State :=
  s.onIs (fun x => { x with strips := x.strips.map (fun p => if p.id = id then f p else p) })

/-- Section slot `i`. -/
def State.slot (s : State) (i : SlotNo) : Section := s.se.slots.get i
/-- Register loop `i`. -/
def State.loop (s : State) (i : SlotNo) : Loop := s.ru.loops.get i
/-- Client port `p`. -/
def State.port (s : State) (p : PortNo) : Port := s.cp.ports.get p
/-- Camera record `c`. -/
def State.camera (s : State) (c : Fin 4) : Camera := s.is.cameras.get c
/-- The strip with the given id, if it is in the directory (R114). -/
def State.strip (s : State) (id : Nat) : Option Strip := s.is.strips.find? (fun p => p.id == id)

/-! ### Arithmetic (00_scope.md, Units and number conventions) -/

/-- The signed wrap difference `a − b`. -/
def sdiff {w : Nat} (a b : BitVec w) : Int := (a - b).toInt

/-- Clamp to `lo..hi`. -/
def clampInt (lo hi v : Int) : Int := if v < lo then lo else if hi < v then hi else v

/-- Clamp to `lo..hi`. -/
def clampNat (lo hi v : Nat) : Nat := if v < lo then lo else if hi < v then hi else v

/-- The quotient rounded to the nearest integer, halves away from zero. -/
def roundDiv (a b : Int) : Int :=
  let q : Int := ((2 * a.natAbs + b.natAbs) / (2 * b.natAbs) : Nat)
  if (a < 0) = (b < 0) then q else -q

/-- The quotient rounded up. -/
def ceilDiv (a b : Nat) : Nat := (a + b - 1) / b

/-- A 16-bit count that stays at 65,535 once it reaches it. -/
def satInc (n : Nat) : Nat := if n < 65535 then n + 1 else 65535

/-- A hub time moved forward by a number of ticks. -/
def later (t : HubTime) (ticks : Nat) : HubTime := t + BitVec.ofNat 32 ticks

/-- An output compare or timer for `target` has come (R27): the signed difference is zero or negative. -/
def isDue (target now : HubTime) : Bool := decide (sdiff target now ≤ 0)

/-- A timer that runs and has come. -/
def timerDue (timer : Option HubTime) (now : HubTime) : Bool :=
  match timer with
  | some target => isDue target now
  | none => false

/-- The `n` low bytes of `v`, most significant first, two's complement (section 11.2). -/
def beBytes (n : Nat) (v : Int) : List Byte :=
  (List.range n).map (fun i => BitVec.ofInt 8 (v / (256 : Int) ^ (n - 1 - i)))

/-- The number that bytes stand for, most significant first. -/
def ofBytes (bs : List Byte) : Nat := bs.foldl (fun acc b => acc * 256 + b.toNat) 0

/-- The signed number that bytes stand for, most significant first. -/
def ofBytesSigned (bs : List Byte) : Int :=
  let v : Int := ofBytes bs
  if 2 * v < (256 : Int) ^ bs.length then v else v - (256 : Int) ^ bs.length

/-- A truth value in one byte. DESIGN CHOICE for an item (notes/assumptions/17.md): 1 for set or on, 0 for clear or off. -/
def flagByte (b : Bool) : List Byte := [if b then 1#8 else 0#8]

/-- `n` as a member of a finite range, when it is one. -/
def toFin (k n : Nat) : Option (Fin k) := if h : n < k then some ⟨n, h⟩ else none

/-- A value carried by a request, as a member of a finite range. -/
def argFin (k : Nat) (v : Option Nat) : Option (Fin k) := v.bind (toFin k)

/-! ### Hub time (R27) -/

/-- Hub time has counted on until it reads `t`; the frame on RING OUT has gone on meanwhile (notes/assumptions/1.md). -/
def State.advance (s : State) (t : HubTime) : State :=
  { s with hubTime := t, rc := { s.rc with outLeft := s.rc.outLeft - (t - s.hubTime).toNat } }

/-- The hub is the shaft master (R186). -/
def State.isMaster (s : State) : Bool := s.straps.master

/-! ### The bytes of the tile store (R113, R115) -/

/-- The byte at an address; a byte that nothing has written reads as 0 (notes/assumptions/7.md). -/
def memRead : Memory → Nat → Byte
  | [], _ => 0
  | (a, b) :: m, k => if k = a then b else if k < a then 0 else memRead m k

/-- Write one byte, keeping the addresses rising and no zero byte listed. -/
def memWrite : Memory → Nat → Byte → Memory
  | [], k, v => if v = 0 then [] else [(k, v)]
  | (a, b) :: m, k, v =>
    if k < a then (if v = 0 then (a, b) :: m else (k, v) :: (a, b) :: m)
    else if k = a then (if v = 0 then m else (k, v) :: m)
    else (a, b) :: memWrite m k v

/-- Every address is at least `lo`, they rise strictly, and no listed byte is 0. -/
def memWfFrom : Nat → Memory → Bool
  | _, [] => true
  | lo, (a, b) :: m => decide (lo ≤ a) && decide (b ≠ 0) && memWfFrom (a + 1) m

/-- The canonical form of the tile store. -/
def Memory.wf (m : Memory) : Bool := memWfFrom 0 m

/-- The address of byte `i` of a strip or reception that holds the given tiles (R115). -/
def tileAddr (tiles : List Nat) (i : Nat) : Nat := tiles.getD (i / 2048) 0 * 2048 + i % 2048

/-- Byte `i` of a list of tiles. -/
def tileByte (m : Memory) (tiles : List Nat) (i : Nat) : Byte := memRead m (tileAddr tiles i)

/-- Bytes `off` onward of a list of tiles. -/
def tileBytes (m : Memory) (tiles : List Nat) (off count : Nat) : List Byte :=
  (List.range count).map (fun i => tileByte m tiles (off + i))

/-- Store bytes at `off` onward of a list of tiles. -/
def tileStore (m : Memory) (tiles : List Nat) (off : Nat) : List Byte → Memory
  | [] => m
  | b :: bs => tileStore (memWrite m (tileAddr tiles off) b) tiles (off + 1) bs

/-! ### Notices (R180) -/

/-- The bit of a notice kind in a notice set (section 11.2). -/
def Notice.index : Notice → Nat
  | .setpoint => 0
  | .trigger => 1
  | .views => 2
  | .trip => 3
  | .notify => 4
  | .register => 5
  | .late => 6
  | .ring => 7
  | .imageDropped => 8
  | .frameError => 9
  | .overrun => 10

/-- The notice set that holds one kind. -/
def Notice.mask (k : Notice) : BitVec 11 := 1#11 <<< k.index

/-- The ports a routable kind is routed to; none for a kind with a fixed route (R181). -/
def Routes.of (r : Routes) : Notice → BitVec 4
  | .trigger => r.trigger
  | .trip => r.trip
  | .notify => r.notify
  | .register => r.register
  | .late => r.late
  | .ring => r.ring
  | .imageDropped => r.imageDropped
  | .setpoint | .views | .frameError | .overrun => 0

/-- Add a notice kind to the pending set of a port. -/
def Port.addNotice (q : Port) (k : Notice) : Port := { q with pending := q.pending ||| k.mask }

/-- A notice with a fixed route reaches one port (R180). -/
def State.notifyPort (s : State) (p : PortNo) (k : Notice) : State := s.onPort p (fun q => q.addNotice k)

/-- A routable notice reaches every port that the routing table names for it at that moment (R180). -/
def State.notify (s : State) (k : Notice) : State :=
  s.onCp (fun c =>
    { c with ports := c.ports.mapIdx (fun p q => if (c.routes.of k).getLsbD p then q.addNotice k else q) })

/-! ### Responses and the taking of a request (R175 to R177) -/

/-- A response that a block gives at once, or none when the request waits. -/
abbrev Reply := Option (Status × List Byte)

/-- A response with no data. -/
def status (st : Status) : Reply := some (st, [])

/-- The response becomes ready and joins the tail of the port's queue (R177). -/
def State.respond (s : State) (p : PortNo) (g : Tag) (st : Status) (payload : List Byte) : State :=
  s.onPort p (fun q => { q with responses := q.responses ++ [⟨g, st, payload⟩] })

/-- A request that was handed to a block is answered now, or waits. DESIGN CHOICE (notes/assumptions/49.md): its response comes
after those that its own effect made ready at the port, such as DISCARDED for the FENCEs that a STOP PRESS discards. -/
def State.answer (r : State × Reply) (p : PortNo) (g : Tag) : State :=
  match r.2 with
  | none => r.1
  | some (st, payload) => r.1.respond p g st payload

/-- A port discards a frame, voids a transaction or sees a GET cut short (R174, R175, R177). -/
def State.frameError (s : State) (p : PortNo) : State :=
  s.onPort p (fun q => { (q.addNotice .frameError) with frameErrors := satInc q.frameErrors })

/-- A whole request frame with tag `g` is judged: overrun, tag in use, or taken and handed on (R175, cases 3 to 5). -/
def State.takeFrame (s : State) (p : PortNo) (g : Tag) (handOn : State → State) : State :=
  let q := s.port p
  if q.outstanding = BitVec.allOnes 4 then
    s.onPort p (fun q => { (q.addNotice .overrun) with overruns := satInc q.overruns })
  else if q.outstanding.getLsbD g then s.frameError p
  else handOn (s.onPort p (fun q => { q with outstanding := q.outstanding ||| (1#4 <<< g.val) }))

/-- A taken request is checked against the port's role and handed to its block (R176). -/
def State.handRequest (s : State) (p : PortNo) (g : Tag) (roles : List Role) (block : State → State × Reply) : State :=
  if roles.contains (s.port p).role then State.answer (block s) p g else s.respond p g .notPermitted []

/-- The roles the catalogue of R178 names: every role, DESK, DESK and PANEL, DRIVE, VISION. A port of role NONE is in
none of them (R176). -/
def anyRole : List Role := [.drive, .vision, .panel, .desk]
/-- DESK alone. -/
def deskOnly : List Role := [.desk]
/-- DESK and PANEL. -/
def deskPanel : List Role := [.desk, .panel]
/-- DRIVE alone. -/
def driveOnly : List Role := [.drive]
/-- VISION alone. -/
def visionOnly : List Role := [.vision]

/-- A request row: the frame is whole and well formed, so it is judged, checked against the role and handed to its block. -/
def State.request (s : State) (p : PortNo) (g : Tag) (roles : List Role) (block : State → State × Reply) : State :=
  s.takeFrame p g (fun s1 => s1.handRequest p g roles block)

end Sys2Proof.Machine
end

