-- ==== Sys2Proof/Machine/Flags.lean ====
section
/-! DEFINITION. Classes, flags and the values computed from the state: the trip classes and their bits, own and effective
class, TRIP OUT, ATN, a section's correction target, the pins of a strip, what a loop needs to be active. -/

namespace Sys2Proof.Machine

/-! ### Classes (sections 1.5 and 5.2) -/

/-- NOTIFY, SYNC, QUICK, COAST in increasing order, above no class. -/
def Cls.rank : Cls → Nat
  | .noClass => 0
  | .notify => 1
  | .sync => 2
  | .quick => 3
  | .coast => 4

/-- The greater of two classes. -/
def Cls.max (a b : Cls) : Cls := if a.rank < b.rank then b else a

/-- SYNC or above. -/
def Cls.stops (c : Cls) : Bool := decide (2 ≤ c.rank)

/-- The code of a class in a trip record and in MATRIX SET (section 11.2). DESIGN CHOICE (notes/assumptions/17.md): TRIP READ
and the TRIPS view send the own, the carried and the effective class and the release level by it too. -/
def Cls.code : Cls → Nat
  | .noClass | .notify => 0
  | .sync => 1
  | .quick => 2
  | .coast => 3

/-- The highest class named by a bit of a group. -/
def ClassGroup.cls (g : ClassGroup) : Cls :=
  if g.coast then .coast else if g.quick then .quick else if g.sync then .sync else .noClass

/-- The class that a cycle frame carries: the highest named by any bit of either group. -/
def TripClasses.cls (t : TripClasses) : Cls := (ClassGroup.cls t.gathered).max (ClassGroup.cls t.carried)

/-- OR the bit that names a class into a group; NOTIFY and no class add no bit (R17). -/
def addClassBit (g : ClassGroup) (c : Cls) : ClassGroup :=
  match c with
  | .sync => { g with sync := true }
  | .quick => { g with quick := true }
  | .coast => { g with coast := true }
  | .noClass | .notify => g

/-! ### Causes (R87, R88) -/

/-- The number of a cause. -/
def Cause.number : Cause → Nat
  | .tripIn => 0
  | .webBreak => 1
  | .ringLost => 2
  | .driveFault => 3
  | .driveSilent => 4
  | .registerLost => 5
  | .operatorStop => 6
  | .publicationLate => 7
  | .followingError => 8
  | .remote => 9

/-- The cause with a number of the trip matrix. -/
def Cause.ofNumber : Nat → Option Cause
  | 0 => some .tripIn
  | 1 => some .webBreak
  | 2 => some .ringLost
  | 3 => some .driveFault
  | 4 => some .driveSilent
  | 5 => some .registerLost
  | 6 => some .operatorStop
  | 7 => some .publicationLate
  | 8 => some .followingError
  | _ => none

/-- The class that a code of section 11.2 names. -/
def Cls.ofCode : Nat → Option Cls
  | 0 => some .notify
  | 1 => some .sync
  | 2 => some .quick
  | 3 => some .coast
  | _ => none

/-- The class the matrix gives a cause. REMOTE is not in the matrix. -/
def Matrix.get (m : Matrix) : Cause → Cls
  | .tripIn => m.tripIn
  | .webBreak => m.webBreak
  | .ringLost => m.ringLost
  | .driveFault => m.driveFault
  | .driveSilent => m.driveSilent
  | .registerLost => m.registerLost
  | .operatorStop => m.operatorStop
  | .publicationLate => m.publicationLate
  | .followingError => m.followingError
  | .remote => .noClass

/-- The matrix with the class of one cause replaced. -/
def Matrix.put (m : Matrix) (c : Cause) (k : Cls) : Matrix :=
  match c with
  | .tripIn => { m with tripIn := k }
  | .webBreak => { m with webBreak := k }
  | .ringLost => { m with ringLost := k }
  | .driveFault => { m with driveFault := k }
  | .driveSilent => { m with driveSilent := k }
  | .registerLost => { m with registerLost := k }
  | .operatorStop => { m with operatorStop := k }
  | .publicationLate => { m with publicationLate := k }
  | .followingError => { m with followingError := k }
  | .remote => m

/-- The least class a cause may be given (R88). -/
def Cause.minimum : Cause → Cls
  | .tripIn | .ringLost => .quick
  | _ => .notify

/-- The order of the cause set: by cause number and then by section. -/
def CausePair.key (c : CausePair) : Nat :=
  c.cause.number * 32 + (match c.slot with | some i => i.val + 1 | none => 0)

/-- Add a pair to the cause set, in order; a pair already in it is not added again. -/
def insertCause (c : CausePair) : List CausePair → List CausePair
  | [] => [c]
  | d :: r => if c = d then d :: r else if c.key < d.key then c :: d :: r else d :: insertCause c r

/-- The highest class that the matrix gives to a list of latched causes (R91). -/
def classOfCauses (m : Matrix) (cs : List CausePair) : Cls :=
  cs.foldl (fun acc c => acc.max (m.get c.cause)) .noClass

/-- The latched class (R91). -/
def State.latchedClass (s : State) : Cls := classOfCauses s.tu.matrix s.tu.causes

/-- The own class (R91). -/
def State.ownClass (s : State) : Cls :=
  match s.tu.state with
  | .normal | .releasing => .noClass
  | .capture | .stopping | .stopped | .lockout => s.latchedClass

/-- The effective class (R93). -/
def State.effectiveClass (s : State) : Cls := s.ownClass.max s.tu.carried

/-- TRIP OUT is asserted (R94). -/
def State.tripOut (s : State) : Bool := decide (3 ≤ s.effectiveClass.rank) || decide (s.tu.state = .lockout)

/-- ATN of a port is asserted (R185). -/
def Port.atn (q : Port) : Bool := !q.responses.isEmpty || decide (q.pending &&& q.enabled ≠ 0)

/-! ### Ring values -/

/-- The ring period in ticks; 0 while the hub has no period code. -/
def State.periodTicks (s : State) : Nat :=
  match s.rc.period with
  | some c => Machine.periodTicks c
  | none => 0

/-- The bit of a hub address in a 32-bit mask. -/
def hubBit (h : Nat) : BitVec 32 := 1#32 <<< h

/-- Set or clear one bit of a mask. -/
def putBit (m : BitVec 32) (h : Nat) (b : Bool) : BitVec 32 := if b then m ||| hubBit h else m &&& ~~~(hubBit h)

/-- The hub's own address is `h`. -/
def State.ownAddress (s : State) (h : Nat) : Bool := decide (s.rc.hubAddress = some h)

/-- `h` is below the hub count. -/
def State.knownHub (s : State) (h : Nat) : Bool :=
  match s.rc.hubCount with
  | some n => decide (h < n)
  | none => false

/-- The ring state is RUNNING. -/
def State.running (s : State) : Bool := decide (s.rc.ringState = .running)

/-- When the first byte of a frame arrived whose last byte arrives now: 2 ticks per byte before (section 1.1). -/
def State.firstByte (s : State) (length : Nat) : HubTime := s.hubTime - BitVec.ofNat 32 (2 * length)

/-- The arrival that FRAME_FORWARD gave for a first byte at a hub time, if it was the latest (notes/assumptions/3.md). -/
def RC.arrivalAt (r : RC) (first : HubTime) : Option Arrival := r.inbound.filter (fun a => decide (a.start = first))

/-- A data frame of `length` bytes whose last byte arrives now is examined as at a RUNNING hub: the hub is in RUNNING, or
was when the first byte came, since removal is decided on the header (R3, notes/assumptions/3.md). -/
def State.examines (s : State) (length : Nat) : Bool :=
  s.running || (s.rc.arrivalAt (s.firstByte length)).any (fun a => a.running)

/-- The cable compensation that was in force when the first byte arrived (R14, R26). -/
def State.compAt (s : State) (first : HubTime) : Nat :=
  match s.rc.arrivalAt first with
  | some a => a.comp
  | none => s.rc.cableComp

/-! ### Sections (R45) -/

/-- The correction target Ct = Os + Tt. -/
def Section.ct (x : Section) : Int := x.os + x.tt

/-- CORRECTING: Ca differs from Ct. -/
def Section.correcting (x : Section) : Bool := decide (x.ca ≠ x.ct)

/-- The code of a section state (section 11.2). -/
def SectionState.code : SectionState → Nat
  | .vacant => 0
  | .idle => 1
  | .coupled => 2
  | .held => 3
  | .released => 4

/-! ### Strips (R116) -/

/-- The strip is pinned. -/
def Strip.pinned (x : Strip) : Bool :=
  !x.sending.isEmpty || x.receiving || x.scanning || !x.freezeSet.isEmpty || x.holds.list.any (fun n => decide (0 < n))

/-- Bytes per pixel (R115). -/
def Mode.bytesPerPixel : Mode → Nat
  | .grey => 1
  | .cmyk => 4

/-- The tiles of every strip with a freeze count above zero (section 6.5). -/
def State.frozenTiles (s : State) : Nat :=
  ((s.is.strips.filter (fun x => !x.freezeSet.isEmpty)).map (fun x => x.tiles.length)).sum

/-! ### Loops (R78) -/

/-- The loop is active: enabled, its section COUPLED, the tracker's last V not below its minimum speed. -/
def State.loopActive (s : State) (i : SlotNo) : Bool :=
  let l := s.loop i
  l.enable && decide ((s.slot i).state = .coupled) && decide ((l.minSpeed : Int) ≤ s.su.tracker.lastV)

end Sys2Proof.Machine
end

