-- ==== Sys2Proof/Machine/Operands.lean ====
section
/-! DEFINITION. Item lists (section 11.2), and how the payload of a request frame is checked for form and read as the
command of its row (R188, section 11.4). The item numbers follow the order in which the owning rules list the values;
what the spec leaves open in them is in notes/assumptions/17.md. -/

namespace Sys2Proof.Machine

/-! ### Writing item lists -/

/-- Number values from `k` on; an absent value is left out and keeps its number. -/
def itemsFrom (k : Nat) : List (Option (List Byte)) → List Item
  | [] => []
  | none :: r => itemsFrom (k + 1) r
  | some v :: r => ⟨k, v⟩ :: itemsFrom (k + 1) r

/-- The values that a rule lists, in its order, as items numbered from 1. -/
def items (vs : List (Option (List Byte))) : List Item := itemsFrom 1 vs

/-- One item: number, value length, value. -/
def itemBytes (i : Item) : List Byte := beBytes 1 i.num ++ beBytes 2 i.value.length ++ i.value

/-- An item list. -/
def itemsBytes (l : List Item) : List Byte := l.flatMap itemBytes

/-- Values numbered from 1, as an item list. -/
def valuesBytes (vs : List (Option (List Byte))) : List Byte := itemsBytes (items vs)

/-- The value of an item that is a list of like entries: a run of items numbered 21h. -/
def entriesBytes (es : List (List Byte)) : List Byte := es.flatMap (fun e => itemBytes ⟨0x21, e⟩)

/-- An unsigned or signed value of `n` bytes. -/
def val (n : Nat) (v : Int) : Option (List Byte) := some (beBytes n v)
/-- A flag. -/
def vflag (b : Bool) : Option (List Byte) := some (flagByte b)
/-- A bit string of `n` bytes. -/
def vbits (n : Nat) {w : Nat} (v : BitVec w) : Option (List Byte) := some (beBytes n v.toNat)
/-- An optional value of `n` bytes. -/
def vopt (n : Nat) (v : Option Int) : Option (List Byte) := v.map (beBytes n)
/-- An optional natural value of `n` bytes. -/
def voptNat (n : Nat) (v : Option Nat) : Option (List Byte) := v.map (fun x => beBytes n x)
/-- A list of like entries. -/
def vlist (es : List (List Byte)) : Option (List Byte) := some (entriesBytes es)

/-! ### Reading item lists -/

/-- The items of a byte string that ends exactly at the end of its last item, else none. `fuel` bounds the items. -/
def parseItemsFuel : Nat → List Byte → Option (List Item)
  | _, [] => some []
  | k + 1, n :: h :: l :: rest =>
    let len := h.toNat * 256 + l.toNat
    if rest.length < len then none
    else (parseItemsFuel k (rest.drop len)).map (fun r => ⟨n.toNat, rest.take len⟩ :: r)
  | _, _ => none

/-- A well-formed item list, else none. -/
def parseItems (bs : List Byte) : Option (List Item) := parseItemsFuel bs.length bs

/-- The items that can be read of any byte string. DESIGN CHOICE (notes/assumptions/53.md), for a VIEW UPDATE whose content is
no well-formed item list: a last value that is cut short is kept as far as it goes, and 1 or 2 bytes after the last item are
dropped. -/
def readItemsFuel : Nat → List Byte → List Item
  | k + 1, n :: h :: l :: rest =>
    let len := h.toNat * 256 + l.toNat
    ⟨n.toNat, rest.take len⟩ :: readItemsFuel k (rest.drop len)
  | _, _ => []

/-- The size that R188 asks of an item's value. -/
inductive ValueSize where
  | fixed (n : Nat)
  | bytes (lo hi : Nat)
  | entries (n : Nat)
deriving DecidableEq, Repr

/-- Every entry of a list item is a 21h item of the given size. -/
def entriesFit (n : Nat) (v : List Byte) : Bool :=
  match parseItems v with
  | some l => l.all (fun i => decide (i.num = 0x21) && decide (i.value.length = n))
  | none => false

/-- The value of an item has its size. -/
def ValueSize.fits (z : ValueSize) (v : List Byte) : Bool :=
  match z with
  | .fixed n => decide (v.length = n)
  | .bytes lo hi => decide (lo ≤ v.length) && decide (v.length ≤ hi)
  | .entries n => entriesFit n v

/-- The size of the value of a SECTION SET field (R54), by field number. -/
def fieldSize : Nat → Option Nat
  | 1 => some 1
  | 2 | 3 => some 2
  | 4 | 5 | 6 => some 3
  | 7 | 8 => some 2
  | 9 => some 1
  | _ => none

/-- What the items of a request kind may be: the plain items with their sizes, and for a kind with pairs the size of a
pair's value by its number, none where the number is unknown. -/
structure RequestForm where
  plain : List (Nat × ValueSize)
  pairs : Option (Nat → Option Nat)

/-- A form with plain items alone, each of a fixed size, numbered from 1. -/
def fixedForm (sizes : List Nat) : RequestForm :=
  ⟨(sizes.zipIdx 1).map (fun p => (p.2, .fixed p.1)), none⟩

/-- The items of a request kind, by its code (section 11.4); none for a code that is no kind. DESIGN CHOICE
(notes/assumptions/17.md): VIEW OPEN (22h) has four plain items, target, kind, index and rate class. -/
def requestForm (kind : Nat) : Option RequestForm :=
  match kind with
  | 0x01 | 0x02 | 0x04 | 0x07 | 0x0D | 0x17 | 0x1D | 0x24 => some (fixedForm [])
  | 0x03 => some (fixedForm [2])
  | 0x05 | 0x08 | 0x12 | 0x13 | 0x1B | 0x23 | 0x25 => some (fixedForm [1])
  | 0x06 => some (fixedForm [1, 1])
  | 0x09 | 0x0B | 0x0C => some (fixedForm [4])
  | 0x0A => some (fixedForm [3, 3, 3])
  | 0x0E => some (fixedForm [3])
  | 0x0F | 0x18 | 0x20 | 0x21 | 0x29 | 0x2A => some (fixedForm [2])
  | 0x10 => some ⟨[], some (fun _ => some 1)⟩
  | 0x11 => some ⟨[(1, .fixed 1), (2, .fixed 2)], some fieldSize⟩
  | 0x14 => some (fixedForm [1, 3])
  | 0x15 => some (fixedForm [1, 1, 2, 2, 1, 1, 2, 1, 2, 1, 1, 1, 3, 3, 2, 1, 1, 4])
  | 0x16 => some ⟨[], some (fun _ => some 1)⟩
  | 0x19 => some (fixedForm [1, 1, 2, 4, 4])
  | 0x1A => some ⟨[(1, .fixed 1), (2, .entries 3)], none⟩
  | 0x1C => some (fixedForm [1, 1, 4])
  | 0x1E => some (fixedForm [2, 1])
  | 0x1F => some (fixedForm [2, 3, 2])
  | 0x22 => some (fixedForm [1, 1, 1, 1])
  | 0x26 => some (fixedForm [1, 1, 1, 1, 3])
  | 0x27 => some (fixedForm [1, 2, 2, 1])
  | 0x28 => some ⟨[(1, .fixed 2), (2, .fixed 3), (3, .bytes 1 1024)], none⟩
  | _ => none

/-- A pair item: its number and the length of its value fit. -/
def pairFits (size : Nat → Option Nat) (v : List Byte) : Bool :=
  match v with
  | [] => false
  | k :: r =>
    match size k.toNat with
    | some n => decide (r.length = n)
    | none => true

/-- One item fits the form of its kind. -/
def itemFits (f : RequestForm) (i : Item) : Bool :=
  if i.num = 0x20 then
    match f.pairs with
    | some size => pairFits size i.value
    | none => false
  else f.plain.any (fun e => decide (e.1 = i.num) && e.2.fits i.value)

/-- No item number appears twice except 20h. -/
def noRepeats : List Item → Bool
  | [] => true
  | i :: r => (decide (i.num = 0x20) || r.all (fun j => decide (j.num ≠ i.num))) && noRepeats r

/-- The form check of R188: the items of a payload that passes, else none. -/
def checkForm (kind : Nat) (payload : List Byte) : Option (List Item) :=
  match requestForm kind, parseItems payload with
  | some f, some l => if l.all (itemFits f) && noRepeats l then some l else none
  | _, _ => none

/-- The value of the plain item with a number. -/
def itemValue (l : List Item) (n : Nat) : Option (List Byte) := (l.find? (fun i => i.num == n)).map (fun i => i.value)
/-- Its value as an unsigned number. -/
def itemNat (l : List Item) (n : Nat) : Option Nat := (itemValue l n).map ofBytes
/-- Its value as a signed number. -/
def itemInt (l : List Item) (n : Nat) : Option Int := (itemValue l n).map ofBytesSigned
/-- Its value as a flag. DESIGN CHOICE (notes/assumptions/17.md): 0 is clear or off, any other value set or on. -/
def itemFlag (l : List Item) (n : Nat) : Option Bool := (itemNat l n).map (fun v => decide (v ≠ 0))
/-- Its value as bits. -/
def itemBits (w : Nat) (l : List Item) (n : Nat) : Option (BitVec w) := (itemNat l n).map (BitVec.ofNat w)
/-- The pairs of a request, number and value bytes, in their order. -/
def itemPairs (l : List Item) : List (Nat × List Byte) :=
  l.filterMap (fun i =>
    if i.num = 0x20 then
      match i.value with
      | k :: r => some (k.toNat, r)
      | [] => none
    else none)
/-- The pairs with unsigned values. -/
def itemPairsNat (l : List Item) : List (Nat × Nat) := (itemPairs l).map (fun p => (p.1, ofBytes p.2))
/-- The pairs of a SECTION SET: Os and Tt are signed (R54). -/
def itemPairsField (l : List Item) : List (Nat × Int) :=
  (itemPairs l).map (fun p =>
    (p.1, if p.1 = 4 ∨ p.1 = 6 then ofBytesSigned p.2 else (ofBytes p.2 : Int)))
/-- The entries of a list item, as unsigned numbers. -/
def itemEntries (l : List Item) (n : Nat) : Option (List Nat) :=
  (itemValue l n).map (fun v => ((parseItems v).getD []).map (fun i => ofBytes i.value))

/-- The source item of a REGISTER SET. DESIGN CHOICE (notes/assumptions/17.md): its code and its input or camera number, one
byte each. -/
def itemSource (l : List Item) (n : Nat) : Option SourceArg :=
  match itemValue l n with
  | some [c, i] => some ⟨c.toNat, i.toNat⟩
  | _ => none

/-- A REGISTER SET: the loop form when it names any item of the loop form, the input form when it names none; a payload
that mixes both fails the form check (notes/assumptions/17.md). DESIGN CHOICE (notes/assumptions/17.md): the section map
is a mask of two bytes, bit n for slot n. -/
def registerSetOf (t : HubTime) (p : PortNo) (g : Tag) (l : List Item) : Option Instr :=
  let loopItems := l.filter (fun i => decide (5 ≤ i.num))
  if loopItems.isEmpty then
    some (.registerSetInputForm t p g (itemNat l 1)
      { edge := itemNat l 2, holdOff := itemNat l 3, map := itemBits 16 l 4 })
  else if loopItems.length = l.length then
    some (.registerSetLoopForm t p g (itemNat l 5)
      { enable := itemFlag l 6, source := itemSource l 7, channel := itemNat l 8, startColumn := itemNat l 9,
        direction := itemNat l 10, threshold := itemNat l 11, runLength := itemNat l 12, mexp := itemNat l 13,
        window := itemNat l 14, deadband := itemNat l 15, gain := itemNat l 16, missLimit := itemNat l 17,
        minSpeed := itemNat l 18 })
  else none

/-- What a RECORD READ names. DESIGN CHOICE (notes/assumptions/17.md): the number, where it carries a number and NEWEST; and
the item NEWEST selects by being there, one byte of any value, 00h too. -/
def recordSelOf (l : List Item) : Option RecordSel :=
  match itemBits 16 l 1, itemValue l 2 with
  | some n, _ => some (.number n)
  | none, some _ => some .newest
  | none, none => none

/-- The command that a well-formed payload of a request kind spells. DESIGN CHOICE (notes/assumptions/17.md): VIEW OPEN (22h) has
its target in item 1, its kind in item 2, its index in item 3 and its rate class in item 4. -/
def requestOf (t : HubTime) (p : PortNo) (g : Tag) (kind : Nat) (l : List Item) : Option Instr :=
  match kind with
  | 0x01 => some (.hubInfo t p g)
  | 0x02 => some (.fence t p g)
  | 0x03 => some (.noticeEnable t p g (itemNat l 1))
  | 0x04 => some (.shaftRead t p g)
  | 0x05 => some (.sectionRead t p g (itemNat l 1))
  | 0x06 => some (.registerRead t p g (itemNat l 1) (itemNat l 2))
  | 0x07 => some (.tripRead t p g)
  | 0x08 => some (.stripList t p g (itemNat l 1))
  | 0x09 => some (.setSpeed t p g (itemInt l 1))
  | 0x0A => some (.setRamp t p g (itemNat l 1) (itemNat l 2) (itemNat l 3))
  | 0x0B => some (.setVmax t p g (itemNat l 1))
  | 0x0C => some (.inchStart t p g (itemInt l 1))
  | 0x0D => some (.inchStop t p g)
  | 0x0E => some (.setPublicationOffset t p g (itemNat l 1))
  | 0x0F => some (.setCableComp t p g (itemNat l 1))
  | 0x10 => some (.noticeRoute t p g (itemPairsNat l))
  | 0x11 => some (.sectionSet t p g (itemNat l 1) (itemNat l 2) (itemPairsField l))
  | 0x12 => some (.couple t p g (itemNat l 1))
  | 0x13 => some (.decouple t p g (itemNat l 1))
  | 0x14 => some (.setPosition t p g (itemNat l 1) (itemNat l 2))
  | 0x15 => registerSetOf t p g l
  | 0x16 => some (.matrixSet t p g (itemPairsNat l))
  | 0x17 => some (.tripReset t p g)
  | 0x18 => some (.recordRelease t p g (itemBits 16 l 1))
  | 0x19 =>
    some (.cameraSet t p g (itemNat l 1)
      { mode := itemNat l 2, pitch := itemNat l 3, mask := itemBits 32 l 4, minSpeed := itemNat l 5 })
  | 0x1A => some (.triggerSet t p g (itemNat l 1) (itemEntries l 2))
  | 0x1B => some (.freezeSpanSet t p g (itemNat l 1))
  | 0x1C => some (.trimNudge t p g (itemNat l 1) (itemNat l 2) (itemInt l 3))
  | 0x1D => some (.stopPress t p g)
  | 0x1E => some (.recordRead t p g (recordSelOf l))
  | 0x1F => some (.stripRead t p g (itemNat l 1) (itemNat l 2) (itemNat l 3))
  | 0x20 => some (.stripHold t p g (itemNat l 1))
  | 0x21 => some (.stripUnhold t p g (itemNat l 1))
  | 0x22 => some (.viewOpen t p g (itemNat l 1) (itemNat l 2) (itemNat l 3) (itemNat l 4))
  | 0x23 => some (.viewClose t p g (itemNat l 1))
  | 0x24 => some (.viewFetch t p g)
  | 0x25 => some (.setpointPickup t p g (itemNat l 1))
  | 0x26 => some (.driveStatus t p g (itemNat l 1) (itemFlag l 2) (itemFlag l 3) (itemFlag l 4) (itemNat l 5))
  | 0x27 => some (.stripOpen t p g (itemNat l 1) (itemNat l 2) (itemNat l 3) (itemNat l 4))
  | 0x28 => some (.stripData t p g (itemNat l 1) (itemNat l 2) ((itemValue l 3).getD []))
  | 0x29 => some (.stripClose t p g (itemNat l 1))
  | 0x2A => some (.stripDiscard t p g (itemNat l 1))
  | _ => none

/-- The roles that may issue a request kind (the catalogue of R178); none for a code that is no kind. -/
def requestRoles (kind : Nat) : Option (List Role) :=
  match kind with
  | 0x01 | 0x02 | 0x03 | 0x04 | 0x05 | 0x06 | 0x07 | 0x08 => some anyRole
  | 0x09 | 0x0A | 0x0B | 0x0C | 0x0D | 0x0E | 0x0F | 0x10 | 0x11 | 0x12 | 0x13 | 0x14 | 0x15 | 0x16 | 0x17 | 0x18
  | 0x19 | 0x1A | 0x1B => some deskOnly
  | 0x1C | 0x1D | 0x1E | 0x1F | 0x20 | 0x21 | 0x22 | 0x23 | 0x24 => some deskPanel
  | 0x25 | 0x26 => some driveOnly
  | 0x27 | 0x28 | 0x29 | 0x2A => some visionOnly
  | _ => none

/-! ### Codes of the values that responses carry (section 11.2) -/

/-- The status codes, 00h DONE to 14h UNKNOWN KIND; an unlisted code is itself. -/
def Status.code : Status → Nat
  | .done => 0
  | .clamped => 1
  | .posted => 2
  | .notPermitted => 3
  | .notMaster => 4
  | .notRunning => 5
  | .notAtRest => 6
  | .badState => 7
  | .badArgument => 8
  | .full => 9
  | .staleSerial => 10
  | .noRoom => 11
  | .outOfOrder => 12
  | .notYours => 13
  | .gone => 14
  | .busy => 15
  | .stillActive => 16
  | .lockedOut => 17
  | .timeout => 18
  | .discarded => 19
  | .unknownKind => 20
  | .unlisted c => c.toNat

/-- The status with a code, one byte. -/
def statusOf : Nat → Status
  | 0 => .done
  | 1 => .clamped
  | 2 => .posted
  | 3 => .notPermitted
  | 4 => .notMaster
  | 5 => .notRunning
  | 6 => .notAtRest
  | 7 => .badState
  | 8 => .badArgument
  | 9 => .full
  | 10 => .staleSerial
  | 11 => .noRoom
  | 12 => .outOfOrder
  | 13 => .notYours
  | 14 => .gone
  | 15 => .busy
  | 16 => .stillActive
  | 17 => .lockedOut
  | 18 => .timeout
  | 19 => .discarded
  | 20 => .unknownKind
  | n => .unlisted (BitVec.ofNat 8 n)

/-- Shaft flags in one byte. The master flags of a cycle frame have these places (section 11.3); that an item shows them so
is a DESIGN CHOICE (notes/assumptions/17.md). -/
def shaftFlagBits (f : ShaftFlags) : Nat :=
  (if f.atRest then 8 else 0) + (if f.inching then 4 else 0) + (if f.tripDecel then 2 else 0)

/-- The flags of a setpoint record (section 11.4). -/
def SetpointRecord.flagBits (r : SetpointRecord) : Nat :=
  (if r.late then 1 else 0) + (if r.extrapolated then 2 else 0) + (if r.correcting then 4 else 0)
    + (if r.positionSet then 8 else 0)

/-- A setpoint record, 12 bytes (section 11.4). -/
def SetpointRecord.bytes (r : SetpointRecord) : List Byte :=
  beBytes 1 r.slot.val ++ beBytes 2 r.cycle.toNat ++ beBytes 3 r.position.toNat ++ beBytes 4 r.delta
    ++ beBytes 1 r.state.code ++ beBytes 1 r.flagBits

/-- The section byte of a cause, FFh for none. -/
def CausePair.slotCode (c : CausePair) : Nat :=
  match c.slot with
  | some i => i.val
  | none => 255

/-- A trip record, in the order of R109 (section 11.4). -/
def TripRecord.bytes (r : TripRecord) : List Byte :=
  beBytes 2 r.number.toNat ++ beBytes 1 r.first.cause.number ++ beBytes 1 r.first.slotCode
    ++ beBytes 1 r.entryClass.code ++ beBytes 1 r.highest.code ++ beBytes 2 r.cycle.toNat ++ beBytes 4 r.time.toNat
    ++ beBytes 5 r.angle.toNat ++ beBytes 4 r.v ++ beBytes 4 r.mask.toNat
    ++ beBytes 1 r.snapshots.length
    ++ r.snapshots.flatMap (fun x => beBytes 1 x.slot.val ++ beBytes 1 x.state.code ++ beBytes 3 x.position.toNat
        ++ beBytes 4 x.ca ++ beBytes 4 x.ct)
    ++ beBytes 1 r.secondary.length
    ++ r.secondary.flatMap (fun c => beBytes 1 c.cause.number ++ beBytes 1 c.slotCode)
    ++ beBytes 1 r.frozen.length ++ r.frozen.flatMap (fun i => beBytes 2 i)
    ++ flagByte r.capturing

end Sys2Proof.Machine
end

