-- ==== Sys2Proof/Machine/Shaft.lean ====
section
/-! DEFINITION. The arithmetic of the Shaft Unit: the generator's step, the tracker's steps and interpolation
(R28 to R32, R38 to R43). -/

namespace Sys2Proof.Machine

/-! ### The generator -/

/-- The effective target is 0 for a trip, under a class in force (R29). -/
def State.tripTarget (s : State) (inForce : Cls) : Bool := decide (s.tu.state = .lockout) || inForce.stops

/-- The effective target (R29). -/
def Generator.target (g : Generator) (forTrip : Bool) : Int :=
  if forTrip then 0 else if g.inching then g.vi else g.vt

/-- The effective target as it would be determined now (R32, R44). DESIGN CHOICE (notes/assumptions/38.md): for SHAFT READ as
for at rest, the class in force is the effective class alone, without the returned trip word that the next frame would
carry. -/
def State.target (s : State) : Int := s.su.gen.target (s.tripTarget s.effectiveClass)

/-- The generator is at rest (R32). -/
def State.genAtRest (s : State) : Bool := decide (s.su.gen.v = 0) && decide (s.target = 0)

/-- `v` moved toward `t` by a rate, never past it (R30). -/
def moveToward (v t : Int) (rate : Nat) : Int := if v < t then min t (v + rate) else max t (v - rate)

/-- The speed after one step toward the target (R30). -/
def Generator.nextV (g : Generator) (target : Int) (forTrip lockout : Bool) : Int :=
  if lockout then 0
  else if g.v = target then g.v
  else if (0 < g.v ∧ target < 0) ∨ (g.v < 0 ∧ 0 < target) then moveToward g.v 0 g.dn
  else if g.v.natAbs < target.natAbs then moveToward g.v target g.a
  else moveToward g.v target (if forTrip then g.de else g.dn)

/-- One step of the generator at an origination: TRIP DECEL and what its setting does (R29), V (R30), the angle (R31). -/
def Generator.step (g : Generator) (forTrip lockout : Bool) : Generator :=
  let g1 := if forTrip && !g.tripDecel then { g with vt := 0, inching := false } else g
  let g2 := { g1 with tripDecel := forTrip }
  let v := g2.nextV (g2.target forTrip) forTrip lockout
  { g2 with v := v, angle := g2.angle + BitVec.ofInt 36 v }

/-- The shaft flags the generator writes into a frame after its step (R32). -/
def Generator.flags (g : Generator) (forTrip : Bool) : ShaftFlags :=
  { atRest := decide (g.v = 0) && decide (g.target forTrip = 0), inching := g.inching, tripDecel := g.tripDecel }

/-! ### The tracker -/

/-- The integer part of a full angle (R31). -/
def intAngle (a : FullAngle) : Angle := a.extractLsb' 12 24

/-- The history with one entry appended; the oldest is dropped when it held 16 (R41). DESIGN CHOICE
(notes/assumptions/39.md): an entry whose cycle number an old kept entry still has is appended all the same. -/
def appendEntry (h : List HistEntry) (e : HistEntry) : List HistEntry :=
  if h.length < 16 then h ++ [e] else h.drop (h.length - 15) ++ [e]

/-- The increment of a new entry: the signed wrap difference to the newest entry, or 0 for an empty history (R39). -/
def deltaFrom (h : List HistEntry) (theta : Angle) : Int :=
  match h.getLast? with
  | some e => sdiff theta e.theta
  | none => 0

/-- The entry that a step appends. -/
def Tracker.entry (k : Tracker) (cycle : BitVec 16) (p : HubTime) (angle : FullAngle) (extrapolated late : Bool) :
    HistEntry :=
  { cycle := cycle, p := p, theta := intAngle angle, delta := deltaFrom k.history (intAngle angle),
    extrapolated := extrapolated, late := late }

/-- A step that comes from a cycle frame (R39, steps 1 to 4). -/
def Tracker.frameStep (k : Tracker) (cycle : BitVec 16) (p : HubTime) (late : Bool) (angle : FullAngle) (v : Int)
    (flags : ShaftFlags) : Tracker :=
  { history := appendEntry k.history (k.entry cycle p angle false late), angle := angle, lastV := v,
    lastCycle := cycle, flags := flags }

/-- An extrapolated step (R40): the last V is added to the last full angle. -/
def Tracker.extrapolatedStep (k : Tracker) (p : HubTime) (late : Bool) : Tracker :=
  let angle := k.angle + BitVec.ofInt 36 k.lastV
  let cycle := k.lastCycle + 1
  { k with history := appendEntry k.history (k.entry cycle p angle true late), angle := angle, lastCycle := cycle }

/-- The tracker emptied (R38). -/
def Tracker.emptied (k : Tracker) : Tracker := { k with history := [], angle := 0, lastV := 0, flags := .rest }

/-! ### Interpolation -/

/-- The answers of the interpolation service (R42, R43). -/
inductive Answer where
  | angle (a : Angle)
  | pending
  | unknown
deriving DecidableEq, Repr

/-- The interpolated angle between an entry and the one after it (R42). -/
def interpolateBetween (e next : HistEntry) (t : HubTime) : Angle :=
  e.theta + BitVec.ofInt 24 (roundDiv (next.delta * sdiff t e.p) (sdiff next.p e.p))

/-- Look for the newest entry whose P is not later than `t`, newest first; `next` is the entry after the head. -/
def interpolateFrom (t : HubTime) : Option HistEntry → List HistEntry → Answer
  | _, [] => .unknown
  | next, e :: older =>
    if sdiff e.p t ≤ 0 then
      match next with
      | some n => .angle (interpolateBetween e n t)
      | none => .pending
    else interpolateFrom t (some e) older

/-- The master angle at a hub time (R42, R43). -/
def Tracker.angleAt (k : Tracker) (t : HubTime) : Answer := interpolateFrom t none k.history.reverse

end Sys2Proof.Machine
end

