-- ==== Sys2Proof/Machine/Content.lean ====
section
/-! DEFINITION. What views, exports and the read requests show of the blocks (R162, R44, R58, R84, R112), and what a change
of it does to views and exports at every event (R164, R168). -/

namespace Sys2Proof.Machine

/-- The items of the generator that SHAFT READ and the SHAFT view share, up to Vmax; none at a follower. -/
def State.genItems (s : State) (n : Nat) (v : Generator → Int) : Option (List Byte) :=
  if s.isMaster then val n (v s.su.gen) else none

/-- The content of the SHAFT view (R162). -/
def State.shaftContent (s : State) : List Item :=
  let k := s.su.tracker
  items
    [val 1 (shaftFlagBits k.flags), vbits 5 k.angle, val 4 k.lastV, vbits 2 k.lastCycle,
     s.genItems 4 (·.vt), s.genItems 4 (·.vi), s.genItems 3 (·.a), s.genItems 3 (·.dn), s.genItems 3 (·.de),
     s.genItems 4 (·.vmax), s.genItems 1 (fun g => if g.inching then 1 else 0), s.genItems 4 (fun _ => s.target)]

/-- A drive report as a value. -/
def DriveReport.bytes (r : DriveReport) : List Byte :=
  valuesBytes [vflag r.ready, vflag r.fault, vflag r.following, vbits 3 r.position]

/-- The section flags (R58). DESIGN CHOICE (notes/assumptions/17.md): one byte, AT LIMIT bit 0, CORRECTING bit 1, LATE bit 2,
EXTRAPOLATED bit 3. -/
def Section.flagBits (x : Section) : Nat :=
  (if x.atLimit then 1 else 0) + (if x.correcting then 2 else 0) + (if x.late then 4 else 0)
    + (if x.extrapolated then 8 else 0)

/-- The content of a SECTION view: present values (R162). -/
def Section.content (x : Section) : List Item :=
  items
    [val 1 x.state.code, val 1 x.port.val, val 2 x.n, val 2 x.d, val 3 x.os, val 3 x.tmax, val 3 x.tt, val 2 x.slew,
     val 2 x.nudgeLimit, val 1 x.tol, val 4 x.ct, val 2 x.r, vbits 3 x.position, val 4 x.ca, vbits 2 x.serial,
     val 1 x.posted.length, val 1 x.miss, val 1 x.flagBits, x.report.map DriveReport.bytes,
     x.published.map (fun r => beBytes 2 r.record.cycle.toNat), x.published.map (fun r => flagByte r.picked)]

/-- The code of a loop state, in the order of R75. -/
def LoopState.code : LoopState → Nat
  | .off => 0
  | .seeking => 1
  | .locked => 2
  | .lost => 3

/-- A source as a value. DESIGN CHOICE (notes/assumptions/17.md): a byte 0 for SENSOR or 1 for IMAGE, and a byte for its
number. -/
def Source.bytes : Source → List Byte
  | .sensor i => beBytes 1 0 ++ beBytes 1 i.val
  | .image c => beBytes 1 1 ++ beBytes 1 c.val

/-- The code of a direction. -/
def Direction.code : Direction → Nat
  | .right => 0
  | .left => 1

/-- The items of a loop (R75). DESIGN CHOICE (notes/assumptions/17.md): the five parts of the search spec are five items, as
REGISTER SET names them. -/
def Loop.values (l : Loop) : List (Option (List Byte)) :=
  [vflag l.enable, val 1 l.state.code, some l.source.bytes, val 1 l.search.channel, val 2 l.search.startColumn,
   val 1 l.search.direction.code, val 1 l.search.threshold, val 1 l.search.runLength, vbits 3 l.mexp, val 3 l.window,
   val 2 l.deadband, val 1 l.gain, val 1 l.missLimit, val 4 l.minSpeed, val 1 l.misses, vflag l.markSeen,
   vopt 3 l.lastE, vopt 4 l.lastEs, vopt 4 l.lastC, val 2 l.strays, vopt 3 l.lastStrayE]

/-- The code of a trip state, in the order of section 5.3. -/
def TripState.code : TripState → Nat
  | .normal => 0
  | .capture => 1
  | .stopping => 2
  | .stopped => 3
  | .releasing => 4
  | .lockout => 5

/-- A pair of a cause and its section, as an entry; a cause of the whole hub has no section item. -/
def pairOfCause (c : CausePair) : List Byte :=
  valuesBytes [val 1 c.cause.number, c.slot.map (fun i => beBytes 1 i.val)]

/-- A latched pair with its class, as an entry (R112). -/
def causeEntry (m : Matrix) (c : CausePair) : List Byte :=
  valuesBytes [val 1 c.cause.number, c.slot.map (fun i => beBytes 1 i.val), val 1 (m.get c.cause).code]

/-- The causes of the matrix, in order. -/
def matrixCauses : List Cause :=
  [.tripIn, .webBreak, .ringLost, .driveFault, .driveSilent, .registerLost, .operatorStop, .publicationLate,
   .followingError]

/-- The Trip Unit's state as TRIP READ gives it and the TRIPS view watches it (R112, R162). DESIGN CHOICE
(notes/assumptions/17.md): the matrix is a list of nine classes in the order of their causes, without cause numbers, and a
class that is NOTIFY or none is sent as 0, not left out. -/
def State.tripsContent (s : State) : List Item :=
  let t := s.tu
  items
    [val 1 t.state.code, t.releaseLevel.map (fun c => beBytes 1 c.code), val 1 s.ownClass.code, val 1 t.carried.code,
     val 1 s.effectiveClass.code, vbits 4 t.carriedMask, vlist (t.causes.map (causeEntry t.matrix)),
     vlist (matrixCauses.map (fun c => beBytes 1 (t.matrix.get c).code)), vflag (!t.tripInLow), vflag t.webBrk,
     vflag s.tripOut, vbits 2 t.recordCount,
     vlist (t.records.map (fun r => valuesBytes [vbits 2 r.number, vflag r.capturing])),
     t.current.map (fun n => beBytes 2 n.toNat)]

/-- A stamp as a value: 0 UNKNOWN, 1 KNOWN, 2 PENDING. DESIGN CHOICE (notes/assumptions/17.md): item 1 is the code, item 2 the
angle, item 3 the exposure cycle and item 4 the fire time; so PENDING sends its cycle as item 3 and its fire time as item 4,
and leaves item 2 out. -/
def Stamp.bytes : Stamp → List Byte
  | .unknown => valuesBytes [val 1 0]
  | .known a c => valuesBytes [val 1 1, vbits 3 a, vbits 2 c]
  | .pending t c => valuesBytes [val 1 2, none, vbits 2 c, vbits 4 t]

/-- A scan result of one section, as an entry: 0 with a hit's row and column, 1 NONE, in the order of R115
(notes/assumptions/17.md). -/
def scanResultEntry (i : SlotNo) : ScanResult → List Byte
  | .hit row col => valuesBytes [val 1 i.val, val 1 0, val 1 row, val 2 col]
  | .none => valuesBytes [val 1 i.val, val 1 1]

/-- The scan results that a strip holds, as entries in slot order. -/
def Strip.resultEntries (x : Strip) : List (List Byte) :=
  (List.finRange 16).filterMap (fun i => (x.results.get i).map (scanResultEntry i))

/-- A strip opened at this hub for camera `c`. -/
def Strip.localOf (x : Strip) (c : Fin 4) : Bool :=
  match x.origin with
  | .here _ => decide (x.camera = c)
  | .remote _ _ => false

/-- The newest local strip of a camera on the age list (R162). -/
def State.newestOf (s : State) (c : Fin 4) : Option Strip :=
  (s.is.age.filterMap (fun id => (s.strip id).filter (fun x => x.localOf c))).getLast?

/-- The content of a CAMERA view (R162). -/
def State.cameraContent (s : State) (c : Fin 4) : List Item :=
  match s.newestOf c with
  | none => []
  | some x => items [val 2 x.id, some x.stamp.bytes, vlist x.resultEntries]

/-- The content of a view or export of one kind (R162). -/
def State.content (s : State) : ViewKind → List Item
  | .shaft => s.shaftContent
  | .slot i => (s.slot i).content
  | .register i => items (s.loop i).values
  | .trips => s.tripsContent
  | .camera c => s.cameraContent c

/-- The content of a kind has changed value between two states. -/
def contentChanged (before after : State) (k : ViewKind) : Bool := decide (before.content k ≠ after.content k)

/-- A CLEAN local view whose content changed becomes DIRTY (R164). -/
def View.afterChange (before after : State) (v : View) : View :=
  if v.target = none ∧ v.state = .clean ∧ contentChanged before after v.kind then { v with state := .dirty } else v

/-- A CLEAN export whose content changed becomes DIRTY (R168). -/
def ExportEntry.afterChange (before after : State) (e : ExportEntry) : ExportEntry :=
  if e.state = .clean ∧ contentChanged before after e.kind then { e with state := .dirty } else e

/-- Views and exports after an event that led from `before` to `after` (R164, R168). -/
def markDirty (before after : State) : State :=
  after.onVu (fun u =>
    { u with views := u.views.map (Option.map (View.afterChange before after)),
             exports := u.exports.map (Option.map (ExportEntry.afterChange before after)) })

/-- One of the events of a command that takes several: what it changed makes views and exports DIRTY, though a later event of
the command may change it back (R164, R168, notes/assumptions/55.md). -/
def State.event (s : State) (f : State → State) : State := markDirty s (f s)

/-- The outcome of every command: its effect, and what the change of watched values does to views and exports. -/
def finish (before after : State) : Host.Outcome State Fault Refusal := .next (markDirty before after)

/-- The outcome of a request row: it is judged, checked against the role, handed to its block and answered or left to wait. -/
def finishRequest (s : State) (t : HubTime) (p : PortNo) (g : Tag) (roles : List Role)
    (block : State → State × Reply) : Host.Outcome State Fault Refusal :=
  finish s ((s.advance t).request p g roles block)

end Sys2Proof.Machine
end

