-- ==== Sys2Proof/Machine/RingBase.lean ====
section
/-! DEFINITION. What the other blocks ask of the Ring Controller: places in the control queue (R25), and the census that a
LOST master sends when the press is stopped (R6, R22). -/

namespace Sys2Proof.Machine

/-! ### The control queue -/

/-- The frames that a block keeps for the control queue, oldest first: the reply store (R57), the control store (R147), the
control list (R167). -/
def State.storeOf (s : State) : Block → List OwnFrame
  | .sectionEngine => s.se.replies
  | .imageMover => s.im.store.map (fun e => e.frame)
  | .viewUnit => s.vu.controlList

/-- The oldest frame of a block's store has left it. -/
def State.dropStored (s : State) : Block → State
  | .sectionEngine => s.onSe (fun e => { e with replies := e.replies.tail })
  | .imageMover => s.onIm (fun m => { m with store := m.store.tail })
  | .viewUnit => s.onVu (fun u => { u with controlList := u.controlList.tail })

/-- A frame is taken into the control queue. -/
def State.pushControl (s : State) (f : OwnFrame) : State :=
  s.onRc (fun r => { r with controlQueue := r.controlQueue ++ [f] })

/-- A block that found the control queue full waits, behind those that found it full before (R25). -/
def State.waitControl (s : State) (b : Block) : State :=
  s.onRc (fun r => if r.controlWaiters.contains b then r else { r with controlWaiters := r.controlWaiters ++ [b] })

/-- Offer at most `n` frames of a block's store, oldest first. -/
def offerStored : Nat → Block → State → State
  | 0, _, s => s
  | n + 1, b, s =>
    match s.storeOf b with
    | [] => s
    | f :: _ => if s.rc.controlQueue.length < 8 then offerStored n b ((s.dropStored b).pushControl f) else s.waitControl b

/-- A block offers every frame of its store; it waits when the queue is full (R25). -/
def State.offerControl (s : State) (b : Block) : State := offerStored (s.storeOf b).length b s

/-- A frame has left the control queue: the freed place goes to the block that has waited longest, and a block that still
keeps a frame waits again behind the others (R25, notes/assumptions/21.md). -/
def State.giveControlPlace (s : State) : State :=
  match s.rc.controlWaiters with
  | [] => s
  | b :: rest => (s.onRc (fun r => { r with controlWaiters := rest })).offerControl b

/-! ### The census of the master -/

/-- R6, for each census. Its stamp becomes the hub time of its sending when it starts (notes/assumptions/14.md). DESIGN CHOICE
(notes/assumptions/56.md): it takes the place of one that is due and has not started, whose number is then never sent. DESIGN
CHOICE (notes/assumptions/65.md): it is the outstanding census, and no roster is outstanding, from its making, not from its
sending, so that an own census that returns while it waits is foreign (R8). -/
def State.makeCensus (s : State) : State :=
  let n := s.rc.censusNumber + 1
  s.onRc (fun r =>
    { r with
      censusNumber := n
      outstandingCensus := some (n, s.hubTime)
      outstandingRoster := none
      ringFrameDue := some (.census { number := n, stamp := s.hubTime, count := 0, overflow := false }) })

/-- The re-formation conditions of a LOST master (R22). -/
def State.reformationHolds (s : State) : Bool :=
  s.su.tracker.flags.atRest && (decide (s.tu.state = .stopped) || decide (s.tu.state = .releasing))

/-- At a LOST master: when the conditions come to hold a census goes out at once and the timer runs; while they do not
hold the timer is stopped (R6, R22). DESIGN CHOICE (notes/assumptions/37.md): a census already due and not started is kept
when they cease to hold. -/
def State.checkReformation (s : State) : State :=
  if s.isMaster = true ∧ s.rc.ringState = .lost then
    if s.reformationHolds then
      if s.rc.censusTimer = none then
        s.makeCensus.onRc (fun r => { r with censusTimer := some (later s.hubTime 500000) })
      else s
    else s.onRc (fun r => { r with censusTimer := none })
  else s

end Sys2Proof.Machine
end

