-- ==== Sys2Proof/Machine/MarkSearch.lean ====
section
/-! DEFINITION. The Mark Scanner: its queue, the scan plan, the scan (R150 to R156). What a completed scan hands on is in
Machine/Register.lean. -/

namespace Sys2Proof.Machine

/-- A row angle lies within the window about Mexp (R125, R153). -/
def inWindow (theta : Angle) (pitch row : Nat) (mexp : Angle) (window : Nat) : Bool :=
  decide ((sdiff (theta + BitVec.ofNat 24 (row * pitch)) mexp).natAbs ≤ window)

/-- The rows of the scan plan, in increasing order (R153). -/
def selectedRows (theta : Angle) (pitch rows : Nat) (mexp : Angle) (window : Nat) : List Nat :=
  (List.range rows).filter (fun r => inWindow theta pitch r mexp window)

/-- The columns taken in one row, in the order of the scan (R155). -/
def scanColumns (d : Direction) (start width : Nat) : List Nat :=
  match d with
  | .right => (List.range (width - start)).map (fun i => start + i)
  | .left => (List.range (start + 1)).reverse

/-- The value of pixel (row, column) of a strip (R154). -/
def pixelValue (m : Memory) (x : Strip) (channel row column : Nat) : Nat :=
  let bpp := Mode.bytesPerPixel x.mode
  let off := row * (x.width * bpp) + column * bpp + (match x.mode with | .grey => 0 | .cmyk => channel)
  (tileByte m x.tiles off).toNat

/-- One row of the scan: the column of the first pixel of the run, if the run was found, and the pixels taken. `run` is the
count so far and `first` the column at which it last left 0. -/
def scanRow (hit : Nat → Bool) (need : Nat) : Nat → Nat → List Nat → Option Nat × Nat
  | _, _, [] => (none, 0)
  | run, first, c :: cs =>
    if hit c then
      let f := if run = 0 then c else first
      if need ≤ run + 1 then (some f, 1)
      else
        let r := scanRow hit need (run + 1) f cs
        (r.1, r.2 + 1)
    else
      let r := scanRow hit need 0 c cs
      (r.1, r.2 + 1)

/-- The scan over the selected rows: its result and the pixels taken (R155, R156). -/
def scanRows (hit : Nat → Nat → Bool) (need : Nat) (columns : List Nat) : List Nat → ScanResult × Nat
  | [] => (.none, 0)
  | r :: rs =>
    match scanRow (hit r) need 0 0 columns with
    | (some c, taken) => (.hit r c, taken)
    | (none, taken) =>
      let rest := scanRows hit need columns rs
      (rest.1, rest.2 + taken)

/-- The scan of a strip by a plan. -/
def runScan (m : Memory) (x : Strip) (rows : List Nat) (start : Nat) (spec : SearchSpec) : ScanResult × Nat :=
  scanRows (fun r c => decide (spec.threshold ≤ pixelValue m x spec.channel r c)) spec.runLength
    (scanColumns spec.direction start x.width) rows

/-- The scan plan of a job, fixed at its take-up, with its completion time; none when no row is selected (R152 to R156). -/
def State.planFor (s : State) (j : Job) : Option Scan :=
  match s.strip j.strip with
  | some x =>
    match x.stamp with
    | .known theta _ =>
      let l := s.loop j.slot
      let pitch := (s.camera x.camera).pitch
      let rows := selectedRows theta pitch x.rows l.mexp l.window
      let start := min l.search.startColumn (x.width - 1)
      if rows.isEmpty then none
      else
        let taken := (runScan s.is.mem x rows start l.search).2
        some { job := j, camera := x.camera, mode := x.mode, width := x.width, theta := theta, pitch := pitch,
               rows := rows, startColumn := start, search := l.search,
               completeAt := later s.hubTime (16 + ceilDiv taken 4) }
    | _ => none
  | none => none

/-- Take up the first job of a queue whose plan holds a row; the void ones before it are counted (R152). -/
def takeUpFrom : List Job → State → State
  | [], s => s.onMs (fun m => { m with queue := [] })
  | j :: rest, s =>
    match s.planFor j with
    | some p =>
      (s.onMs (fun m => { m with queue := rest, scan := some p })).onStrip j.strip (fun x => { x with scanning := true })
    | none => takeUpFrom rest (s.onMs (fun m => { m with void := satInc m.void }))

/-- The Mark Scanner looks for a job to take up (R152). -/
def State.takeUp (s : State) : State := if s.ms.scan.isSome then s else takeUpFrom s.ms.queue s

/-- A job is offered to the search queue (R151). -/
def State.offerJob (s : State) (j : Job) : State :=
  if s.ms.queue.contains j || decide (s.ms.scan.map (fun p => p.job) = some j) then s
  else if s.ms.queue.length < 16 then (s.onMs (fun m => { m with queue := m.queue ++ [j] })).takeUp
  else s.onMs (fun m => { m with skipped := satInc m.skipped })

/-- The queued jobs that name a strip that left the directory are removed and counted (R151). -/
def MS.removeJobs (m : MS) (id : Nat) : MS :=
  { m with
    queue := m.queue.filter (fun j => j.strip != id)
    removed := min 65535 (m.removed + (m.queue.filter (fun j => j.strip == id)).length) }

/-- The loop's window holds a row of the strip, and its source is IMAGE with the strip's camera (R125). -/
def State.loopMatches (s : State) (x : Strip) (theta : Angle) (i : SlotNo) : Bool :=
  let l := s.loop i
  decide (l.source = .image x.camera)
    && !(selectedRows theta (s.camera x.camera).pitch x.rows l.mexp l.window).isEmpty

/-- A local COMPLETE strip with a KNOWN stamp becomes ready for search (R125). -/
def State.readyForSearch (s : State) (id : Nat) : State :=
  match s.strip id with
  | some x =>
    match x.origin, x.complete, x.stamp with
    | .here _, true, .known theta _ =>
      ((List.finRange 16).filter (fun i => s.loopMatches x theta i)).foldl (fun s i => s.offerJob ⟨id, i⟩) s
    | _, _, _ => s
  | none => s

end Sys2Proof.Machine
end

