-- ==== Sys2Proof/Machine/ImageStore.lean ====
section
/-! DEFINITION. The Image Store: tiles, strips, reclamation, the start of a freeze walk and the removal of a freeze, and the
requests to strips (R113 to R116, R120 to R132). Cameras and stamps are in Machine/Cameras.lean. -/

namespace Sys2Proof.Machine

/-! ### Ids, tiles and the directory -/

/-- The value of the id count after `c`: 65,535 passes to 1 (R114). -/
def nextId (c : Nat) : Nat := if 65535 ≤ c then 1 else c + 1

/-- The first id after `c` that names no strip, tried at most `n + 1` times; 256 strips cannot use more (R114). -/
def freshId (ids : List Nat) : Nat → Nat → Nat
  | 0, c => nextId c
  | n + 1, c => if ids.contains (nextId c) then freshId ids n (nextId c) else nextId c

/-- The id of a new strip (R114). -/
def State.newId (s : State) : Nat := freshId (s.is.strips.map (fun x => x.id)) 256 s.is.idCount

/-- The tiles that a byte size needs (R115). -/
def tilesFor (byteSize : Nat) : Nat := ceilDiv byteSize 2048

/-- A strip that leaves the directory is no longer a candidate, whatever strip takes its id later (R130, R131). -/
def Walk.lose (w : Walk) (id : Nat) : Walk :=
  { w with candidates := w.candidates.map (fun c => if c = some id then none else c) }

/-- A strip leaves the directory and the age list, its tiles return to the tail of the free list, a freeze walk loses it, and
the jobs that name it are removed (R113, R114, R131, R151). -/
def State.removeStrip (s : State) (id : Nat) : State :=
  let tiles := match s.strip id with
    | some x => x.tiles
    | none => []
  (s.onIs (fun st =>
    { st with
      strips := st.strips.filter (fun x => x.id != id)
      age := st.age.filter (fun a => a != id)
      free := st.free ++ tiles
      walk := st.walk.map (fun w => w.lose id) })).onMs (fun m => m.removeJobs id)

/-- A strip joins the directory, with its tiles taken from the head of the free list (R113, R114). -/
def State.addStrip (s : State) (x : Strip) (taken : Nat) : State :=
  s.onIs (fun st => { st with strips := st.strips ++ [x], idCount := x.id, free := st.free.drop taken })

/-- A strip becomes COMPLETE and joins the tail of the age list (R116). -/
def State.completeStrip (s : State) (id : Nat) : State :=
  (s.onStrip id (fun x => { x with complete := true })).onIs (fun st => { st with age := st.age ++ [id] })

/-! ### Reclamation (R121) -/

/-- The strips that may be reclaimed, oldest first. -/
def State.mayReclaim (s : State) : List Strip :=
  s.is.age.filterMap (fun id => (s.strip id).filter (fun x => x.complete && !x.pinned))

/-- Strips are reclaimed, in order, until the free list holds `n` tiles. -/
def reclaimList (n : Nat) : List Strip → State → State
  | [], s => s
  | x :: rest, s => if n ≤ s.is.free.length then s else reclaimList n rest (s.removeStrip x.id)

/-- `n` tiles can be had: the state in which the free list holds them, or none. -/
def State.room (s : State) (n : Nat) : Option State :=
  if n ≤ s.is.free.length then some s
  else if s.tu.state = .capture then none
  else if s.is.free.length + (s.mayReclaim.map (fun x => x.tiles.length)).sum < n then none
  else some (reclaimList n s.mayReclaim s)

/-! ### Freezing (R130, R132) -/

/-- Insert into a list that rises by a key, before the entries of the same key. -/
def insertByKey {α : Type} (key : α → Nat) (x : α) : List α → List α
  | [] => [x]
  | y :: r => if key x ≤ key y then x :: y :: r else y :: insertByKey key x r

/-- Sort by a key; entries of one key keep their order. -/
def sortByKey {α : Type} (key : α → Nat) (l : List α) : List α := l.foldr (insertByKey key) []

/-- The exposure cycle of a strip (R115). -/
def Stamp.exposure : Stamp → Option (BitVec 16)
  | .pending _ c => some c
  | .known _ c => some c
  | .unknown => none

/-- The difference of the trip cycle and a strip's exposure cycle, when it makes the strip a candidate (R130). -/
def Strip.freezeAge (x : Strip) (trip : BitVec 16) (span : Nat) : Option Nat :=
  match x.stamp.exposure with
  | some e => if 0 ≤ sdiff trip e ∧ sdiff trip e < span ∧ x.receiving = false then some (sdiff trip e).toNat else none
  | none => none

/-- The candidates of a walk: smallest difference first, latest created first among equals (R130). -/
def State.freezeCandidates (s : State) (trip : BitVec 16) : List Nat :=
  (sortByKey (fun p : Nat × Nat => p.1)
    (s.is.strips.reverse.filterMap (fun x => (x.freezeAge trip s.is.span).map (fun d => (d, x.id))))).map (fun p => p.2)

/-- A freeze walk begins for a record (R130). -/
def State.startWalk (s : State) (record trip : BitVec 16) : State :=
  s.onIs (fun st => { st with walk := some { record := record, candidates := (s.freezeCandidates trip).map some, frozen := [] } })

/-- A record leaves the record store: its number leaves the freeze set of each strip in its frozen list (R132). The number that
another record of the same number gave stays (R108, notes/assumptions/44.md). -/
def State.unfreeze (s : State) (record : BitVec 16) (frozen : List Nat) : State :=
  s.onIs (fun st =>
    { st with strips := st.strips.map (fun x =>
        if frozen.contains x.id then { x with freezeSet := x.freezeSet.erase record } else x) })

/-- One candidate that is still in the directory is examined (R131). No candidate is RECEIVING (R130). -/
def State.examine (s : State) (w : Walk) (id : Nat) : State :=
  match s.strip id with
  | none => s
  | some x =>
    if x.receiving = true ∨ (x.freezeSet.isEmpty = true ∧ 256 < s.frozenTiles + x.tiles.length) then s
    else
      (s.onStrip id (fun y => { y with freezeSet := y.freezeSet ++ [w.record] })).onIs (fun st =>
        { st with walk := st.walk.map (fun w => { w with frozen := w.frozen ++ [id] }) })

/-- The event FREEZE_WALK_EXAMINATION: the next candidate, while the walk has one and its list holds fewer than 16 ids. -/
def State.walkExamination (s : State) : State :=
  match s.is.walk with
  | some w =>
    match w.candidates with
    | c :: rest =>
      if w.frozen.length < 16 then
        let s1 := s.onIs (fun st => { st with walk := some { w with candidates := rest } })
        match c with
        | some id => s1.examine w id
        | none => s1
      else s
    | [] => s
  | none => s

/-! ### STRIP OPEN, STRIP DATA (R120, R122) -/

/-- The stamp of a trigger: that of the camera's log entry with its number, else UNKNOWN (R120). -/
def Camera.stampOf (c : Camera) (trigger : Nat) : Stamp :=
  match c.log.find? (fun e => e.number.toNat == trigger) with
  | some e => e.stamp
  | none => .unknown

/-- A strip as it is created: FILLING, fill level 0, no scan result, pinned only where it is received (R116, R120, R129). -/
def newStrip (id : Nat) (origin : Origin) (camera : Fin 4) (mode : Mode) (width rows byteSize : Nat) (tiles : List Nat)
    (stamp : Stamp) (receiving : Bool) : Strip :=
  { id := id, origin := origin, camera := camera, mode := mode, width := width, rows := rows, byteSize := byteSize,
    tiles := tiles, fill := 0, complete := false, stamp := stamp, sending := [], receiving := receiving,
    scanning := false, freezeSet := [], holds := .const 4 0, results := .const 16 none }

/-- STRIP OPEN (R120). -/
def reqStripOpen (p : PortNo) (camera trigger width rows : Option Nat) (s : State) : State × Reply :=
  match argFin 4 camera, trigger, width, rows with
  | some c, some trig, some w, some h =>
    let cam := s.camera c
    let size := w * Mode.bytesPerPixel cam.mode * h
    if w < 1 ∨ 4096 < w ∨ h < 1 ∨ 64 < h ∨ 524288 < size then (s, status .badArgument)
    else if 256 ≤ s.is.strips.length then (s, status .full)
    else
      match s.room (tilesFor size) with
      | none => (s, status .noRoom)
      | some s1 =>
        let stamp := cam.stampOf trig
        let x := newStrip s1.newId (.here p) c cam.mode w h size (s1.is.free.take (tilesFor size)) stamp false
        (s1.addStrip x (tilesFor size), some (.done, valuesBytes [val 2 x.id, some stamp.bytes]))
  | _, _, _, _ => (s, status .badArgument)

/-- A strip was opened here by a port. -/
def Strip.ownedBy (x : Strip) (p : PortNo) : Bool :=
  match x.origin with
  | .here q => decide (q = p)
  | .remote _ _ => false

/-- STRIP DATA (R122). -/
def reqStripData (p : PortNo) (strip offset : Option Nat) (bytes : List Byte) (s : State) : State × Reply :=
  match strip, offset with
  | some id, some off =>
    if bytes.length < 1 ∨ 1024 < bytes.length then (s, status .badArgument)
    else
      match s.strip id with
      | none => (s, status .gone)
      | some x =>
        if ¬ x.ownedBy p then (s, status .notYours)
        else if x.complete then (s, status .badState)
        else if off ≠ x.fill then (s, status .outOfOrder)
        else if x.byteSize < off + bytes.length then (s, status .badArgument)
        else
          ((s.onIs (fun st => { st with mem := tileStore st.mem x.tiles off bytes })).onStrip id
            (fun y => { y with fill := y.fill + bytes.length }), status .done)
  | _, _ => (s, status .badArgument)

/-! ### STRIP CLOSE (R123 to R125) -/

/-- The whole rows of a strip (R123). -/
def Strip.wholeRows (x : Strip) : Nat := min x.rows (x.fill / (x.width * Mode.bytesPerPixel x.mode))

/-- The hubs that a closed strip is sent to: those of the mask below the hub count, without the hub itself, in increasing
order (R124). -/
def State.destinations (s : State) (mask : BitVec 32) : List Nat :=
  (List.range 32).filter (fun h => mask.getLsbD h && !s.ownAddress h && s.knownHub h)

/-- Offer transfers of a strip to the send queue in turn, stopping at the first that finds it full (R124, R134). -/
def offerTransfers (id : Nat) : List Nat → State → State
  | [], s => s
  | h :: rest, s =>
    if s.im.sendQueue.contains (id, h) || decide (s.im.transfer.map (fun k => (k.strip, k.dst)) = some (id, h)) then
      offerTransfers id rest s
    else if s.im.sendQueue.length < 32 then
      offerTransfers id rest ((s.onIm (fun m => { m with sendQueue := m.sendQueue ++ [(id, h)] })).onStrip id
        (fun x => { x with sending := x.sending ++ [h] }))
    else s.notify .imageDropped

/-- The transfers of a strip kept at its close (R124). -/
def State.offerClosed (s : State) (id : Nat) (camera : Fin 4) : State :=
  let mask := (s.camera camera).mask
  if s.running then offerTransfers id (s.destinations mask) s
  else if (List.range 32).any (fun h => mask.getLsbD h && !s.ownAddress h) then s.notify .imageDropped
  else s

/-- A strip is cut to `rows` whole rows: its tiles beyond the new size return to the free list (R123). -/
def State.truncateStrip (s : State) (x : Strip) (rows : Nat) : State :=
  let size := rows * (x.width * Mode.bytesPerPixel x.mode)
  (s.onStrip x.id (fun y =>
    { y with rows := rows, byteSize := size, fill := size, tiles := y.tiles.take (tilesFor size) })).onIs
    (fun st => { st with free := st.free ++ x.tiles.drop (tilesFor size) })

/-- STRIP CLOSE (R123). -/
def reqStripClose (p : PortNo) (strip : Option Nat) (s : State) : State × Reply :=
  match strip with
  | none => (s, status .badArgument)
  | some id =>
    match s.strip id with
    | none => (s, status .gone)
    | some x =>
      if ¬ x.ownedBy p then (s, status .notYours)
      else if x.complete then (s, status .badState)
      else
        let rows := x.wholeRows
        if rows = 0 then (s.removeStrip id, some (.done, valuesBytes [val 1 0]))
        else
          let s1 := if rows < x.rows then s.truncateStrip x rows else s
          (((s1.completeStrip id).offerClosed id x.camera).readyForSearch id, some (.done, valuesBytes [val 1 rows]))

/-! ### STRIP DISCARD, HOLD, UNHOLD, READ, LIST (R126 to R128) -/

/-- STRIP DISCARD (R126). -/
def reqStripDiscard (p : PortNo) (strip : Option Nat) (s : State) : State × Reply :=
  match strip with
  | none => (s, status .badArgument)
  | some id =>
    match s.strip id with
    | none => (s, status .gone)
    | some x =>
      if (¬ x.complete ∧ ¬ x.ownedBy p) ∨ x.receiving then (s, status .notYours)
      else if x.pinned then (s, status .busy)
      else (s.removeStrip id, status .done)

/-- The holds that a port has, over every strip (R127). -/
def State.holdsOf (s : State) (p : PortNo) : Nat := (s.is.strips.map (fun x => x.holds.get p)).sum

/-- STRIP HOLD (R127). -/
def reqStripHold (p : PortNo) (strip : Option Nat) (s : State) : State × Reply :=
  match strip with
  | none => (s, status .badArgument)
  | some id =>
    match s.strip id with
    | none => (s, status .gone)
    | some x =>
      if ¬ x.complete then (s, status .badState)
      else if 4 ≤ s.holdsOf p then (s, status .full)
      else (s.onStrip id (fun y => { y with holds := y.holds.modify p (fun n => n + 1) }), status .done)

/-- STRIP UNHOLD (R127). -/
def reqStripUnhold (p : PortNo) (strip : Option Nat) (s : State) : State × Reply :=
  match strip with
  | none => (s, status .badArgument)
  | some id =>
    match s.strip id with
    | none => (s, status .gone)
    | some x =>
      if x.holds.get p = 0 then (s, status .badState)
      else (s.onStrip id (fun y => { y with holds := y.holds.modify p (fun n => n - 1) }), status .done)

/-- STRIP READ (R128). Its payload is the bytes read (section 11.4). -/
def reqStripRead (strip offset count : Option Nat) (s : State) : State × Reply :=
  match strip, offset, count with
  | some id, some off, some n =>
    match s.strip id with
    | none => (s, status .gone)
    | some x =>
      if x.receiving then (s, status .badState)
      else if n < 1 ∨ 1024 < n ∨ x.fill < off + n then (s, status .badArgument)
      else (s, some (.done, tileBytes s.is.mem x.tiles off n))
  | _, _, _ => (s, status .badArgument)

/-- An origin as a value: LOCAL with its port, REMOTE with its hub and strip. -/
def Origin.bytes : Origin → List Byte
  | .here p => valuesBytes [val 1 0, val 1 p.val]
  | .remote h i => valuesBytes [val 1 1, val 1 h, val 2 i]

/-- The place of a strip on the age list. DESIGN CHOICE (notes/assumptions/17.md): that of the oldest is 0. -/
def State.agePosition (s : State) (id : Nat) : Option Nat := s.is.age.findIdx? (fun a => a == id)

/-- The destinations of a strip's SENDING pins, as a set of hubs: bit n stands for hub n (R128, section 11.2). -/
def Strip.sendingMask (x : Strip) : BitVec 32 := x.sending.foldl (fun m h => m ||| hubBit h) 0

/-- The pins of a strip, in the order of R116. DESIGN CHOICE (notes/assumptions/17.md): five items, the mask of SENDING
destinations, the two flags RECEIVING and SCANNING, the freeze set and the list of hold counts. -/
def Strip.pinValues (x : Strip) : List (Option (List Byte)) :=
  [vbits 4 x.sendingMask, vflag x.receiving, vflag x.scanning,
   vlist (x.freezeSet.map (fun n => beBytes 2 n.toNat)), vlist (x.holds.list.map (fun n => beBytes 1 n))]

/-- One strip of a STRIP LIST, as an entry (R128). -/
def State.stripEntry (s : State) (x : Strip) : List Byte :=
  valuesBytes
    ([val 2 x.id, some x.origin.bytes, val 1 x.camera.val, val 1 (match x.mode with | .grey => 0 | .cmyk => 1),
      val 2 x.width, val 1 x.rows, val 3 x.byteSize, val 3 x.fill, vflag x.complete, some x.stamp.bytes,
      voptNat 1 (s.agePosition x.id)] ++ x.pinValues)

/-- STRIP LIST (R128). -/
def reqStripList (start : Option Nat) (s : State) : State × Reply :=
  match argFin 256 start with
  | none => (s, status .badArgument)
  | some k =>
    (s, some (.done,
      valuesBytes
        [val 2 s.is.strips.length, val 2 s.is.free.length, val 2 s.frozenTiles, vflag (decide (s.tu.state = .capture)),
         val 1 s.is.span, vlist (((s.is.strips.drop k.val).take 16).map s.stripEntry)]))

/-- FREEZE SPAN SET (R130). -/
def reqFreezeSpanSet (span : Option Nat) (s : State) : State × Reply :=
  match span with
  | none => (s, status .badArgument)
  | some v =>
    let c := clampNat 1 255 v
    (s.onIs (fun st => { st with span := c }), status (if c ≠ v then .clamped else .done))

/-! ### Receptions (R129) -/

/-- Room for a reception: the state with the tiles taken and the strip created, the strip's id and the reservation, or
none where room cannot be had. -/
def State.reserve (s : State) (src : Nat) (f : BeginFields) (camera : Fin 4) (mode : Mode) :
    Option (State × Nat × List Nat) :=
  if 256 ≤ s.is.strips.length then none
  else
    match s.room (tilesFor f.byteSize) with
    | none => none
    | some s1 =>
      let stamp := match f.stamp with
        | .known a c => Stamp.known a c
        | .unknown => Stamp.unknown
      let x := newStrip s1.newId (.remote src f.strip) camera mode f.width f.rows f.byteSize [] stamp true
      some (s1.addStrip x (tilesFor f.byteSize), x.id, s1.is.free.take (tilesFor f.byteSize))

/-- A reception is abandoned: its reservation returns to the free list and its strip leaves the directory. -/
def State.abandonStrip (s : State) (id : Nat) (reservation : List Nat) : State :=
  (s.onIs (fun st => { st with free := st.free ++ reservation })).removeStrip id

/-- A reception is complete: the reservation becomes the strip's tile list (R129, R145). -/
def State.fillStrip (s : State) (id : Nat) (reservation : List Nat) : State :=
  (s.onStrip id (fun x => { x with tiles := reservation, fill := x.byteSize, receiving := false })).completeStrip id

/-! ### The commands -/

/-- FREEZE_WALK_EXAMINATION. -/
def execFreezeWalkExamination (t : HubTime) (s : State) : Host.Outcome State Fault Refusal :=
  finish s (s.advance t).walkExamination

/-- STRIP_OPEN. -/
def execStripOpen (t : HubTime) (p : PortNo) (g : Tag) (camera trigger width rows : Option Nat) (s : State) :
    Host.Outcome State Fault Refusal :=
  finishRequest s t p g visionOnly (reqStripOpen p camera trigger width rows)

/-- STRIP_DATA. -/
def execStripData (t : HubTime) (p : PortNo) (g : Tag) (strip offset : Option Nat) (bytes : List Byte) (s : State) :
    Host.Outcome State Fault Refusal :=
  finishRequest s t p g visionOnly (reqStripData p strip offset bytes)

/-- STRIP_CLOSE. -/
def execStripClose (t : HubTime) (p : PortNo) (g : Tag) (strip : Option Nat) (s : State) :
    Host.Outcome State Fault Refusal :=
  finishRequest s t p g visionOnly (reqStripClose p strip)

/-- STRIP_DISCARD. -/
def execStripDiscard (t : HubTime) (p : PortNo) (g : Tag) (strip : Option Nat) (s : State) :
    Host.Outcome State Fault Refusal :=
  finishRequest s t p g visionOnly (reqStripDiscard p strip)

/-- STRIP_HOLD. -/
def execStripHold (t : HubTime) (p : PortNo) (g : Tag) (strip : Option Nat) (s : State) :
    Host.Outcome State Fault Refusal :=
  finishRequest s t p g deskPanel (reqStripHold p strip)

/-- STRIP_UNHOLD. -/
def execStripUnhold (t : HubTime) (p : PortNo) (g : Tag) (strip : Option Nat) (s : State) :
    Host.Outcome State Fault Refusal :=
  finishRequest s t p g deskPanel (reqStripUnhold p strip)

/-- STRIP_READ. -/
def execStripRead (t : HubTime) (p : PortNo) (g : Tag) (strip offset count : Option Nat) (s : State) :
    Host.Outcome State Fault Refusal :=
  finishRequest s t p g deskPanel (reqStripRead strip offset count)

/-- STRIP_LIST. -/
def execStripList (t : HubTime) (p : PortNo) (g : Tag) (start : Option Nat) (s : State) :
    Host.Outcome State Fault Refusal :=
  finishRequest s t p g anyRole (reqStripList start)

/-- FREEZE_SPAN_SET. -/
def execFreezeSpanSet (t : HubTime) (p : PortNo) (g : Tag) (span : Option Nat) (s : State) :
    Host.Outcome State Fault Refusal :=
  finishRequest s t p g deskOnly (reqFreezeSpanSet span)

end Sys2Proof.Machine
end

