-- ==== Sys2Proof/Config.lean ====
section
/-! DEFINITION. What the spec leaves to the part and gives no value for: free values. -/

namespace Sys2Proof

/-- The 32-bit CRC that closes every ring frame. R1 says that it is computed over all the bytes before it and gives no
polynomial, so it is a free value: nothing in the model can evaluate it (notes/assumptions/5.md). -/
opaque Config.crc32 : List Byte → BitVec 32

/-- The serial that an EDIT REPLY carries when the EDIT names no slot of the section table. R57 defines the serial from
the section, and there is none, so it is a free value (notes/assumptions/32.md). -/
opaque Config.absentSlotSerial : Nat → BitVec 16

end Sys2Proof
end

