-- ==== Sys2Proof/Machine/Sections.lean ====
section
/-! DEFINITION. The Section Engine between cycle steps: posted changes, fences, the orders of the Trip Unit, and the
requests to sections (R46, R48, R53 to R62). The cycle step is in Machine/Setpoints.lean. -/

namespace Sys2Proof.Machine

/-! ### Posted changes -/

/-- A value stored into Tt is clamped to ±Tmax, and AT LIMIT says whether the clamp acted (R45, R48, R49). -/
def Section.storeTt (x : Section) (v : Int) : Section :=
  let c := clampInt (-(x.tmax : Int)) x.tmax v
  { x with tt := c, atLimit := decide (c ≠ v) }

/-- Every field that a group names takes its value; naming N or D returns R to 0 (R48, 1 and 2). -/
def Section.setFields (x : Section) (f : FieldSet) : Section :=
  { x with
    port := f.port.getD x.port
    n := f.n.getD x.n
    d := f.d.getD x.d
    os := f.os.getD x.os
    tmax := f.tmax.getD x.tmax
    tt := f.tt.getD x.tt
    slew := f.slew.getD x.slew
    nudgeLimit := f.nudgeLimit.getD x.nudgeLimit
    tol := f.tol.getD x.tol
    r := if f.n.isSome || f.d.isSome then 0 else x.r }

/-- A VACANT slot becomes IDLE at the first change applied (R46). -/
def Section.leaveVacant (x : Section) : Section :=
  if x.state = .vacant then { x with state := .idle, position := 0, r := 0, ca := 0 } else x

/-- What a change does to the fields of a section (R48, 1 to 4). -/
def Section.applyBody (x : Section) : ChangeBody → Section
  | .nudge a => x.storeTt (x.tt + a)
  | .set f =>
    let y := x.setFields f
    if f.tt.isSome || f.tmax.isSome then y.storeTt y.tt else y

/-- One posted change applied (R46, R48). -/
def Section.applyChange (x : Section) (c : Change) : Section :=
  let y := x.leaveVacant.applyBody c.body
  { y with serial := y.serial + 1 }

/-- The section as it will stand when every change on its list has been applied in order: its latest values (section
3.3). -/
def Section.latest (x : Section) : Section := x.posted.foldl Section.applyChange x

/-- A change joins the end of a posted change list. -/
def Section.post (x : Section) (c : Change) : Section := { x with posted := x.posted ++ [c] }

/-! ### Discards and fences -/

/-- The posted change lists and correction sums of some slots are discarded, and each waiting FENCE that noted a change
there is answered DISCARDED (R60, R61). DESIGN CHOICE (notes/assumptions/49.md): in the order in which the fences were taken. -/
def State.discardSlots (s : State) (p : SlotNo → Bool) : State :=
  let hit := s.se.fences.filter (fun f => f.slots.any p)
  let s1 := s.onSe (fun e =>
    { e with
      slots := e.slots.mapIdx (fun i x => if p i then { x with posted := [], corrSum := 0, corrHeld := false } else x)
      fences := e.fences.filter (fun f => !f.slots.any p) })
  hit.foldl (fun s f => s.respond f.port f.tag .discarded []) s1

/-- The changes of one slot have been applied: fences that noted them note them no more, and those with none left are
answered DONE (R59). DESIGN CHOICE (notes/assumptions/49.md): in the order in which they were taken. -/
def State.resolveApplied (s : State) (i : SlotNo) : State :=
  let fences := s.se.fences.map (fun f => { f with slots := f.slots.filter (fun j => j != i) })
  let s1 := s.onSe (fun e => { e with fences := fences.filter (fun f => !f.slots.isEmpty) })
  (fences.filter (fun f => f.slots.isEmpty)).foldl (fun s f => s.respond f.port f.tag .done []) s1

/-! ### The orders of the Trip Unit (R61) -/

/-- Some sections change state, and lose their posted changes and correction sum. -/
def State.orderSections (s : State) (p : SlotNo → Bool) (st : SectionState) : State :=
  (s.discardSlots p).onSe (fun e =>
    { e with slots := e.slots.mapIdx (fun i x => if p i then { x with state := st } else x) })

/-- Ordered HELD: every COUPLED or IDLE section. -/
def State.orderHeld (s : State) : State :=
  s.orderSections (fun i => decide ((s.slot i).state = .coupled) || decide ((s.slot i).state = .idle)) .held

/-- Ordered RELEASED: every section that is not VACANT; one already RELEASED is kept. -/
def State.orderReleased (s : State) : State :=
  s.orderSections (fun i => decide ((s.slot i).state ≠ .vacant) && decide ((s.slot i).state ≠ .released)) .released

/-- A section at the release of a trip. -/
def Section.releaseFromTrip (x : Section) : Section :=
  match x.state with
  | .held => { x with state := .idle }
  | .released =>
    match x.report with
    | some r => { x with state := .idle, position := r.position }
    | none => { x with state := .idle }
  | .vacant | .idle | .coupled => x

/-- Ordered released from the trip: every HELD or RELEASED section becomes IDLE. -/
def State.orderReleasedFromTrip (s : State) : State :=
  s.onSe (fun e => { e with slots := e.slots.map Section.releaseFromTrip })

/-- What the Section Engine does at an entry to LOST or CONFLICT (R60). DESIGN CHOICE (notes/assumptions/49.md): the fences
are answered before the waiting requests, each in the order taken. -/
def State.sectionRingLoss (s : State) : State :=
  let waiting := s.se.waiting
  let s1 := (s.discardSlots (fun _ => true)).onSe (fun e => { e with waiting := [], replies := [] })
  waiting.foldl (fun s w => s.respond w.port w.tag .notRunning []) s1

/-! ### SECTION SET (R53 to R55) -/

/-- An optional value clamped to a range, and whether it was clamped. -/
def clampArg (lo hi : Int) (v : Option Int) : Option Int × Bool :=
  match v with
  | some x => (some (clampInt lo hi x), decide (clampInt lo hi x ≠ x))
  | none => (none, false)

/-- The value that the pairs give to a field. -/
def pairValue (pairs : List (Nat × Int)) (k : Nat) : Option Int := (pairs.find? (fun p => p.1 == k)).map (fun p => p.2)

/-- No key is named twice. -/
def keysDistinct {β : Type} : List (Nat × β) → Bool
  | [] => true
  | p :: r => r.all (fun q => q.1 != p.1) && keysDistinct r

/-- The drive port value names a port whose role is DRIVE (R54). -/
def State.drivePortOk (s : State) (v : Option Int) : Bool :=
  match v with
  | none => true
  | some x => decide (0 ≤ x) &&
    (match toFin 4 x.toNat with
     | some p => decide ((s.port p).role = .drive)
     | none => false)

/-- N and D as they will stand are a gear ratio the rule allows, when the pairs name either (R54). -/
def gearOk (latest : Section) (n d : Option Int) : Bool :=
  (n.isNone && d.isNone)
    || (let n1 := n.getD latest.n
        let d1 := d.getD latest.d
        decide (1 ≤ n1) && decide (n1 ≤ 65535) && decide (1 ≤ d1) && decide (d1 ≤ 65535) && decide (n1 ≤ 4 * d1))

/-- The checks of R54 against the latest values: the group to post and whether a value was clamped, or none where a value
is refused. -/
def State.checkFields (s : State) (latest : Section) (pairs : List (Nat × Int)) : Option (FieldSet × Bool) :=
  let v := pairValue pairs
  if s.drivePortOk (v 1) && gearOk latest (v 2) (v 3) then
    let os := clampArg (-8388608) 8388607 (v 4)
    let tmax := clampArg 0 1048575 (v 5)
    let limit : Int := tmax.1.getD latest.tmax
    let tt := clampArg (-limit) limit (v 6)
    let slew := clampArg 0 65535 (v 7)
    let nudge := clampArg 0 65535 (v 8)
    let tol := clampArg 0 7 (v 9)
    some ({ port := (v 1).bind (fun x => toFin 4 x.toNat), n := (v 2).map Int.toNat, d := (v 3).map Int.toNat,
            os := os.1, tmax := tmax.1.map Int.toNat, tt := tt.1, slew := slew.1.map Int.toNat,
            nudgeLimit := nudge.1.map Int.toNat, tol := tol.1.map Int.toNat },
          os.2 || tmax.2 || tt.2 || slew.2 || nudge.2 || tol.2)
  else none

/-- The expected serial is the serial that the section will have when the list has been applied (R55). -/
def Section.serialFits (x : Section) (expected : Option Nat) : Bool :=
  match expected with
  | none => true
  | some e => decide (BitVec.ofNat 16 e = x.serial + BitVec.ofNat 16 x.posted.length)

/-- SECTION SET (R53). -/
def reqSectionSet (p : PortNo) (slot expected : Option Nat) (pairs : List (Nat × Int)) (s : State) : State × Reply :=
  match argFin 16 slot with
  | none => (s, status .badArgument)
  | some i =>
    let x := s.slot i
    if pairs.length = 0 ∨ 8 < pairs.length ∨ pairs.any (fun q => decide (q.1 = 0 ∨ 9 < q.1)) ∨ ¬ keysDistinct pairs then
      (s, status .badArgument)
    else if s.rc.ringState = .conflict then (s, status .notRunning)
    else if x.state = .vacant ∧ x.posted = [] ∧
        ((pairValue pairs 1).isNone ∨ (pairValue pairs 2).isNone ∨ (pairValue pairs 3).isNone) then
      (s, status .badArgument)
    else
      match s.checkFields x.latest pairs with
      | none => (s, status .badArgument)
      | some (f, clamped) =>
        if ¬ x.serialFits expected then
          (s, some (.staleSerial, valuesBytes [vbits 2 x.serial, val 1 x.posted.length]))
        else if 8 ≤ x.posted.length then (s, status .full)
        else (s.onSlot i (fun y => y.post ⟨some p, .set f⟩), status (if clamped then .clamped else .posted))

/-! ### Trim nudges (R56, R57) -/

/-- The checks of R56 from the slot number on, and the posting: the state, the status and the amount as posted. -/
def State.postNudge (s : State) (poster : Option PortNo) (slot : Option Nat) (amount : Option Int) :
    State × Status × Int :=
  match argFin 16 slot, amount with
  | some i, some a =>
    let x := s.slot i
    if s.rc.ringState = .conflict then (s, .notRunning, 0)
    else if x.state = .vacant ∧ x.posted = [] then (s, .badState, 0)
    else if 8 ≤ x.posted.length then (s, .full, 0)
    else
      let limit : Int := x.latest.nudgeLimit
      let c := clampInt (-limit) limit a
      (s.onSlot i (fun y => y.post ⟨poster, .nudge c⟩), if c ≠ a then .clamped else .posted, c)
  | _, _ => (s, .badArgument, 0)

/-- A local TRIM NUDGE (R56). -/
def reqLocalNudge (p : PortNo) (slot : Option Nat) (amount : Option Int) (s : State) : State × Reply :=
  let r := s.postNudge (some p) slot amount
  (r.1, status r.2.1)

/-- The serial of an EDIT REPLY: the section's edit serial plus the changes on its list after the posting (R57). -/
def State.replySerial (s : State) (slot : Nat) : BitVec 16 :=
  match toFin 16 slot with
  | some i => (s.slot i).serial + BitVec.ofNat 16 (s.slot i).posted.length
  | none => Config.absentSlotSerial slot

/-- A delivered EDIT (R57). -/
def State.takeEdit (s : State) (src : Nat) (ref : BitVec 16) (slot : Nat) (amount : Int) : State :=
  if 4 ≤ s.se.replies.length then s
  else
    let r := s.postNudge none (some slot) (some amount)
    let reply : OwnFrame := ⟨src, .editReply ref r.2.1 r.2.2 (r.1.replySerial slot)⟩
    (r.1.onSe (fun e => { e with replies := e.replies ++ [reply] })).offerControl .sectionEngine

/-! ### SECTION READ and FENCE (R58, R59) -/

/-- A field with its PENDING flag (notes/assumptions/17.md). -/
def pendingValue (v : Option (List Byte)) (pending : Bool) : Option (List Byte) := some (valuesBytes [v, vflag pending])

/-- A change on the list names a field of a group. -/
def Section.pendingField (x : Section) (f : FieldSet → Bool) : Bool :=
  x.posted.any (fun c => match c.body with | .set g => f g | .nudge _ => false)

/-- A change on the list stores into Tt. -/
def Section.pendingTt (x : Section) : Bool :=
  x.posted.any (fun c => match c.body with | .set g => g.tt.isSome || g.tmax.isSome | .nudge _ => true)

/-- What SECTION READ returns for a slot (R58). -/
def Section.readValues (x : Section) : List (Option (List Byte)) :=
  let y := x.latest
  let os := x.pendingField (fun g => g.os.isSome)
  [val 1 x.state.code,
   pendingValue (val 1 y.port.val) (x.pendingField (fun g => g.port.isSome)),
   pendingValue (val 2 y.n) (x.pendingField (fun g => g.n.isSome)),
   pendingValue (val 2 y.d) (x.pendingField (fun g => g.d.isSome)),
   pendingValue (val 3 y.os) os,
   pendingValue (val 3 y.tmax) (x.pendingField (fun g => g.tmax.isSome)),
   pendingValue (val 3 y.tt) x.pendingTt,
   pendingValue (val 2 y.slew) (x.pendingField (fun g => g.slew.isSome)),
   pendingValue (val 2 y.nudgeLimit) (x.pendingField (fun g => g.nudgeLimit.isSome)),
   pendingValue (val 1 y.tol) (x.pendingField (fun g => g.tol.isSome)),
   pendingValue (val 4 y.ct) (os || x.pendingTt),
   val 2 x.r, vbits 3 x.position, val 4 x.ca, vbits 2 x.serial, val 1 x.posted.length, val 1 x.miss, val 1 x.flagBits,
   x.report.map DriveReport.bytes, x.published.map (fun r => beBytes 2 r.record.cycle.toNat),
   x.published.map (fun r => flagByte r.picked)]

/-- SECTION READ (R58). -/
def reqSectionRead (slot : Option Nat) (s : State) : State × Reply :=
  match argFin 16 slot with
  | some i => (s, some (.done, valuesBytes (s.slot i).readValues))
  | none => (s, status .badArgument)

/-- The slots whose list holds a change posted by a port. -/
def State.slotsPostedBy (s : State) (p : PortNo) : List SlotNo :=
  (List.finRange 16).filter (fun i => (s.slot i).posted.any (fun c => c.poster == some p))

/-- FENCE (R59). -/
def reqFence (p : PortNo) (g : Tag) (s : State) : State × Reply :=
  let slots := s.slotsPostedBy p
  if slots.isEmpty then (s, status .done)
  else (s.onSe (fun e => { e with fences := e.fences ++ [⟨p, g, slots⟩] }), none)

/-! ### COUPLE, DECOUPLE and SET POSITION as they are taken (R62) -/

/-- The request joins the waiting list. -/
def State.joinWaiting (s : State) (w : Waiting) : State := s.onSe (fun e => { e with waiting := e.waiting ++ [w] })

/-- The checks that do not wait, for a slot and a kind already in range. -/
def State.takeWaiting (s : State) (w : Waiting) : State × Reply :=
  if s.rc.ringState ≠ .running then (s, status .notRunning)
  else if w.kind = .couple ∧ s.tu.state = .lockout then (s, status .lockedOut)
  else (s.joinWaiting w, none)

/-- COUPLE (R62). -/
def reqCouple (p : PortNo) (g : Tag) (slot : Option Nat) (s : State) : State × Reply :=
  match argFin 16 slot with
  | some i => s.takeWaiting ⟨p, g, i, .couple⟩
  | none => (s, status .badArgument)

/-- DECOUPLE (R62). -/
def reqDecouple (p : PortNo) (g : Tag) (slot : Option Nat) (s : State) : State × Reply :=
  match argFin 16 slot with
  | some i => s.takeWaiting ⟨p, g, i, .decouple⟩
  | none => (s, status .badArgument)

/-- SET POSITION (R62). -/
def reqSetPosition (p : PortNo) (g : Tag) (slot position : Option Nat) (s : State) : State × Reply :=
  match argFin 16 slot, argFin 16777216 position with
  | some i, some a => s.takeWaiting ⟨p, g, i, .setPosition (BitVec.ofNat 24 a.val)⟩
  | _, _ => (s, status .badArgument)

/-! ### The commands -/

/-- SECTION_SET. -/
def execSectionSet (t : HubTime) (p : PortNo) (g : Tag) (slot expected : Option Nat) (pairs : List (Nat × Int))
    (s : State) : Host.Outcome State Fault Refusal :=
  finishRequest s t p g deskOnly (reqSectionSet p slot expected pairs)

/-- SECTION_READ. -/
def execSectionRead (t : HubTime) (p : PortNo) (g : Tag) (slot : Option Nat) (s : State) :
    Host.Outcome State Fault Refusal :=
  finishRequest s t p g anyRole (reqSectionRead slot)

/-- FENCE. -/
def execFence (t : HubTime) (p : PortNo) (g : Tag) (s : State) : Host.Outcome State Fault Refusal :=
  finishRequest s t p g anyRole (reqFence p g)

/-- COUPLE. -/
def execCouple (t : HubTime) (p : PortNo) (g : Tag) (slot : Option Nat) (s : State) :
    Host.Outcome State Fault Refusal :=
  finishRequest s t p g deskOnly (reqCouple p g slot)

/-- DECOUPLE. -/
def execDecouple (t : HubTime) (p : PortNo) (g : Tag) (slot : Option Nat) (s : State) :
    Host.Outcome State Fault Refusal :=
  finishRequest s t p g deskOnly (reqDecouple p g slot)

/-- SET_POSITION. -/
def execSetPosition (t : HubTime) (p : PortNo) (g : Tag) (slot position : Option Nat) (s : State) :
    Host.Outcome State Fault Refusal :=
  finishRequest s t p g deskOnly (reqSetPosition p g slot position)

end Sys2Proof.Machine
end

