-- ==== Sys2Proof/Machine/Trips.lean ====
section
/-! DEFINITION. The Trip Unit: raising a cause, trip entry, escalation, LOCKOUT, the handed trip word, reset and release, the
trip records, and its commands (R87 to R112). -/

namespace Sys2Proof.Machine

/-! ### The current record (R108) -/

/-- Change the newest record with a number; an older one that has the number too, from before the count wrapped, changes no
more (R108). -/
def onNewest (n : BitVec 16) (f : TripRecord → TripRecord) : List TripRecord → List TripRecord
  | [] => []
  | r :: rest =>
    if r.number = n ∧ rest.all (fun x => x.number != n) = true then f r :: rest else r :: onNewest n f rest

/-- Change the current record, the newest with its number; nothing is recorded when there is none (R100, R108). -/
def State.onCurrent (s : State) (f : TripRecord → TripRecord) : State :=
  match s.tu.current with
  | some n => s.onTu (fun t => { t with records := onNewest n f t.records })
  | none => s

/-- A pair joins the secondary list: at most 8, none twice, not the first cause (R100). -/
def TripRecord.addSecondary (r : TripRecord) (c : CausePair) : TripRecord :=
  if r.secondary.length < 8 ∧ ¬ r.secondary.contains c ∧ c ≠ r.first then { r with secondary := r.secondary ++ [c] } else r

/-- A pair is appended to the current record. -/
def State.appendSecondary (s : State) (c : CausePair) : State := s.onCurrent (fun r => r.addSecondary c)

/-- The current record reaches a class (R100). DESIGN CHOICE (notes/assumptions/66.md): a class below the highest that the record
has reached, as a rise after a fall may come to, leaves it. -/
def State.reachClass (s : State) (k : Cls) : State := s.onCurrent (fun r => { r with highest := r.highest.max k })

/-! ### States, actions and escalation -/

/-- A change of trip state: notice TRIP, the release level kept in RELEASING alone, the current record kept through the trip
alone, and the re-formation conditions looked at (section 5.3, R96, R108, R22). -/
def State.setTrip (s : State) (st : TripState) : State :=
  ((s.onTu (fun t =>
    { t with
      state := st
      releaseLevel := if st = .releasing then t.releaseLevel else none
      current := if st = .releasing ∨ st = .normal then none else t.current })).notify .trip).checkReformation

/-- The section actions of a class (R101). -/
def State.sectionActions (s : State) (k : Cls) : State :=
  match k with
  | .quick => s.orderHeld
  | .coast => s.orderReleased
  | .noClass | .notify | .sync => s

/-- A rise of the effective class during a trip, from the class it had before (R100, R101). -/
def State.riseFrom (s : State) (before : Cls) : State :=
  let k := s.effectiveClass
  if before.rank < k.rank then (s.reachClass k).sectionActions k else s

/-! ### Entry to CAPTURE (R97) -/

/-- The snapshots of the sections that are not VACANT, in slot order. -/
def State.snapshots (s : State) : List Snapshot :=
  ((List.finRange 16).filter (fun i => decide ((s.slot i).state ≠ .vacant))).map (fun i =>
    let x := s.slot i
    { slot := i, state := x.state, position := x.position, ca := x.ca, ct := x.ct })

/-- The tripped-hub mask of the snapshot. -/
def State.tripMask (s : State) : BitVec 32 :=
  match s.rc.hubAddress with
  | some h => if s.ownClass.stops then s.tu.carriedMask ||| hubBit h else s.tu.carriedMask
  | none => s.tu.carriedMask

/-- The record that an entry opens, from the state with the entry's classes in force. -/
def State.newRecord (s : State) (first : CausePair) : TripRecord :=
  { number := s.tu.recordCount + 1, first := first, entryClass := s.effectiveClass, highest := s.effectiveClass,
    cycle := s.su.tracker.lastCycle, time := s.hubTime, angle := s.su.tracker.angle, v := s.su.tracker.lastV,
    mask := s.tripMask, snapshots := s.snapshots, secondary := [], frozen := [], capturing := true }

/-- With four records in the store the oldest is removed, and the Image Store removes its freeze (R108). -/
def State.dropOldestRecord (s : State) : State :=
  match s.tu.records with
  | r :: rest =>
    if 4 ≤ s.tu.records.length then (s.onTu (fun t => { t with records := rest })).unfreeze r.number r.frozen else s
  | [] => s

/-- A record is opened and becomes the current record. -/
def State.openRecord (s : State) (r : TripRecord) : State :=
  s.dropOldestRecord.onTu (fun t =>
    { t with records := t.records ++ [r], recordCount := r.number, current := some r.number })

/-- Entry to CAPTURE: record and snapshot, section actions, freeze walk (R95 to R97). -/
def State.enterCapture (s : State) (first : CausePair) : State :=
  let s1 := s.setTrip .capture
  let r := s1.newRecord first
  ((s1.openRecord r).sectionActions r.entryClass).startWalk r.number r.cycle

/-! ### LOCKOUT (R102) -/

/-- The second failure. RING LOST is latched by then. -/
def State.enterLockout (s : State) : State :=
  (((s.appendSecondary ⟨.ringLost, none⟩).reachClass s.effectiveClass).setTrip .lockout).orderReleased

/-! ### Raising a cause (R87) -/

/-- A new pair is in the cause set: what its latching does, from the effective class before it (R87, R95, R96, R100, R102). -/
def State.latched (s : State) (c : CausePair) (before : Cls) : State :=
  let k := s.tu.matrix.get c.cause
  let s1 := if k = .notify then s.notify .notify else s
  match s1.tu.state with
  | .normal | .releasing => if k.stops then s1.enterCapture c else s1
  | .capture | .stopping =>
    if c.cause = .ringLost then s1.enterLockout else (s1.appendSecondary c).riseFrom before
  | .stopped | .lockout => (s1.appendSecondary c).riseFrom before

/-- A block raises a cause (R87). -/
def State.raise (s : State) (c : CausePair) : State :=
  if s.tu.causes.contains c then
    if c.cause = .ringLost ∧ (s.tu.state = .capture ∨ s.tu.state = .stopping) then s.enterLockout else s
  else
    (s.onTu (fun t => { t with causes := insertCause c t.causes })).latched c s.effectiveClass

/-- Raise a cause of the whole hub. -/
def State.raiseHub (s : State) (c : Cause) : State := s.raise ⟨c, none⟩

/-- Raise a cause of one section. -/
def State.raiseSlot (s : State) (c : Cause) (i : SlotNo) : State := s.raise ⟨c, some i⟩

/-! ### The handed trip word (R92) -/

/-- R107. -/
def State.releaseTrip (s : State) : State := (s.setTrip .normal).orderReleasedFromTrip

/-- Set the carried class and mask. -/
def State.setCarried (s : State) (k : Cls) (mask : BitVec 32) : State :=
  s.onTu (fun t => { t with carried := k, carriedMask := mask })

/-- A valid cycle frame is handed with its trip word: R92, then entry, release or escalation (R95, R96, R100, R107). -/
def State.handTripWord (s : State) (classes : TripClasses) (mask : BitVec 32) : State :=
  let k := TripClasses.cls classes
  let before := s.effectiveClass
  let s1 := s.setCarried k mask
  match s.tu.state with
  | .normal => if k.stops then s1.enterCapture ⟨.remote, none⟩ else s1
  | .releasing =>
    if (s.tu.releaseLevel.getD .noClass).rank < k.rank then s1.enterCapture ⟨.remote, none⟩
    else if k.stops then s1
    else s1.releaseTrip
  | .capture | .stopping | .stopped | .lockout =>
    if before.rank < k.rank then (s1.appendSecondary ⟨.remote, none⟩).riseFrom before else s1

/-- R99: a step from a cycle frame whose shaft flags show AT REST ends STOPPING. -/
def State.stepTrip (s : State) (fromFrame atRest : Bool) : State :=
  if s.tu.state = .stopping ∧ fromFrame = true ∧ atRest = true then s.setTrip .stopped else s

/-! ### Reset (R104 to R106) -/

/-- The condition of a latched cause is gone (the table of R104). -/
def State.conditionGone (s : State) (c : CausePair) : Bool :=
  match c.cause, c.slot with
  | .tripIn, _ => !s.tu.tripInLow
  | .webBreak, _ => !s.tu.webBrk
  | .ringLost, _ => s.running
  | .driveFault, some i =>
    match (s.slot i).report with
    | some r => !r.fault
    | none => false
  | .registerLost, some i => decide ((s.loop i).state ≠ .lost)
  | .driveFault, none | .registerLost, none => true
  | .driveSilent, _ | .operatorStop, _ | .publicationLate, _ | .followingError, _ | .remote, _ => true

/-- The highest class that the current record reached (R96). -/
def State.currentHighest (s : State) : Option Cls :=
  (s.tu.records.reverse.find? (fun r => decide (s.tu.current = some r.number))).map (fun r => r.highest)

/-- The release level that a reset stores (R96). -/
def State.levelAtReset (s : State) (cleared : List CausePair) : Cls :=
  match s.currentHighest with
  | some k => k
  | none => (classOfCauses s.tu.matrix cleared).max s.tu.carried

/-- The pairs that remain latched, as a response lists them: cause and section (R104). DESIGN CHOICE (notes/assumptions/17.md):
in the order of the cause set, by cause number and then section, as R112 gives it for TRIP READ. -/
def stillActive (cs : List CausePair) : Status × List Byte := (.stillActive, valuesBytes [vlist (cs.map pairOfCause)])

/-- The reset of R104: the state and the response. -/
def State.resetTrip (s : State) : State × Status × List Byte :=
  let cleared := s.tu.causes.filter s.conditionGone
  let left := s.tu.causes.filter (fun c => !s.conditionGone c)
  let s1 := s.onTu (fun t => { t with causes := left })
  match s.tu.state with
  | .capture | .stopping => (s, .badState, [])
  | .lockout => (s, .lockedOut, [])
  | .normal | .releasing => if left.isEmpty then (s1, .done, []) else (s1, stillActive left)
  | .stopped =>
    if (classOfCauses s.tu.matrix left).stops then (s1, stillActive left)
    else
      ((s1.onTu (fun t => { t with releaseLevel := some (s.levelAtReset cleared) })).setTrip .releasing, .done, [])

/-- A TRIP RESET accepted at the master sets RESET REQUEST for the next origination (R105). -/
def State.requestPressReset (s : State) (before : TripState) : State :=
  if s.isMaster = true ∧ (s.rc.ringState = .running ∨ s.rc.ringState = .lost)
      ∧ (before = .normal ∨ before = .stopped ∨ before = .releasing) then
    s.onTu (fun t => { t with resetRequest := true })
  else s

/-- TRIP RESET (R104, R105). -/
def reqTripReset (s : State) : State × Reply :=
  let r := s.resetTrip
  (r.1.requestPressReset s.tu.state, some r.2)

/-! ### MATRIX SET (R88) -/

/-- The pairs of a MATRIX SET as causes and classes, or none where one is out of range. -/
def matrixPairs : List (Nat × Nat) → Option (List (Cause × Cls))
  | [] => some []
  | p :: rest =>
    match Cause.ofNumber p.1, Cls.ofCode p.2, matrixPairs rest with
    | some c, some k, some r => some ((c, k) :: r)
    | _, _, _ => none

/-- A class raised to the least that its cause may have. -/
def raiseToMinimum (p : Cause × Cls) : Cause × Cls := (p.1, p.2.max p.1.minimum)

/-- What the new matrix does to latched causes, from the effective class before it. -/
def State.matrixChanged (s : State) (before : Cls) : State :=
  match s.tu.state with
  | .normal | .releasing =>
    match s.tu.causes.filter (fun c => (s.tu.matrix.get c.cause).stops) with
    | [] => s
    | first :: rest => rest.foldl (fun s c => s.appendSecondary c) (s.enterCapture first)
  | .capture | .stopping | .stopped | .lockout => s.riseFrom before

/-- MATRIX SET (R88). -/
def reqMatrixSet (pairs : List (Nat × Nat)) (s : State) : State × Reply :=
  match matrixPairs pairs with
  | none => (s, status .badArgument)
  | some ps =>
    if ps.length = 0 ∨ 9 < ps.length ∨ ¬ keysDistinct pairs then (s, status .badArgument)
    else if s.su.tracker.flags.atRest = false then (s, status .notAtRest)
    else
      let fixed := ps.map raiseToMinimum
      let s1 := s.onTu (fun t => { t with matrix := fixed.foldl (fun m p => m.put p.1 p.2) t.matrix })
      (s1.matrixChanged s.effectiveClass, status (if fixed = ps then .done else .clamped))

/-! ### Lines and STOP PRESS (R89, R90) -/

/-- TRIP IN changes from high to low. -/
def State.tripInFalls (s : State) : State :=
  if s.tu.tripInLow then s else (s.onTu (fun t => { t with tripInLow := true })).raiseHub .tripIn

/-- WEB BRK changes from inactive to asserted. -/
def State.webBrkRises (s : State) : State :=
  if s.tu.webBrk then s else (s.onTu (fun t => { t with webBrk := true })).raiseHub .webBreak

/-- A line returns to its inactive level. -/
def State.lineReturns (s : State) (line : TripLine) : State :=
  match line with
  | .tripIn => s.onTu (fun t => { t with tripInLow := false })
  | .webBrk => s.onTu (fun t => { t with webBrk := false })

/-- STOP PRESS (R90). -/
def reqStopPress (s : State) : State × Reply := (s.raiseHub .operatorStop, status .done)

/-! ### Records (R98, R109 to R111) -/

/-- The record with a number. DESIGN CHOICE (notes/assumptions/44.md): the oldest, where two kept records have it. -/
def State.record (s : State) (n : BitVec 16) : Option TripRecord := s.tu.records.find? (fun r => r.number == n)

/-- The record that a RECORD READ names; NEWEST is the last opened. -/
def State.selectRecord (s : State) : RecordSel → Option TripRecord
  | .number n => s.record n
  | .newest => s.tu.records.getLast?

/-- RECORD READ (R110). -/
def reqRecordRead (sel : Option RecordSel) (s : State) : State × Reply :=
  match sel with
  | none => (s, status .badArgument)
  | some n =>
    match s.selectRecord n with
    | none => (s, status .gone)
    | some r => (s, if r.capturing then status .busy else some (.done, r.bytes))

/-- RECORD RELEASE (R111). The record released is the current one when no other has its number (notes/assumptions/44.md). -/
def reqRecordRelease (number : Option (BitVec 16)) (s : State) : State × Reply :=
  match number with
  | none => (s, status .badArgument)
  | some n =>
    match s.record n with
    | none => (s, status .gone)
    | some r =>
      if r.capturing then (s, status .busy)
      else
        let left := s.tu.records.eraseP (fun x => x.number == n)
        ((s.onTu (fun t =>
          { t with
            records := left
            current := if t.current = some n ∧ left.all (fun x => x.number != n) = true then none else t.current })).unfreeze
          n r.frozen, status .done)

/-- TRIP READ (R112). -/
def reqTripRead (s : State) : State × Reply := (s, some (.done, itemsBytes s.tripsContent))

/-- The walk's list is stored in the record it named, the newest with its number, which is captured (R98, R108). -/
def State.storeFrozen (s : State) (w : Walk) : State :=
  (s.onIs (fun st => { st with walk := none })).onTu (fun t =>
    { t with records := onNewest w.record (fun r => { r with frozen := w.frozen, capturing := false }) t.records })

/-- What the trip state becomes at a walk's completion; notice TRIP at every completion (R98). -/
def State.captured (s : State) : State :=
  match s.tu.state with
  | .capture =>
    if s.su.tracker.flags.atRest = true ∨ s.rc.ringState = .lost then s.setTrip .stopped else s.setTrip .stopping
  | .normal | .stopping | .stopped | .releasing | .lockout => s.notify .trip

/-- The event FREEZE_WALK_COMPLETION: the list holds 16 ids or the last candidate has been examined (R131, R98). -/
def State.walkCompletion (s : State) : State :=
  match s.is.walk with
  | some w => if w.candidates = [] ∨ 16 ≤ w.frozen.length then (s.storeFrozen w).captured else s
  | none => s

/-! ### The commands -/

/-- TRIP_IN. -/
def execTripIn (t : HubTime) (s : State) : Host.Outcome State Fault Refusal := finish s (s.advance t).tripInFalls

/-- WEB_BRK. -/
def execWebBrk (t : HubTime) (s : State) : Host.Outcome State Fault Refusal := finish s (s.advance t).webBrkRises

/-- LINE_RETURNS_TO_INACTIVE. -/
def execLineReturnsToInactive (t : HubTime) (line : TripLine) (s : State) : Host.Outcome State Fault Refusal :=
  finish s ((s.advance t).lineReturns line)

/-- MATRIX_SET. -/
def execMatrixSet (t : HubTime) (p : PortNo) (g : Tag) (pairs : List (Nat × Nat)) (s : State) :
    Host.Outcome State Fault Refusal :=
  finishRequest s t p g deskOnly (reqMatrixSet pairs)

/-- STOP_PRESS. -/
def execStopPress (t : HubTime) (p : PortNo) (g : Tag) (s : State) : Host.Outcome State Fault Refusal :=
  finishRequest s t p g deskPanel reqStopPress

/-- TRIP_RESET. -/
def execTripReset (t : HubTime) (p : PortNo) (g : Tag) (s : State) : Host.Outcome State Fault Refusal :=
  finishRequest s t p g deskOnly reqTripReset

/-- RECORD_READ. -/
def execRecordRead (t : HubTime) (p : PortNo) (g : Tag) (sel : Option RecordSel) (s : State) :
    Host.Outcome State Fault Refusal :=
  finishRequest s t p g deskPanel (reqRecordRead sel)

/-- RECORD_RELEASE. -/
def execRecordRelease (t : HubTime) (p : PortNo) (g : Tag) (number : Option (BitVec 16)) (s : State) :
    Host.Outcome State Fault Refusal :=
  finishRequest s t p g deskOnly (reqRecordRelease number)

/-- TRIP_READ. -/
def execTripRead (t : HubTime) (p : PortNo) (g : Tag) (s : State) : Host.Outcome State Fault Refusal :=
  finishRequest s t p g anyRole reqTripRead

/-- FREEZE_WALK_COMPLETION. -/
def execFreezeWalkCompletion (t : HubTime) (s : State) : Host.Outcome State Fault Refusal :=
  finish s (s.advance t).walkCompletion

end Sys2Proof.Machine
end

