-- ==== Sys2Proof/Machine/Register.lean ====
section
/-! DEFINITION. The Register Unit: mark captures, the judging of marks, passes and misses, and its requests (R71 to R86); and
the completion of a scan, which hands its result to a loop (R157). -/

namespace Sys2Proof.Machine

/-! ### Judging a mark (R78, R79) -/

/-- A loop changes state: notice REGISTER when it does (R75). -/
def State.setLoopState (s : State) (i : SlotNo) (st : LoopState) : State :=
  if (s.loop i).state = st then s else (s.onLoop i (fun l => { l with state := st })).notify .register

/-- The error in section increments (R79, 1). -/
def sectionError (e : Int) (n d : Nat) : Int := roundDiv (e * n) d

/-- The correction of an error beyond the deadband (R79, 2). -/
def correctionOf (es : Int) (gain : Nat) : Int := roundDiv (es * gain) 256

/-- A correction is delivered to a section (R49). -/
def State.deliver (s : State) (i : SlotNo) (c : Int) : State :=
  s.onSlot i (fun x => { x with corrSum := x.corrSum + c, corrHeld := true })

/-- A stray mark (R79). -/
def Loop.stray (l : Loop) (e : Int) : Loop := { l with strays := satInc l.strays, lastStrayE := some e }

/-- What an accepted mark records in the loop (R79, 4 and 5). -/
def Loop.accept (l : Loop) (e es c : Int) : Loop :=
  { l with lastE := some e, lastEs := some es, lastC := some c, misses := 0, markSeen := true }

/-- A mark that a loop takes is judged (R79). -/
def State.judgeMark (s : State) (i : SlotNo) (mark : Angle) : State :=
  let l := s.loop i
  let e := sdiff mark l.mexp
  if l.window < e.natAbs then s.onLoop i (fun l => l.stray e)
  else
    let x := s.slot i
    let es := sectionError e x.n x.d
    let beyond := decide (l.deadband < es.natAbs)
    let c := if beyond then correctionOf es l.gain else 0
    let s1 := if beyond then s.deliver i c else s
    (s1.onLoop i (fun l => l.accept e es c)).setLoopState i .locked

/-- A resolved sensor mark is offered to a loop (R78). -/
def State.offerMark (s : State) (input : Fin 8) (mark : Angle) (i : SlotNo) : State :=
  if decide ((s.loop i).source = .sensor input) && s.loopActive i then s.judgeMark i mark else s

/-! ### Captures (R72, R73) -/

/-- A capture is resolved UNKNOWN. -/
def MarkInput.dropCapture (m : MarkInput) (at_ : HubTime) : MarkInput :=
  { m with pending := none, lastCapture := some ⟨at_, .unknown⟩, dropped := satInc m.dropped }

/-- A capture is resolved with an angle. -/
def MarkInput.resolveCapture (m : MarkInput) (at_ : HubTime) (a : Angle) : MarkInput :=
  { m with pending := none, lastCapture := some ⟨at_, .angle a⟩ }

/-- The slots of a section map, in order. -/
def mapSlots (m : BitVec 16) : List SlotNo := (List.finRange 16).filter (fun i => m.getLsbD i.val)

/-- The Register Unit asks about the pending capture of an input (R73). -/
def State.askCapture (s : State) (i : Fin 8) : State :=
  match (s.ru.inputs.get i).pending with
  | none => s
  | some at_ =>
    match s.su.tracker.angleAt at_ with
    | .pending => s
    | .unknown => s.onInput i (fun m => m.dropCapture at_)
    | .angle a =>
      (mapSlots (s.ru.inputs.get i).map).foldl (fun s j => s.offerMark i a j)
        (s.onInput i (fun m => m.resolveCapture at_ a))

/-- It asks about every pending capture. -/
def State.askCaptures (s : State) : State := (List.finRange 8).foldl (fun s i => s.askCapture i) s

/-- An edge of a mark input (R72). -/
def State.markEdge (s : State) (i : Fin 8) (edge : Edge) : State :=
  let m := s.ru.inputs.get i
  if m.edge = edge ∧ m.pending = none ∧ m.holdOffUntil = none then
    (s.onInput i (fun m =>
      { m with
        pending := some s.hubTime
        lastCapture := some ⟨s.hubTime, .unresolved⟩
        holdOffUntil := if m.holdOff = 0 then none else some (later s.hubTime m.holdOff) })).askCapture i
  else s

/-- The event HOLD_OFF_EXPIRY (R72). -/
def State.holdOffExpiry (s : State) (i : Fin 8) : State :=
  if timerDue (s.ru.inputs.get i).holdOffUntil s.hubTime then s.onInput i (fun m => { m with holdOffUntil := none })
  else s

/-! ### Passes and misses (R81, R82) -/

/-- A miss of a loop: its misses, and its entry to LOST when they reach the limit (R82). -/
def Loop.miss (l : Loop) : Loop :=
  let n := if l.misses < 15 then l.misses + 1 else 15
  { l with misses := n, state := if l.missLimit ≤ n ∧ (l.state = .seeking ∨ l.state = .locked) then .lost else l.state }

/-- A loop enters LOST at its next miss. -/
def Loop.losesAtMiss (l : Loop) : Bool := decide (l.miss.state = .lost) && decide (l.state ≠ .lost)

/-- A miss outside a pass, a NONE result: notice and cause at the entry to LOST (R80, R82). -/
def State.countMiss (s : State) (i : SlotNo) : State :=
  let s1 := s.onLoop i Loop.miss
  if (s.loop i).losesAtMiss then (s1.notify .register).raiseSlot .registerLost i else s1

/-- The pass point of a loop lies in the interval moved through (R81, R82). -/
def Loop.passes (l : Loop) (judged reached : Angle) : Bool :=
  let x := l.mexp + BitVec.ofNat 24 (2 * l.window)
  l.enable && decide (1 ≤ sdiff x judged) && decide (sdiff x judged ≤ sdiff reached judged)

/-- A pass of loop `i` is a miss (R82, 1). -/
def State.passMisses (s : State) (i : SlotNo) : Bool :=
  let l := s.loop i
  (match l.source with
   | .sensor _ => true
   | .image _ => false) && s.loopActive i && !l.markSeen

/-- The loops whose pass puts them in LOST. -/
def State.passLosses (s : State) (judged reached : Angle) : List SlotNo :=
  (List.finRange 16).filter (fun i =>
    (s.loop i).passes judged reached && s.passMisses i && (s.loop i).losesAtMiss)

/-- The passes of one interval are judged; the causes are raised when all have been (R82, notes/assumptions/13.md). -/
def State.judgePasses (s : State) (judged reached : Angle) : State :=
  let s1 := s.onRu (fun r =>
    { r with loops := r.loops.mapIdx (fun i l =>
        if l.passes judged reached then { (if s.passMisses i then l.miss else l) with markSeen := false } else l) })
  (s.passLosses judged reached).foldl (fun s i => (s.notify .register).raiseSlot .registerLost i) s1

/-- The pass compare acts with the angle noted with it (R81). -/
def State.reach (s : State) (reached : Angle) : State :=
  let s1 := match s.ru.judged with
    | some judged => if 0 < sdiff reached judged then s.judgePasses judged reached else s
    | none => s
  s1.onRu (fun r => { r with judged := some reached, passCompare := none })

/-- The pass compare is armed for a new entry, or acts at once (R81). -/
def State.armPassCompare (s : State) (p : HubTime) (theta : Angle) : State :=
  if isDue p s.hubTime then s.reach theta else s.onRu (fun r => { r with passCompare := some ⟨p, theta⟩ })

/-- The event PASS_COMPARE. -/
def State.passCompare (s : State) : State :=
  match s.ru.passCompare with
  | some c => if isDue c.due s.hubTime then s.reach c.theta else s
  | none => s

/-- The history has grown by an entry (R73, R81). The marks are one event and a pass that comes at once is another: mark seen,
set and cleared so, has changed (R164, notes/assumptions/55.md). -/
def State.registerGrowth (s : State) (p : HubTime) (theta : Angle) : State :=
  (s.event State.askCaptures).armPassCompare p theta

/-- The history has been emptied (R73, R81). -/
def State.registerEmptied (s : State) : State :=
  s.askCaptures.onRu (fun r => { r with passCompare := none, judged := none })

/-! ### Results of the Mark Scanner (R80, R157) -/

/-- A scan result is handed to the loop of its section (R80). -/
def State.takeResult (s : State) (i : SlotNo) (camera : Fin 4) (mark : Option Angle) : State :=
  if decide ((s.loop i).source = .image camera) && s.loopActive i then
    match mark with
    | some a => s.judgeMark i a
    | none => s.countMiss i
  else s

/-- The result of the scan in progress: its strip's bytes have not changed since the take-up (R156). -/
def State.scanResult (s : State) (p : Scan) : ScanResult :=
  match s.strip p.job.strip with
  | some x => (runScan s.is.mem x p.rows p.startColumn p.search).1
  | none => .none

/-- The mark angle of a result (R157, 2). -/
def Scan.markAngle (p : Scan) : ScanResult → Option Angle
  | .hit row _ => some (p.theta + BitVec.ofNat 24 (row * p.pitch))
  | .none => none

/-- A result is counted (R157, 4). -/
def MS.countResult (m : MS) : ScanResult → MS
  | .hit _ _ => { m with hits := satInc m.hits }
  | .none => { m with nones := satInc m.nones }

/-- A scan completes (R157, in its order). -/
def State.completeScan (s : State) (p : Scan) : State :=
  let r := s.scanResult p
  let s1 := s.onStrip p.job.strip (fun x => { x with results := x.results.set p.job.slot (some r) })
  let s2 := s1.takeResult p.job.slot p.camera (p.markAngle r)
  let s3 := (s2.onMs (fun m => m.countResult r)).onStrip p.job.strip (fun x => { x with scanning := false })
  (s3.onMs (fun m => { m with scan := none })).takeUp

/-- The event SCAN_COMPLETION. -/
def State.scanCompletion (s : State) : State :=
  match s.ms.scan with
  | some p => if isDue p.completeAt s.hubTime then s.completeScan p else s
  | none => s

/-! ### REGISTER SET, input form (R74) -/

/-- The edge that a code names, in the order of R71. -/
def edgeOf : Nat → Option Edge
  | 0 => some .rising
  | 1 => some .falling
  | _ => none

/-- REGISTER SET in its input form (R74). -/
def reqRegisterInput (input : Option Nat) (items : InputItems) (s : State) : State × Reply :=
  match argFin 8 input with
  | none => (s, status .badArgument)
  | some i =>
    if items = {} ∨ (items.edge.isSome ∧ (items.edge.bind edgeOf).isNone) then (s, status .badArgument)
    else
      let h := items.holdOff.map (clampNat 0 65535)
      (s.onInput i (fun m =>
        { m with edge := (items.edge.bind edgeOf).getD m.edge, holdOff := h.getD m.holdOff, map := items.map.getD m.map }),
       status (if h = items.holdOff then .done else .clamped))

/-! ### REGISTER SET, loop form (R76, R77) -/

/-- The source that a request names, when it is in range (R76, 2). -/
def sourceOf (a : SourceArg) : Option Source :=
  match a.code with
  | 0 => (toFin 8 a.index).map Source.sensor
  | 1 => (toFin 4 a.index).map Source.image
  | _ => none

/-- The direction that a code names. -/
def directionOf : Nat → Option Direction
  | 0 => some .right
  | 1 => some .left
  | _ => none

/-- The items of a loop-form REGISTER SET, checked and clamped; an item not named is none. -/
structure LoopChange where
  enable : Option Bool
  source : Option Source
  direction : Option Direction
  mexp : Option Angle
  window : Option Nat
  deadband : Option Nat
  gain : Option Nat
  missLimit : Option Nat
  minSpeed : Option Nat
  channel : Option Nat
  startColumn : Option Nat
  threshold : Option Nat
  runLength : Option Nat
deriving DecidableEq, Repr

/-- The refusals of R76, 2. -/
def loopItemsBad (items : LoopItems) : Bool :=
  (items.source.isSome && (items.source.bind sourceOf).isNone)
    || (items.direction.isSome && (items.direction.bind directionOf).isNone)
    || (items.mexp.isSome && (items.mexp.bind (toFin 16777216)).isNone)

/-- The items with the clamps of R76, 3. -/
def loopChange (items : LoopItems) : LoopChange where
  enable := items.enable
  source := items.source.bind sourceOf
  direction := items.direction.bind directionOf
  mexp := items.mexp.map (BitVec.ofNat 24)
  window := items.window.map (clampNat 0 4194304)
  deadband := items.deadband.map (clampNat 0 65535)
  gain := items.gain.map (clampNat 0 255)
  missLimit := items.missLimit.map (clampNat 1 15)
  minSpeed := items.minSpeed.map (clampNat 0 2147479552)
  channel := items.channel.map (clampNat 0 3)
  startColumn := items.startColumn.map (clampNat 0 4095)
  threshold := items.threshold.map (clampNat 0 255)
  runLength := items.runLength.map (clampNat 1 16)

/-- A value was clamped. -/
def loopClamped (items : LoopItems) : Bool :=
  let c := loopChange items
  decide (c.window ≠ items.window) || decide (c.deadband ≠ items.deadband) || decide (c.gain ≠ items.gain)
    || decide (c.missLimit ≠ items.missLimit) || decide (c.minSpeed ≠ items.minSpeed)
    || decide (c.channel ≠ items.channel) || decide (c.startColumn ≠ items.startColumn)
    || decide (c.threshold ≠ items.threshold) || decide (c.runLength ≠ items.runLength)

/-- The named items stored. -/
def Loop.store (l : Loop) (c : LoopChange) : Loop :=
  { l with
    source := c.source.getD l.source
    mexp := c.mexp.getD l.mexp
    window := c.window.getD l.window
    deadband := c.deadband.getD l.deadband
    gain := c.gain.getD l.gain
    missLimit := c.missLimit.getD l.missLimit
    minSpeed := c.minSpeed.getD l.minSpeed
    search :=
      { channel := c.channel.getD l.search.channel, startColumn := c.startColumn.getD l.search.startColumn,
        direction := c.direction.getD l.search.direction, threshold := c.threshold.getD l.search.threshold,
        runLength := c.runLength.getD l.search.runLength } }

/-- SEEKING or OFF afresh: misses 0, mark seen clear (R77). -/
def Loop.restart (l : Loop) (st : LoopState) : Loop := { l with state := st, misses := 0, markSeen := false }

/-- R77, in the order it lists. -/
def Loop.change (l : Loop) (c : LoopChange) : Loop :=
  let m := l.store c
  let m1 := if l.enable ∧ (m.source ≠ l.source ∨ m.mexp ≠ l.mexp ∨ m.window ≠ l.window) then m.restart .seeking else m
  match c.enable with
  | some true => if l.enable then m1 else { m1.restart .seeking with enable := true }
  | some false => if l.enable then { m1.restart .off with enable := false } else m1
  | none => m1

/-- REGISTER SET in its loop form (R76, R77). -/
def reqRegisterLoop (loop : Option Nat) (items : LoopItems) (s : State) : State × Reply :=
  match argFin 16 loop with
  | none => (s, status .badArgument)
  | some i =>
    if items = {} ∨ loopItemsBad items then (s, status .badArgument)
    else
      let l := (s.loop i).change (loopChange items)
      let s1 := s.onLoop i (fun _ => l)
      (if (s.loop i).state = l.state then s1 else s1.notify .register,
       status (if loopClamped items then .clamped else .done))

/-! ### REGISTER READ (R84) -/

/-- The last capture as a value: its time, and 0 with the angle, 1 UNKNOWN or 2 unresolved, in the order of R84
(notes/assumptions/17.md). -/
def Capture.bytes (c : Capture) : List Byte :=
  match c.angle with
  | .unresolved => valuesBytes [vbits 4 c.time, val 1 2]
  | .unknown => valuesBytes [vbits 4 c.time, val 1 1]
  | .angle a => valuesBytes [vbits 4 c.time, val 1 0, vbits 3 a]

/-- The code of an edge. -/
def edgeCode : Edge → Nat
  | .rising => 0
  | .falling => 1

/-- The items of a mark input. DESIGN CHOICE (notes/assumptions/17.md): the section map is sent as it is read, a mask of two
bytes, bit n for slot n. -/
def MarkInput.values (m : MarkInput) : List (Option (List Byte)) :=
  [val 1 (edgeCode m.edge), val 2 m.holdOff, vbits 2 m.map, m.pending.map (fun t => beBytes 4 t.toNat),
   vflag m.holdOffUntil.isSome, m.lastCapture.map Capture.bytes, val 2 m.dropped]

/-- REGISTER READ: a loop number or an input number, one of the two (R84). -/
def reqRegisterRead (loop input : Option Nat) (s : State) : State × Reply :=
  match loop, input with
  | some k, none =>
    match toFin 16 k with
    | some i =>
      (s, some (.done,
        valuesBytes ((s.loop i).values ++ [vflag (s.loopActive i), s.ru.judged.map (fun a => beBytes 3 a.toNat)])))
    | none => (s, status .badArgument)
  | none, some k =>
    match toFin 8 k with
    | some i => (s, some (.done, valuesBytes (s.ru.inputs.get i).values))
    | none => (s, status .badArgument)
  | _, _ => (s, status .badArgument)

/-! ### The commands -/

/-- MARK_EDGE. -/
def execMarkEdge (t : HubTime) (input : Fin 8) (edge : Edge) (s : State) : Host.Outcome State Fault Refusal :=
  finish s ((s.advance t).markEdge input edge)

/-- HOLD_OFF_EXPIRY. -/
def execHoldOffExpiry (t : HubTime) (input : Fin 8) (s : State) : Host.Outcome State Fault Refusal :=
  finish s ((s.advance t).holdOffExpiry input)

/-- PASS_COMPARE. -/
def execPassCompare (t : HubTime) (s : State) : Host.Outcome State Fault Refusal := finish s (s.advance t).passCompare

/-- SCAN_COMPLETION. -/
def execScanCompletion (t : HubTime) (s : State) : Host.Outcome State Fault Refusal :=
  finish s (s.advance t).scanCompletion

/-- REGISTER_SET_INPUT_FORM. -/
def execRegisterSetInputForm (t : HubTime) (p : PortNo) (g : Tag) (input : Option Nat) (items : InputItems)
    (s : State) : Host.Outcome State Fault Refusal :=
  finishRequest s t p g deskOnly (reqRegisterInput input items)

/-- REGISTER_SET_LOOP_FORM. -/
def execRegisterSetLoopForm (t : HubTime) (p : PortNo) (g : Tag) (loop : Option Nat) (items : LoopItems) (s : State) :
    Host.Outcome State Fault Refusal :=
  finishRequest s t p g deskOnly (reqRegisterLoop loop items)

/-- REGISTER_READ. -/
def execRegisterRead (t : HubTime) (p : PortNo) (g : Tag) (loop input : Option Nat) (s : State) :
    Host.Outcome State Fault Refusal :=
  finishRequest s t p g anyRole (reqRegisterRead loop input)

end Sys2Proof.Machine
end

