-- ==== Sys2Proof/Machine/Cameras.lean ====
section
/-! DEFINITION. Cameras: the scheduling and firing of triggers, exposure stamps and their resolution, CAMERA SET and TRIGGER
SET (R117 to R119). -/

namespace Sys2Proof.Machine

/-! ### Stamps (R119) -/

/-- A stamp after the interpolation service has been asked. -/
def Stamp.ask (k : Tracker) : Stamp → Stamp
  | .pending fire cycle =>
    match k.angleAt fire with
    | .angle a => .known a cycle
    | .unknown => .unknown
    | .pending => .pending fire cycle
  | .known a c => .known a c
  | .unknown => .unknown

/-- A stamp is PENDING. -/
def Stamp.isPending : Stamp → Bool
  | .pending _ _ => true
  | .known _ _ | .unknown => false

/-- Every PENDING stamp of the trigger logs and of the strips asks. -/
def State.askStampsOnly (s : State) : State :=
  let k := s.su.tracker
  s.onIs (fun st =>
    { st with
      cameras := st.cameras.map (fun c => { c with log := c.log.map (fun e => { e with stamp := e.stamp.ask k }) })
      strips := st.strips.map (fun x => { x with stamp := x.stamp.ask k }) })

/-- The strips whose PENDING stamp the service would answer with an angle. DESIGN CHOICE (notes/assumptions/45.md): in directory
order, in which those that are closed offer their jobs. -/
def State.resolvable (s : State) : List Nat :=
  (s.is.strips.filter (fun x =>
    x.stamp.isPending && (match x.stamp.ask s.su.tracker with | .known _ _ => true | _ => false))).map (fun x => x.id)

/-- Stamps are resolved, and the closed local strips among them become ready for search (R119, R125). -/
def State.askStamps (s : State) : State := s.resolvable.foldl (fun s id => s.readyForSearch id) s.askStampsOnly

/-! ### Firing (R119) -/

/-- An entry joins the trigger log, which holds the last 8. -/
def appendLog (l : List LogEntry) (e : LogEntry) : List LogEntry := (if 8 ≤ l.length then l.drop (l.length - 7) else l) ++ [e]

/-- What a firing does to its camera record. The stamp asks at once. -/
def Camera.fire (c : Camera) (f : Firing) (now : HubTime) (k : Tracker) : Camera :=
  { c with
    pulseEnd := some (later now 500)
    trigNumber := c.trigNumber + 1
    log := appendLog c.log { number := c.trigNumber + 1, fire := f.time, stamp := (Stamp.pending f.time f.cycle).ask k } }

/-- A firing's time has come (R119). -/
def State.fire (s : State) (i : Fin 4) (f : Firing) : State :=
  (s.onCamera i (fun c => c.fire f s.hubTime s.su.tracker)).notify .trigger

/-- Of two firings, the one whose time is earlier; the first of equals. -/
def earlierFiring (a b : Firing) : Firing := if sdiff b.time a.time < 0 then b else a

/-- The earliest firing of a camera whose time has come (DESIGN CHOICE among several, notes/assumptions/61.md). -/
def Camera.nextDue (c : Camera) (now : HubTime) : Option Firing :=
  match c.armed.filter (fun f => isDue f.time now) with
  | [] => none
  | f :: rest => some (rest.foldl earlierFiring f)

/-- The event TRIGGER_FIRE of a camera. -/
def State.triggerFire (s : State) (i : Fin 4) : State :=
  match (s.camera i).nextDue s.hubTime with
  | some f => (s.onCamera i (fun c => { c with armed := c.armed.erase f })).fire i f
  | none => s

/-- The event TRIGGER_PULSE_END of a camera: its TRG line returns low. -/
def State.pulseEnd (s : State) (i : Fin 4) : State :=
  if timerDue (s.camera i).pulseEnd s.hubTime then s.onCamera i (fun c => { c with pulseEnd := none }) else s

/-! ### Scheduling (R118) -/

/-- The firings of one camera for a new entry: every table angle in (start, start + len], in increasing order of distance
from `start` (DESIGN CHOICE, notes/assumptions/61.md). -/
def scheduleFirings (table : List Angle) (start theta : Angle) (len : Nat) (p : HubTime) (delta : Int) (period : Nat)
    (cycle : BitVec 16) : List Firing :=
  (sortByKey (fun a : Angle => (a - start).toNat)
    (table.filter (fun a => decide (1 ≤ (a - start).toNat) && decide ((a - start).toNat ≤ len)))).map (fun a =>
      { time := p + BitVec.ofInt 32 (roundDiv (sdiff a theta * period) delta), cycle := cycle })

/-- The firings that a camera arms for a new entry, and its scheduled angle after it. -/
def Camera.schedule (c : Camera) (e : HistEntry) (v : Int) (period : Nat) : List Firing × Option Angle :=
  if e.delta ≤ 0 ∨ v ≤ c.minSpeed then ([], none)
  else
    let start := c.scheduled.getD e.theta
    let stop := e.theta + BitVec.ofInt 24 e.delta
    let len := sdiff stop start
    if len ≤ 0 then ([], c.scheduled)
    else (scheduleFirings c.table start e.theta len.toNat e.p e.delta period e.cycle, some stop)

/-- A firing is armed, or acts at once when its time has come (R118). -/
def State.armFiring (s : State) (i : Fin 4) (f : Firing) : State :=
  if isDue f.time s.hubTime then s.fire i f else s.onCamera i (fun c => { c with armed := c.armed ++ [f] })

/-- One camera is scheduled for a new entry. -/
def State.scheduleCamera (e : HistEntry) (s : State) (i : Fin 4) : State :=
  let r := (s.camera i).schedule e s.su.tracker.lastV s.periodTicks
  r.1.foldl (fun s f => s.armFiring i f) (s.onCamera i (fun c => { c with scheduled := r.2 }))

/-- The history has grown by an entry: stamps first, then the cameras in order (R118). -/
def State.storeGrowth (s : State) (e : HistEntry) : State := (List.finRange 4).foldl (State.scheduleCamera e) s.askStamps

/-- The history has been emptied: stamps ask, every firing is disarmed (R118, R119). -/
def State.storeEmptied (s : State) : State :=
  s.askStamps.onIs (fun st =>
    { st with cameras := st.cameras.map (fun c => { c with armed := [], scheduled := none }) })

/-! ### CAMERA SET and TRIGGER SET (R117) -/

/-- The mode that a code names. -/
def modeArg : Nat → Option Mode
  | 0 => some .grey
  | 1 => some .cmyk
  | _ => none

/-- The row pitch is in range, when one is carried. -/
def pitchOk : Option Nat → Bool
  | none => true
  | some v => decide (1 ≤ v) && decide (v ≤ 65535)

/-- CAMERA SET (R117). -/
def reqCameraSet (camera : Option Nat) (items : CameraItems) (s : State) : State × Reply :=
  match argFin 4 camera with
  | none => (s, status .badArgument)
  | some i =>
    if items = {} ∨ pitchOk items.pitch = false ∨ (items.mode.isSome ∧ (items.mode.bind modeArg).isNone) then
      (s, status .badArgument)
    else
      let v := items.minSpeed.map (clampNat 0 2147479552)
      (s.onCamera i (fun c =>
        { c with
          mode := (items.mode.bind modeArg).getD c.mode
          pitch := items.pitch.getD c.pitch
          mask := items.mask.getD c.mask
          minSpeed := v.getD c.minSpeed }),
       status (if v = items.minSpeed then .done else .clamped))

/-- No two values of a list are equal. -/
def distinctNats : List Nat → Bool
  | [] => true
  | a :: r => !r.contains a && distinctNats r

/-- TRIGGER SET (R117). DESIGN CHOICE (notes/assumptions/16.md): BAD ARGUMENT comes before FULL. -/
def reqTriggerSet (camera : Option Nat) (angles : Option (List Nat)) (s : State) : State × Reply :=
  match argFin 4 camera, angles with
  | some i, some l =>
    if l.any (fun a => decide (16777215 < a)) ∨ ¬ distinctNats l then (s, status .badArgument)
    else if 8 < l.length then (s, status .full)
    else
      (s.onCamera i (fun c => { c with table := (sortByKey (fun a : Nat => a) l).map (BitVec.ofNat 24) }), status .done)
  | _, _ => (s, status .badArgument)

/-! ### The commands -/

/-- CAMERA_SET. -/
def execCameraSet (t : HubTime) (p : PortNo) (g : Tag) (camera : Option Nat) (items : CameraItems) (s : State) :
    Host.Outcome State Fault Refusal :=
  finishRequest s t p g deskOnly (reqCameraSet camera items)

/-- TRIGGER_SET. -/
def execTriggerSet (t : HubTime) (p : PortNo) (g : Tag) (camera : Option Nat) (angles : Option (List Nat)) (s : State) :
    Host.Outcome State Fault Refusal :=
  finishRequest s t p g deskOnly (reqTriggerSet camera angles)

/-- TRIGGER_FIRE. -/
def execTriggerFire (t : HubTime) (camera : Fin 4) (s : State) : Host.Outcome State Fault Refusal :=
  finish s ((s.advance t).triggerFire camera)

/-- TRIGGER_PULSE_END. -/
def execTriggerPulseEnd (t : HubTime) (camera : Fin 4) (s : State) : Host.Outcome State Fault Refusal :=
  finish s ((s.advance t).pulseEnd camera)

end Sys2Proof.Machine
end

