-- ==== Sys2Proof/Machine/Frames.lean ====
section
/-! DEFINITION. The byte layouts of the ring frames (section 11.3), the lengths that R1 and R187 ask of them, and how the
payload of a data frame is written and read. -/

namespace Sys2Proof.Machine

/-! ### Codes -/

/-- The kind code of a data frame. -/
def dataKindCode : DataKind → Nat
  | .edit => 0x10
  | .editReply => 0x11
  | .imageBegin => 0x20
  | .imageReply => 0x21
  | .imageSegment => 0x22
  | .imageAbort => 0x23
  | .subscribe => 0x30
  | .subscribeReply => 0x31
  | .unsubscribe => 0x32
  | .viewUpdate => 0x33

/-- The code of an IMAGE REPLY status. -/
def replyStatusCode : ReplyStatus → Nat
  | .accept => 0
  | .busy => 1
  | .complete => 2
  | .unlisted c => c.toNat

/-- The IMAGE REPLY status with a code, one byte. A code that section 11.3 does not list is handed on as it is (R187). -/
def replyStatusOf : Nat → ReplyStatus
  | 0 => .accept
  | 1 => .busy
  | 2 => .complete
  | n => .unlisted (BitVec.ofNat 8 n)

/-- The code of an IMAGE ABORT reason. -/
def abortReasonCode : AbortReason → Nat
  | .sequence => 0
  | .timeout => 1
  | .badBegin => 2
  | .noTransfer => 3
  | .unlisted c => c.toNat

/-- The IMAGE ABORT reason with a code, one byte (R187). -/
def abortReasonOf : Nat → AbortReason
  | 0 => .sequence
  | 1 => .timeout
  | 2 => .badBegin
  | 3 => .noTransfer
  | n => .unlisted (BitVec.ofNat 8 n)

/-- The code of a SUBSCRIBE REPLY status. -/
def subStatusCode : SubStatus → Nat
  | .accept => 0
  | .full => 1
  | .badArgument => 2
  | .unlisted c => c.toNat

/-- The SUBSCRIBE REPLY status with a code, one byte (R187). -/
def subStatusOf : Nat → SubStatus
  | 0 => .accept
  | 1 => .full
  | 2 => .badArgument
  | n => .unlisted (BitVec.ofNat 8 n)

/-- The code of a mode. -/
def modeCode : Mode → Nat
  | .grey => 0
  | .cmyk => 1

/-- The mode with a code. -/
def modeOf : Nat → Option Mode
  | 0 => some .grey
  | 1 => some .cmyk
  | _ => none

/-! ### The payloads of data frames -/

/-- The kind of a payload. -/
def DataPayload.kind : DataPayload → DataKind
  | .edit .. => .edit
  | .editReply .. => .editReply
  | .imageBegin .. => .imageBegin
  | .imageReply .. => .imageReply
  | .imageSegment .. => .imageSegment
  | .imageAbort .. => .imageAbort
  | .subscribe .. => .subscribe
  | .subscribeReply .. => .subscribeReply
  | .unsubscribe .. => .unsubscribe
  | .viewUpdate .. => .viewUpdate

/-- The stamp, angle and cycle of an IMAGE BEGIN; an UNKNOWN stamp carries zeros. -/
def stampBytes : SentStamp → List Byte
  | .known a c => beBytes 1 1 ++ beBytes 3 a.toNat ++ beBytes 2 c.toNat
  | .unknown => beBytes 1 0 ++ beBytes 3 0 ++ beBytes 2 0

/-- The bytes of a payload. -/
def DataPayload.bytes : DataPayload → List Byte
  | .edit ref slot amount => beBytes 2 ref.toNat ++ beBytes 1 slot ++ beBytes 4 amount
  | .editReply ref st amount serial =>
    beBytes 2 ref.toNat ++ beBytes 1 (Status.code st) ++ beBytes 4 amount ++ beBytes 2 serial.toNat
  | .imageBegin f =>
    beBytes 2 f.strip ++ beBytes 2 f.number.toNat ++ beBytes 1 f.camera ++ beBytes 1 f.mode ++ beBytes 2 f.width
      ++ beBytes 1 f.rows ++ beBytes 4 f.byteSize ++ beBytes 2 f.segCount ++ stampBytes f.stamp
  | .imageReply strip number st rx =>
    beBytes 2 strip ++ beBytes 2 number.toNat ++ beBytes 1 (replyStatusCode st) ++ beBytes 2 rx
  | .imageSegment strip number seg count bs =>
    beBytes 2 strip ++ beBytes 2 number.toNat ++ beBytes 2 seg ++ beBytes 2 count ++ bs
  | .imageAbort toReceiver strip number reason =>
    flagByte toReceiver ++ beBytes 2 strip ++ beBytes 2 number.toNat ++ beBytes 1 (abortReasonCode reason)
  | .subscribe view sub kind index rate =>
    beBytes 1 view ++ beBytes 2 sub.toNat ++ beBytes 1 kind ++ beBytes 1 index ++ beBytes 1 rate
  | .subscribeReply view sub st => beBytes 1 view ++ beBytes 2 sub.toNat ++ beBytes 1 (subStatusCode st)
  | .unsubscribe view sub => beBytes 1 view ++ beBytes 2 sub.toNat
  | .viewUpdate view sub content =>
    let bs := match content with
      | some l => itemsBytes l
      | none => []
    beBytes 1 view ++ beBytes 2 sub.toNat ++ beBytes 2 bs.length ++ bs

/-- Bytes `off` to `off + n` as an unsigned number. -/
def field (bs : List Byte) (off n : Nat) : Nat := ofBytes ((bs.drop off).take n)

/-- The payload length fits the kind (R187). DESIGN CHOICE (notes/assumptions/59.md): an IMAGE SEGMENT is held to 8 plus its byte
count alone, so that byte counts of 0 and above 1,024, whose lengths section 11.3 does not list, are handed on. -/
def payloadFits (kind : DataKind) (bs : List Byte) : Bool :=
  match kind with
  | .edit => decide (bs.length = 7)
  | .editReply => decide (bs.length = 9)
  | .imageBegin => decide (bs.length = 21)
  | .imageReply => decide (bs.length = 7)
  | .imageSegment => decide (8 ≤ bs.length) && decide (bs.length = 8 + field bs 6 2)
  | .imageAbort => decide (bs.length = 6)
  | .subscribe => decide (bs.length = 6)
  | .subscribeReply => decide (bs.length = 4)
  | .unsubscribe => decide (bs.length = 3)
  | .viewUpdate => decide (5 ≤ bs.length) && decide (bs.length = 5 + field bs 3 2)

/-- The fields of a payload that fits its kind. A code that its table does not list is kept for the block that handles the
kind (R187). DESIGN CHOICE (notes/assumptions/17.md): the spec lists two directions of an IMAGE ABORT and two stamps of an
IMAGE BEGIN; any other direction is read as TO SENDER and any other stamp as UNKNOWN. -/
def payloadFields (kind : DataKind) (bs : List Byte) : DataPayload :=
  let b16 (off : Nat) : BitVec 16 := BitVec.ofNat 16 (field bs off 2)
  match kind with
  | .edit => .edit (b16 0) (field bs 2 1) (ofBytesSigned ((bs.drop 3).take 4))
  | .editReply => .editReply (b16 0) (statusOf (field bs 2 1)) (ofBytesSigned ((bs.drop 3).take 4)) (b16 7)
  | .imageBegin =>
    .imageBegin
      { strip := field bs 0 2, number := b16 2, camera := field bs 4 1, mode := field bs 5 1, width := field bs 6 2,
        rows := field bs 8 1, byteSize := field bs 9 4, segCount := field bs 13 2,
        stamp := if field bs 15 1 = 1 then .known (BitVec.ofNat 24 (field bs 16 3)) (b16 19) else .unknown }
  | .imageReply => .imageReply (field bs 0 2) (b16 2) (replyStatusOf (field bs 4 1)) (field bs 5 2)
  | .imageSegment => .imageSegment (field bs 0 2) (b16 2) (field bs 4 2) (field bs 6 2) (bs.drop 8)
  | .imageAbort =>
    .imageAbort (decide (field bs 0 1 = 1)) (field bs 1 2) (b16 3) (abortReasonOf (field bs 5 1))
  | .subscribe => .subscribe (field bs 0 1) (b16 1) (field bs 3 1) (field bs 4 1) (field bs 5 1)
  | .subscribeReply => .subscribeReply (field bs 0 1) (b16 1) (subStatusOf (field bs 3 1))
  | .unsubscribe => .unsubscribe (field bs 0 1) (b16 1)
  | .viewUpdate =>
    .viewUpdate (field bs 0 1) (b16 1) (if bs.length = 5 then none else some (readItemsFuel bs.length (bs.drop 5)))

/-- A payload read field by field; none where its length does not fit its kind (R187). -/
def readPayload (kind : DataKind) (bs : List Byte) : Option DataPayload :=
  if payloadFits kind bs then some (payloadFields kind bs) else none

/-- An own frame as a data frame on the fibre, from a hub address. -/
def OwnFrame.fields (f : OwnFrame) (src : Nat) : DataFields :=
  let bs := f.payload.bytes
  { kind := f.payload.kind, dst := f.dst, src := src, payloadLen := bs.length, payload := bs }

/-! ### Lengths (R1) -/

/-- The length that the kind of a frame gives; none for an unknown kind. -/
def bodyLength : FrameBody → Option Nat
  | .census _ => some 13
  | .roster _ => some 17
  | .cycle _ => some 27
  | .data f => some (9 + f.payloadLen)
  | .unknown _ => none

/-- A frame is corrupt: its CRC fails, its length is not that of its kind, or its kind is unknown (R1). -/
def frameCorrupt (f : Frame) : Bool := !f.crcGood || decide (bodyLength f.body ≠ some f.length)

/-- The same for an arrived CENSUS. -/
def censusCorrupt (f : Inbound CensusFields) : Bool := frameCorrupt ⟨.census f.fields, f.length, f.crcGood⟩
/-- The same for an arrived ROSTER. -/
def rosterCorrupt (f : Inbound RosterFields) : Bool := frameCorrupt ⟨.roster f.fields, f.length, f.crcGood⟩
/-- The same for an arrived cycle frame. -/
def cycleCorrupt (f : Inbound CycleFields) : Bool := frameCorrupt ⟨.cycle f.fields, f.length, f.crcGood⟩
/-- The same for an arrived data frame; a payload longer than 1,040 bytes has no length of a data frame (section 1.1). -/
def dataCorrupt (f : Inbound DataFields) : Bool :=
  frameCorrupt ⟨.data f.fields, f.length, f.crcGood⟩ || decide (1040 < f.fields.payloadLen)

/-- A frame is cut at 1,049 bytes and ends with a wrong CRC (R1). DESIGN CHOICE (notes/assumptions/62.md): the wrong CRC is the
last of the bytes kept, so that the frame is as long as they are. -/
def cutAt (n : Nat) (f : Frame) : Frame := if n < f.length then { f with length := n, crcGood := false } else f

/-! ### The bytes on the fibre -/

/-- A group of the trip classes in three bits. -/
def groupBits (g : ClassGroup) : Nat := (if g.sync then 1 else 0) + (if g.quick then 2 else 0) + (if g.coast then 4 else 0)

/-- The bytes of a frame before its CRC. -/
def frameHead : FrameBody → List Byte
  | .census f =>
    beBytes 1 0x02 ++ beBytes 2 f.number.toNat ++ beBytes 4 f.stamp.toNat ++ beBytes 1 f.count ++ flagByte f.overflow
  | .roster f =>
    beBytes 1 0x03 ++ beBytes 2 f.number.toNat ++ beBytes 4 f.stamp.toNat ++ beBytes 1 f.hubCount
      ++ beBytes 1 f.period.val ++ beBytes 4 f.dpub
  | .cycle f =>
    beBytes 1 0x01 ++ beBytes 2 f.number.toNat ++ beBytes 1 (f.period.val * 64 + (f.hubCount - 1) % 64)
      ++ beBytes 3 ((shaftFlagBits f.flags + (if f.resetRequest then 1 else 0)) * 1048576 + f.dpub % 131072)
      ++ beBytes 2 f.age ++ beBytes 5 f.angle.toNat ++ beBytes 4 f.v
      ++ beBytes 1 (groupBits f.classes.gathered + 16 * groupBits f.classes.carried) ++ beBytes 4 f.mask.toNat
  | .data f =>
    beBytes 1 (dataKindCode f.kind) ++ beBytes 1 f.dst ++ beBytes 1 f.src ++ beBytes 2 f.payloadLen ++ f.payload
  | .unknown c => [c]

/-- The bytes of an intact frame: the head and the CRC computed over it (R1). -/
def frameBytes (b : FrameBody) : List Byte := frameHead b ++ beBytes 4 (Config.crc32 (frameHead b)).toNat

end Sys2Proof.Machine
end

