-- ==== Sys2Proof/Machine/Setpoints.lean ====
section
/-! DEFINITION. The section cycle step, the publication of setpoint records, and the drive's requests (R47 to R52, R63 to
R70). -/

namespace Sys2Proof.Machine

/-- What the tracker hands the Section Engine at a step (section 3.2). -/
structure StepInput where
  dm : Int
  cycle : BitVec 16
  p : HubTime
  late : Bool
  extrapolated : Bool
deriving DecidableEq, Repr

/-! ### The stages of one slot (R47) -/

/-- Stage 1: the posted changes, oldest first; in LOCKOUT a section that leaves VACANT is ordered RELEASED at once (R48,
R103). DESIGN CHOICE (notes/assumptions/41.md): the order comes when the whole list has been applied, so it discards none of
it and no fence is answered DISCARDED for it. -/
def Section.applyPosted (x : Section) (lockout : Bool) : Section :=
  let y := { x.latest with posted := [] }
  if lockout = true ∧ x.state = .vacant ∧ y.state ≠ .vacant then { y with state := .released } else y

/-- Stage 2: the correction sum (R49). With no correction delivered since the last step nothing is stored, and AT LIMIT stays
as stage 1 left it (R56, and the worked case of section 3.2). -/
def Section.applySum (x : Section) : Section :=
  let y := if x.state = .coupled ∧ x.corrHeld = true then x.storeTt (x.tt + x.corrSum) else x
  { y with corrSum := 0, corrHeld := false }

/-- Stage 3, COUPLE: the section and the response (R63). DESIGN CHOICE (notes/assumptions/64.md): a section that left VACANT
during a trip passes the same checks, and so is coupled at rest while the effective class is below QUICK (R101). -/
def State.coupleCheck (s : State) (x : Section) : Section × Status :=
  if s.tu.state = .lockout then (x, .lockedOut)
  else if x.state ≠ .idle then (x, .badState)
  else if 3 ≤ s.effectiveClass.rank then (x, .badState)
  else if s.su.tracker.flags.atRest = false then (x, .notAtRest)
  else ({ x with state := .coupled, r := 0 }, .done)

/-- Stage 3, DECOUPLE (R64). -/
def State.decoupleCheck (s : State) (x : Section) : Section × Status :=
  if x.state ≠ .coupled then (x, .badState)
  else if s.su.tracker.flags.atRest = false then (x, .notAtRest)
  else ({ x with state := .idle }, .done)

/-- Stage 3, SET POSITION (R65). -/
def setPositionCheck (x : Section) (a : Angle) : Section × Status :=
  if x.state = .idle ∨ x.state = .held then ({ x with position := a }, .done) else (x, .badState)

/-- Stage 3: one waiting request checked against a section. -/
def State.checkWaiting (s : State) (x : Section) (k : WaitKind) : Section × Status :=
  match k with
  | .couple => s.coupleCheck x
  | .decouple => s.decoupleCheck x
  | .setPosition a => setPositionCheck x a

/-- Stage 4, the gear: the section with its new remainder, and q (R50). -/
def Section.gear (x : Section) (dm : Int) : Section × Int :=
  let v := dm * x.n + x.r
  ({ x with r := (Int.fmod v x.d).toNat }, Int.fdiv v x.d)

/-- Stage 4, the slew: the section with its new Ca, and the step (R51). -/
def Section.slewStep (x : Section) : Section × Int :=
  let step := clampInt (-(x.slew : Int)) x.slew (x.ct - x.ca)
  ({ x with ca := x.ca + step }, step)

/-- Stage 4: the section moved, and Δs (R50 to R52). -/
def Section.move (x : Section) (dm : Int) : Section × Int :=
  if x.state = .coupled then
    let g := x.gear dm
    let w := g.1.slewStep
    let delta := g.2 + w.2
    ({ w.1 with position := w.1.position + BitVec.ofInt 24 delta }, delta)
  else (x, 0)

/-- Stages 5 and 6: the flags of the step, the record prepared (R66) and armed, replacing one still armed (R67). -/
def Section.prepare (x : Section) (i : SlotNo) (k : StepInput) (delta : Int) (positionSet : Bool) : Section :=
  { x with
    late := k.late
    extrapolated := k.extrapolated
    armed := some
      { record :=
          { slot := i, cycle := k.cycle, position := x.position, delta := delta, state := x.state, late := k.late,
            extrapolated := k.extrapolated, correcting := x.correcting, positionSet := positionSet }
        due := k.p } }

/-! ### The step of the Section Engine -/

/-- Stage 3 over the requests that name a slot, in the order they arrived, each an event of its own (R164,
notes/assumptions/55.md); answers them. The flag says whether a SET POSITION was carried out. -/
def State.checkList : List Waiting → Bool → State → State × Bool
  | [], set, s => (s, set)
  | w :: rest, set, s =>
    let r := s.checkWaiting (s.slot w.slot) w.kind
    let done := match w.kind with
      | .setPosition _ => decide (r.2 = .done)
      | .couple | .decouple => false
    State.checkList rest (set || done) ((s.event (fun a => a.onSlot w.slot (fun _ => r.1))).respond w.port w.tag r.2 [])

/-- The requests that wait for a slot leave the waiting list and are checked. -/
def State.checkSlot (s : State) (i : SlotNo) : State × Bool :=
  State.checkList (s.se.waiting.filter (fun w => w.slot == i)) false
    (s.onSe (fun e => { e with waiting := e.waiting.filter (fun w => w.slot != i) }))

/-- One slot taken through the stages of R47. A VACANT slot with an empty list is passed over, but a request that waits
for it is answered (notes/assumptions/24.md). -/
def State.stepSlot (k : StepInput) (s : State) (i : SlotNo) : State :=
  if (s.slot i).state = .vacant ∧ (s.slot i).posted = [] then (s.checkSlot i).1
  else
    let lockout := decide (s.tu.state = .lockout)
    let s1 := (s.onSlot i (fun x => x.applyPosted lockout)).resolveApplied i
    let r := (s1.onSlot i Section.applySum).checkSlot i
    r.1.onSlot i (fun x => (x.move k.dm).1.prepare i k (x.move k.dm).2 r.2)

/-! ### Publication (R67, R69) -/

/-- The miss count after a publication of `x`, and whether it exceeds the tolerance; none where the publication is not
supervised (R69). -/
def Section.supervise (x : Section) (new : SetpointRecord) : Option (Nat × Bool) :=
  if new.state = .vacant ∨ new.state = .released ∨ x.tol = 0 then none
  else
    let n := match x.published with
      | none => 0
      | some old =>
        if old.record.state = .released ∨ old.picked then 0 else if x.miss < 255 then x.miss + 1 else 255
    some (n, decide (x.tol < n))

/-- The armed record becomes the published record, not picked, and SETPOINT is set on the drive port (R67, 2 and 3). -/
def State.publishRecord (s : State) (i : SlotNo) (rec : SetpointRecord) : State :=
  (s.onSlot i (fun x => { x with armed := none, published := some ⟨rec, false⟩ })).notifyPort (s.slot i).port .setpoint

/-- A publication (R67). -/
def State.publish (s : State) (i : SlotNo) (a : Armed) : State :=
  match (s.slot i).supervise a.record with
  | none => s.publishRecord i a.record
  | some (n, silent) =>
    let s1 := s.onSlot i (fun x => { x with miss := n })
    (if silent then s1.raiseSlot .driveSilent i else s1).publishRecord i a.record

/-- The event SETPOINT_PUBLICATION of a slot: its armed record's instant has come. -/
def State.publishDue (s : State) (i : SlotNo) : State :=
  match (s.slot i).armed with
  | some a => if isDue a.due s.hubTime then s.publish i a else s
  | none => s

/-- The cycle step of the Section Engine (R47): every slot, then the records whose instant has already come (R67,
notes/assumptions/12.md). DESIGN CHOICE (notes/assumptions/43.md): slots 0 to 15 in that order, in which the responses of the
step join a port's queue. -/
def State.sectionStep (s : State) (k : StepInput) : State :=
  (List.finRange 16).foldl State.publishDue ((List.finRange 16).foldl (State.stepSlot k) s)

/-! ### SETPOINT PICKUP and DRIVE STATUS (R68, R70) -/

/-- SETPOINT PICKUP (R68). DESIGN CHOICE (notes/assumptions/40.md): once a drive port change is applied the new port alone
may pick up, the record published before it too. -/
def reqSetpointPickup (p : PortNo) (slot : Option Nat) (s : State) : State × Reply :=
  match argFin 16 slot with
  | none => (s, status .badArgument)
  | some i =>
    let x := s.slot i
    match x.state, x.published with
    | .vacant, _ => (s, status .badState)
    | _, none => (s, status .badState)
    | _, some r =>
      if p ≠ x.port then (s, status .notYours)
      else (s.onSlot i (fun y => { y with published := some { r with picked := true } }), some (.done, r.record.bytes))

/-- A report that passed is held, and its flags raise their causes (R70). -/
def State.takeReport (s : State) (i : SlotNo) (r : DriveReport) : State :=
  let s1 := s.onSlot i (fun x => { x with report := some r })
  let s2 := if r.fault then s1.raiseSlot .driveFault i else s1
  if r.following then s2.raiseSlot .followingError i else s2

/-- DRIVE STATUS (R70). -/
def reqDriveStatus (p : PortNo) (slot : Option Nat) (ready fault following : Option Bool) (position : Option Nat)
    (s : State) : State × Reply :=
  match argFin 16 slot, ready, fault, following, argFin 16777216 position with
  | some i, some a, some b, some c, some d =>
    let x := s.slot i
    if x.state = .vacant then (s, status .badState)
    else if p ≠ x.port then (s, status .notYours)
    else
      (s.takeReport i { ready := a, fault := b, following := c, position := BitVec.ofNat 24 d.val }, status .done)
  | _, _, _, _, _ => (s, status .badArgument)

/-! ### The commands -/

/-- SETPOINT_PUBLICATION. -/
def execSetpointPublication (t : HubTime) (slot : SlotNo) (s : State) : Host.Outcome State Fault Refusal :=
  finish s ((s.advance t).publishDue slot)

/-- SETPOINT_PICKUP. -/
def execSetpointPickup (t : HubTime) (p : PortNo) (g : Tag) (slot : Option Nat) (s : State) :
    Host.Outcome State Fault Refusal :=
  finishRequest s t p g driveOnly (reqSetpointPickup p slot)

/-- DRIVE_STATUS. -/
def execDriveStatus (t : HubTime) (p : PortNo) (g : Tag) (slot : Option Nat) (ready fault following : Option Bool)
    (position : Option Nat) (s : State) : Host.Outcome State Fault Refusal :=
  finishRequest s t p g driveOnly (reqDriveStatus p slot ready fault following position)

end Sys2Proof.Machine
end

