-- ==== Sys2Proof/Machine/ImageMover.lean ====
section
/-! DEFINITION. The Image Mover: the sender, the reception contexts and the control store (R133 to R149). -/

namespace Sys2Proof.Machine

/-! ### Deliveries (R3, R4) -/

/-- The corrupt count goes up by one (R4). -/
def State.countCorrupt (s : State) : State := s.onRc (fun r => { r with corruptCount := satInc r.corruptCount })

/-- An address that a frame from another hub may come from, at a hub in RUNNING: below the hub count and not the hub's own
(R3). -/
def State.goodSource (s : State) (src : Nat) : Bool := s.knownHub src && !s.ownAddress src

/-- What has been removed for this hub reaches its block in RUNNING alone (R143, R148). DEDUCED (notes/assumptions/3.md): a
hub that has left RUNNING since the header came delivers nothing. -/
def State.whenRunning (s : State) (act : State → State) : State := if s.running then act s else s

/-- A delivered data frame with a payload of `length` bytes: one that came to a hub not in RUNNING is not taken, a bad source
address is counted, and the others reach their block (R3, R4, notes/assumptions/3.md). -/
def State.deliverFrom (s : State) (src length : Nat) (act : State → State) : State :=
  if s.examines (9 + length) = false then s else if s.goodSource src then s.whenRunning act else s.countCorrupt

/-! ### The control store (R147) -/

/-- A claim of a RECEIVING context whose place is empty: no ACCEPT of it waits in the store. -/
def IM.emptyClaim (m : IM) (c : Fin 2) : Bool :=
  (m.contexts.get c).isSome && !m.store.any (fun e => e.place == .accept c)

/-- The places taken: frames in the store and claims whose place is empty. -/
def IM.placesTaken (m : IM) : Nat :=
  m.store.length + ((List.finRange 2).filter (fun c => m.emptyClaim c)).length

/-- A general place is free. -/
def IM.generalFree (m : IM) : Bool := decide (m.placesTaken < 4)

/-- The number of claims: one of each RECEIVING context, and one of each final frame that has not left the store. DESIGN
CHOICE (notes/assumptions/46.md): a context that is reused before its final frame has left counts with both. -/
def IM.claims (m : IM) : Nat :=
  (m.contexts.list.filter Option.isSome).length + (m.store.filter (fun e => e.place == .final)).length

/-- A frame joins the store and is offered. -/
def State.storeControl (s : State) (e : StoreEntry) : State :=
  (s.onIm (fun m => { m with store := m.store ++ [e] })).offerControl .imageMover

/-- A control frame found no place: it is counted as not made (R147). -/
def State.countNotMade (s : State) : State := s.onIm (fun m => { m with notMade := satInc m.notMade })

/-- A frame that needs a general place: made where one is free, else counted as not made. -/
def State.makeGeneral (s : State) (f : OwnFrame) : State :=
  if s.im.generalFree then s.storeControl ⟨f, .general⟩ else s.countNotMade

/-- The final frame takes the position of an ACCEPT still waiting, or joins the store. -/
def placeFinal (store : List StoreEntry) (c : Fin 2) (f : OwnFrame) : List StoreEntry :=
  if store.any (fun e => e.place == .accept c) then
    store.map (fun e => if e.place == .accept c then ⟨f, .final⟩ else e)
  else store ++ [⟨f, .final⟩]

/-- A context's final frame is made in its claimed place; the context is FREE by then. -/
def State.makeFinal (s : State) (c : Fin 2) (f : OwnFrame) : State :=
  (s.onIm (fun m => { m with store := placeFinal m.store c f })).offerControl .imageMover

/-- A block whose last kept frame was withdrawn no longer waits for the control queue (R25). DESIGN CHOICE
(notes/assumptions/67.md): it has lost its turn. -/
def RC.stopWaiting (r : RC) (b : Block) : RC := { r with controlWaiters := r.controlWaiters.filter (fun w => w != b) }

/-- The claim of a context is released without a final frame: an ACCEPT still waiting is withdrawn (R147). DESIGN CHOICE
(notes/assumptions/67.md): where it was the mover's only waiting frame, the mover's wait for the control queue ends, and a frame
made later in the same event waits behind the blocks that wait. -/
def State.dropClaim (s : State) (c : Fin 2) : State :=
  let left := s.im.store.filter (fun e => e.place != .accept c)
  let s1 := s.onIm (fun m => { m with store := left })
  if left = [] ∧ s.im.store ≠ [] then s1.onRc (fun r => r.stopWaiting .imageMover) else s1

/-- An IMAGE ABORT TO SENDER. -/
def abortToSender (dst strip : Nat) (number : BitVec 16) (reason : AbortReason) : OwnFrame :=
  ⟨dst, .imageAbort false strip number reason⟩

/-! ### The image pending frame (R25, R140) -/

/-- The sender offers a frame to the image pending place; it waits while the place holds another. -/
def State.offerImage (s : State) (f : OwnFrame) : State :=
  if s.rc.imagePending = none ∧ s.im.offered = [] then s.onRc (fun r => { r with imagePending := some f })
  else s.onIm (fun m => { m with offered := m.offered ++ [f] })

/-- The image pending frame has started: the place takes the next frame offered. -/
def State.freeImagePlace (s : State) : State :=
  (s.onRc (fun r => { r with imagePending := s.im.offered.head? })).onIm (fun m => { m with offered := m.offered.tail })

/-! ### The sender (R135 to R141) -/

/-- The segments of a byte size. -/
def segmentsFor (byteSize : Nat) : Nat := ceilDiv byteSize 1024

/-- The stamp that an IMAGE BEGIN carries. -/
def Stamp.sent : Stamp → SentStamp
  | .known a c => .known a c
  | .unknown | .pending _ _ => .unknown

/-- The IMAGE BEGIN of a strip (R136, 2). -/
def Strip.begin (x : Strip) (number : BitVec 16) : BeginFields :=
  { strip := x.id, number := number, camera := x.camera.val, mode := modeCode x.mode, width := x.width, rows := x.rows,
    byteSize := x.byteSize, segCount := segmentsFor x.byteSize, stamp := x.stamp.sent }

/-- An attempt begins (R136). -/
def State.beginAttempt (s : State) : State :=
  match s.im.transfer with
  | none => s
  | some k =>
    match s.strip k.strip with
    | none => s
    | some x =>
      let n := s.im.transferCount + 1
      (s.onIm (fun m =>
        { m with transferCount := n, transfer := some { k with number := n }, sender := .beginSent, timer := none })).offerImage
        ⟨k.dst, .imageBegin (x.begin n)⟩

/-- The sender takes the head of its queue, if it can: the event SENDER_TAKE_HEAD, and the look for a new head at the end of
a transfer (R135, R141). DESIGN CHOICE (notes/assumptions/42.md): until the ACCEPT sets it the next segment number is 0, as
HUB INFO gives it in BEGIN SENT and RETRY WAIT (R149). -/
def State.takeHead (s : State) : State :=
  match s.im.sendQueue with
  | [] => s
  | (id, dst) :: rest =>
    match s.strip id with
    | none => s
    | some x =>
      if s.im.sender = .idle ∧ s.running = true ∧ x.stamp.isPending = false then
        (s.onIm (fun m =>
          { m with
            sendQueue := rest
            transfer := some { strip := id, dst := dst, number := 0, attempt := 1,
                               segCount := segmentsFor x.byteSize, nextSeg := 0, receiverStrip := none } })).beginAttempt
      else s

/-- A transfer in hand ends, done or dropped, up to the look for a new head (R141, 1 to 3). -/
def State.closeTransfer (s : State) (k : Transfer) (done : Bool) : State :=
  let s1 := s.onStrip k.strip (fun x => { x with sending := x.sending.filter (fun h => h != k.dst) })
  let s2 := if done then s1 else s1.notify .imageDropped
  s2.onIm (fun m =>
    { m with
      timer := none
      transfer := none
      sender := .idle
      transfersDone := if done then satInc m.transfersDone else m.transfersDone
      transfersDropped := if done then m.transfersDropped else satInc m.transfersDropped })

/-- The transfer in hand ends, done or dropped, and the sender looks at once for a new head (R141). -/
def State.endTransfer (s : State) (done : Bool) : State :=
  match s.im.transfer with
  | none => s
  | some k => (s.closeTransfer k done).takeHead

/-- The attempt in hand has failed (R137). DESIGN CHOICE (notes/assumptions/42.md): the transfer in hand keeps the failed
attempt's number in RETRY WAIT, and HUB INFO gives it (R149). -/
def State.attemptFailed (s : State) : State :=
  match s.im.transfer with
  | none => s
  | some k =>
    if k.attempt < 8 then
      s.onIm (fun m =>
        { m with transfer := some { k with attempt := k.attempt + 1 }, timer := some ⟨0, 2⟩, sender := .retryWait })
    else s.endTransfer false

/-- The running sender timer stands at its limit, in a state. -/
def State.senderTimedOut (s : State) (st : SenderState) : Bool :=
  decide (s.im.sender = st) &&
    (match s.im.timer with
     | some c => decide (c.limit ≤ c.count)
     | none => false)

/-- The event BEGIN_TIMEOUT (R137). -/
def State.beginTimeout (s : State) : State := if s.senderTimedOut .beginSent then s.attemptFailed else s

/-- The event RETRY_WAIT_EXPIRY (R137). -/
def State.retryWaitExpiry (s : State) : State := if s.senderTimedOut .retryWait then s.beginAttempt else s

/-- The event AWAIT_COMPLETE_TIMEOUT (R139). -/
def State.awaitCompleteTimeout (s : State) : State :=
  if s.senderTimedOut .awaitComplete then
    match s.im.transfer with
    | some k => (s.makeGeneral ⟨k.dst, .imageAbort true k.strip k.number .timeout⟩).endTransfer false
    | none => s
  else s

/-- Segment `i` of a strip (R138). -/
def State.segment (s : State) (k : Transfer) (x : Strip) (i : Nat) : OwnFrame :=
  let n := if i + 1 < k.segCount then 1024 else x.byteSize - (k.segCount - 1) * 1024
  ⟨k.dst, .imageSegment k.strip k.number i n (tileBytes s.is.mem x.tiles (i * 1024) n)⟩

/-- The sender offers the segment of its next segment number. -/
def State.offerSegment (s : State) (k : Transfer) : State :=
  match s.strip k.strip with
  | some x => s.offerImage (s.segment k x k.nextSeg)
  | none => s

/-- The Ring Controller tells the sender that its frame has gone (R136, R138, R140). -/
def State.imageGone (s : State) (f : OwnFrame) : State :=
  match s.im.transfer, f.payload with
  | some k, .imageBegin b =>
    if s.im.sender = .beginSent ∧ b.number = k.number then s.onIm (fun m => { m with timer := some ⟨0, 4⟩ }) else s
  | some k, .imageSegment _ number _ _ _ =>
    if s.im.sender = .sending ∧ number = k.number then
      let k1 := { k with nextSeg := k.nextSeg + 1 }
      if k1.nextSeg = k.segCount then
        s.onIm (fun m => { m with transfer := some k1, sender := .awaitComplete, timer := some ⟨0, 8⟩ })
      else (s.onIm (fun m => { m with transfer := some k1 })).offerSegment k1
    else s
  | _, _ => s

/-- The transfer in hand, when a reply or an abort from a hub names it. -/
def State.inHand (s : State) (src : Nat) (number : BitVec 16) : Option Transfer :=
  s.im.transfer.filter (fun k => decide (k.dst = src) && decide (k.number = number))

/-- A delivered IMAGE REPLY (R137, R139, R140). -/
def State.takeReply (s : State) (src : Nat) (number : BitVec 16) (st : ReplyStatus) (rx : Nat) : State :=
  match s.inHand src number with
  | none => s
  | some k =>
    match st, s.im.sender with
    | .accept, .beginSent =>
      let k1 := { k with receiverStrip := some rx, nextSeg := 0 }
      (s.onIm (fun m => { m with transfer := some k1, timer := none, sender := .sending })).offerSegment k1
    | .busy, .beginSent => s.attemptFailed
    | .complete, .awaitComplete => s.endTransfer true
    | _, _ => s

/-- A delivered IMAGE ABORT TO SENDER (R140). -/
def State.takeAbortToSender (s : State) (src : Nat) (number : BitVec 16) (reason : AbortReason) : State :=
  let s1 := s.onIm (fun m => { m with abortsToSender := satInc m.abortsToSender })
  match s.inHand src number, s.im.sender with
  | some _, .beginSent | some _, .sending | some _, .awaitComplete =>
    (s1.onIm (fun m => { m with lastAbort := some reason })).endTransfer false
  | _, _ => s1

/-! ### Reception (R142 to R146) -/

/-- A context becomes FREE and its reception is abandoned (R142). -/
def State.abandon (s : State) (c : Fin 2) (r : Reception) : State :=
  (s.onIm (fun m =>
    { m with contexts := m.contexts.set c none, receptionsAbandoned := satInc m.receptionsAbandoned })).abandonStrip
    r.strip r.reservation

/-- The RECEIVING context whose reception satisfies `p`. DESIGN CHOICE (notes/assumptions/57.md): context 0 where both do, as when
two receptions from one hub have the same transfer number (R144). -/
def State.findContext (s : State) (p : Reception → Bool) : Option (Fin 2 × Reception) :=
  match s.im.contexts.get 0, s.im.contexts.get 1 with
  | some r, x =>
    if p r then some (0, r)
    else
      match x with
      | some q => if p q then some (1, q) else none
      | none => none
  | none, some q => if p q then some (1, q) else none
  | none, none => none

/-- The lower-numbered FREE context. -/
def State.freeContext (s : State) : Option (Fin 2) :=
  if (s.im.contexts.get 0).isNone then some 0 else if (s.im.contexts.get 1).isNone then some 1 else none

/-- The camera and mode of a well-formed IMAGE BEGIN; none for a malformed one (R143, 3). -/
def beginOk (f : BeginFields) : Option (Fin 4 × Mode) :=
  match toFin 4 f.camera, modeOf f.mode with
  | some c, some m =>
    if 1 ≤ f.width ∧ f.width ≤ 4096 ∧ 1 ≤ f.rows ∧ f.rows ≤ 64 ∧ f.byteSize = f.width * Mode.bytesPerPixel m * f.rows
        ∧ f.byteSize ≤ 524288 ∧ f.segCount = segmentsFor f.byteSize then
      some (c, m)
    else none
  | _, _ => none

/-- An IMAGE REPLY of the receiver. -/
def replyFrame (src : Nat) (f : BeginFields) (st : ReplyStatus) (rx : Nat) : OwnFrame :=
  ⟨src, .imageReply f.strip f.number st rx⟩

/-- R143 from the control store on. A BEGIN that finds no general place is ignored, its reply not made (R143, R147). -/
def State.judgeBegin (s : State) (src : Nat) (f : BeginFields) : State :=
  if s.im.generalFree = false then s.countNotMade
  else
    match beginOk f with
    | none => s.makeGeneral (abortToSender src f.strip f.number .badBegin)
    | some (camera, mode) =>
      match s.freeContext with
      | none => s.makeGeneral (replyFrame src f .busy 0)
      | some c =>
        match s.reserve src f camera mode with
        | none => s.makeGeneral (replyFrame src f .busy 0)
        | some (s1, id, reservation) =>
          (s1.onIm (fun m =>
            { m with contexts := m.contexts.set c (some
                { src := src, srcStrip := f.strip, number := f.number, strip := id, reservation := reservation,
                  segCount := f.segCount, nextSeg := 0, timer := 0 }) })).storeControl
            ⟨replyFrame src f .accept id, .accept c⟩

/-- A delivered IMAGE BEGIN (R143): a reception of the same source strip is superseded first. -/
def State.takeBegin (s : State) (src : Nat) (f : BeginFields) : State :=
  match s.findContext (fun r => decide (r.src = src) && decide (r.srcStrip = f.strip)) with
  | some (c, r) => ((s.abandon c r).dropClaim c).judgeBegin src f
  | none => s.judgeBegin src f

/-- The reception of a context matched by source hub and transfer number (R144, R146). -/
def State.matchContext (s : State) (src : Nat) (number : BitVec 16) : Option (Fin 2 × Reception) :=
  s.findContext (fun r => decide (r.src = src) && decide (r.number = number))

/-- The byte count that a segment must have (R144). -/
def State.segmentSize (s : State) (r : Reception) (seg : Nat) : Nat :=
  if seg + 1 < r.segCount then 1024
  else
    match s.strip r.strip with
    | some x => x.byteSize - (r.segCount - 1) * 1024
    | none => 0

/-- A reception ends with an abort in its claimed place (R144, R146). -/
def State.abortReception (s : State) (c : Fin 2) (r : Reception) (reason : AbortReason) : State :=
  (s.abandon c r).makeFinal c (abortToSender r.src r.srcStrip r.number reason)

/-- A reception completes (R145). -/
def State.completeReception (s : State) (c : Fin 2) (r : Reception) : State :=
  ((s.fillStrip r.strip r.reservation).onIm (fun m =>
    { m with contexts := m.contexts.set c none, receptionsDone := satInc m.receptionsDone })).makeFinal c
    ⟨r.src, .imageReply r.srcStrip r.number .complete r.strip⟩

/-- A good segment is written (R144). -/
def State.storeSegment (s : State) (c : Fin 2) (r : Reception) (bytes : List Byte) : State :=
  let r1 := { r with nextSeg := r.nextSeg + 1, timer := 0 }
  let s1 := (s.onIs (fun st => { st with mem := tileStore st.mem r.reservation (r.nextSeg * 1024) bytes })).onIm (fun m =>
    { m with contexts := m.contexts.set c (some r1) })
  if r1.nextSeg = r.segCount then s1.completeReception c r1 else s1

/-- A delivered IMAGE SEGMENT (R144). -/
def State.takeSegment (s : State) (src strip : Nat) (number : BitVec 16) (seg count : Nat) (bytes : List Byte) : State :=
  match s.matchContext src number with
  | none => s.makeGeneral (abortToSender src strip number .noTransfer)
  | some (c, r) =>
    if seg ≠ r.nextSeg ∨ count ≠ s.segmentSize r seg then s.abortReception c r .sequence
    else s.storeSegment c r bytes

/-- The event SEGMENT_TIMEOUT of a context (R146). -/
def State.segmentTimeout (s : State) (c : Fin 2) : State :=
  match s.im.contexts.get c with
  | some r => if 8 ≤ r.timer then s.abortReception c r .timeout else s
  | none => s

/-- A delivered IMAGE ABORT TO RECEIVER (R146). -/
def State.takeAbortToReceiver (s : State) (src : Nat) (number : BitVec 16) : State :=
  match s.matchContext src number with
  | some (c, r) => (s.abandon c r).dropClaim c
  | none => s

/-! ### Cycle steps and ring loss (R16, R148) -/

/-- A running count of steps goes up; it stands at its limit until its expiry comes (notes/assumptions/18.md). -/
def StepTimer.tick (c : StepTimer) : StepTimer := { c with count := min c.limit (c.count + 1) }

/-- The timers of the Image Mover at a cycle step (R136, R137, R139, R146). -/
def IM.step (m : IM) : IM :=
  { m with
    timer := m.timer.map StepTimer.tick
    contexts := m.contexts.map (Option.map (fun r => { r with timer := min 8 (r.timer + 1) })) }

/-- The contexts that receive are abandoned (R148). DESIGN CHOICE (notes/assumptions/50.md): context 0 before context 1, which
orders their tiles on the free list. -/
def State.abandonAll (s : State) : State :=
  (List.finRange 2).foldl (fun s c =>
    match s.im.contexts.get c with
    | some r => s.abandon c r
    | none => s) s

/-- A strip without the SENDING pins of removed pairs. -/
def Strip.dropPairs (pairs : List (Nat × Nat)) (x : Strip) : Strip :=
  { x with sending := x.sending.filter (fun h => !pairs.contains (x.id, h)) }

/-- An entry to LOST or CONFLICT at the Image Mover (R148): the removed pairs and the transfer in hand are dropped, the
receptions abandoned, the control store emptied, and IMAGE DROPPED is set once. -/
def State.imageRingLoss (s : State) : State :=
  let pairs := s.im.sendQueue
  let inHand := s.im.transfer.map (fun k => (k.strip, k.dst))
  let dropped := pairs ++ inHand.toList
  let s1 := s.onIs (fun st => { st with strips := st.strips.map (Strip.dropPairs dropped) })
  let s2 := s1.onIm (fun m =>
    { m with
      sendQueue := []
      transfer := none
      sender := .idle
      timer := none
      offered := []
      transfersDropped := min 65535 (m.transfersDropped + dropped.length) })
  let s3 := s2.abandonAll.onIm (fun m => { m with store := [] })
  if dropped.isEmpty then s3 else s3.notify .imageDropped

/-! ### The commands -/

/-- SENDER_TAKE_HEAD. -/
def execSenderTakeHead (t : HubTime) (s : State) : Host.Outcome State Fault Refusal := finish s (s.advance t).takeHead

/-- BEGIN_TIMEOUT. -/
def execBeginTimeout (t : HubTime) (s : State) : Host.Outcome State Fault Refusal := finish s (s.advance t).beginTimeout

/-- RETRY_WAIT_EXPIRY. -/
def execRetryWaitExpiry (t : HubTime) (s : State) : Host.Outcome State Fault Refusal :=
  finish s (s.advance t).retryWaitExpiry

/-- AWAIT_COMPLETE_TIMEOUT. -/
def execAwaitCompleteTimeout (t : HubTime) (s : State) : Host.Outcome State Fault Refusal :=
  finish s (s.advance t).awaitCompleteTimeout

/-- IMAGE_REPLY. -/
def execImageReply (t : HubTime) (src _strip : Nat) (number : BitVec 16) (st : ReplyStatus) (rx : Nat) (s : State) :
    Host.Outcome State Fault Refusal :=
  finish s ((s.advance t).deliverFrom src 7 (fun s => s.takeReply src number st rx))

/-- IMAGE_ABORT_TO_SENDER. -/
def execImageAbortToSender (t : HubTime) (src _strip : Nat) (number : BitVec 16) (reason : AbortReason) (s : State) :
    Host.Outcome State Fault Refusal :=
  finish s ((s.advance t).deliverFrom src 6 (fun s => s.takeAbortToSender src number reason))

/-- IMAGE_BEGIN. -/
def execImageBegin (t : HubTime) (src : Nat) (f : BeginFields) (s : State) : Host.Outcome State Fault Refusal :=
  finish s ((s.advance t).deliverFrom src 21 (fun s => s.takeBegin src f))

/-- IMAGE_SEGMENT. -/
def execImageSegment (t : HubTime) (src strip : Nat) (number : BitVec 16) (seg count : Nat) (bytes : List Byte)
    (s : State) : Host.Outcome State Fault Refusal :=
  finish s ((s.advance t).deliverFrom src (8 + bytes.length) (fun s =>
    s.takeSegment src strip number seg count bytes))

/-- SEGMENT_TIMEOUT. -/
def execSegmentTimeout (t : HubTime) (context : Fin 2) (s : State) : Host.Outcome State Fault Refusal :=
  finish s ((s.advance t).segmentTimeout context)

/-- IMAGE_ABORT_TO_RECEIVER. -/
def execImageAbortToReceiver (t : HubTime) (src _strip : Nat) (number : BitVec 16) (_reason : AbortReason) (s : State) :
    Host.Outcome State Fault Refusal :=
  finish s ((s.advance t).deliverFrom src 6 (fun s => s.takeAbortToReceiver src number))

end Sys2Proof.Machine
end

