-- ==== Sys2Proof/Machine/Views.lean ====
section
/-! DEFINITION. The View Unit: rate timers, views, exports and imports, and remote nudges (R160 to R173). -/

namespace Sys2Proof.Machine

/-! ### Making views ready (R164) -/

/-- A view is made ready and notice VIEWS is set on its owner port. -/
def State.makeReady (s : State) (i : Fin 16) (v : View) : State :=
  (s.onVu (fun u => { u with views := u.views.set i (some { v with ready := true }) })).notifyPort v.owner .views

/-- A view stored in its place. -/
def State.putView (s : State) (i : Fin 16) (v : View) : State :=
  s.onVu (fun u => { u with views := u.views.set i (some v) })

/-- At the expiry of its rate timer a local view in INITIAL or any view in DIRTY is made ready, when its ready flag is clear
(R164). -/
def View.readyAtExpiry (v : View) : Bool :=
  !v.ready && (decide (v.state = .dirty) || (v.target.isNone && decide (v.state = .initial)))

/-- The views of a rate class that become ready, one after another. -/
def State.expireViews (rate : Fin 4) (s : State) (i : Fin 16) : State :=
  match s.vu.views.get i with
  | some v => if v.rate = rate ∧ v.readyAtExpiry = true then s.makeReady i v else s
  | none => s

/-! ### The control list (R167) -/

/-- The control list has room. -/
def State.controlRoom (s : State) : Bool := decide (s.vu.controlList.length < 16)

/-- A frame is made in the control list, where it has room, and offered to the control queue. -/
def State.makeControl (s : State) (f : OwnFrame) : State :=
  if s.controlRoom then
    (s.onVu (fun u => { u with controlList := u.controlList ++ [f] })).offerControl .viewUnit
  else s

/-! ### Exports (R168, R169) -/

/-- The code of a view kind and its index, 0 where it has none. -/
def ViewKind.codes : ViewKind → Nat × Nat
  | .shaft => (0, 0)
  | .slot i => (1, i.val)
  | .register i => (2, i.val)
  | .trips => (3, 0)
  | .camera c => (4, c.val)

/-- The kind and index that codes name; SHAFT and TRIPS have no index and ignore one (R162, notes/assumptions/17.md). -/
def viewKindOf (kind index : Nat) : Option ViewKind :=
  match kind with
  | 0 => some .shaft
  | 1 => (toFin 16 index).map ViewKind.slot
  | 2 => (toFin 16 index).map ViewKind.register
  | 3 => some .trips
  | 4 => (toFin 4 index).map ViewKind.camera
  | _ => none

/-- The VIEW UPDATE of a due export: content as it stands, or none for a keep-alive (R169). -/
def State.updateFrame (s : State) (e : ExportEntry) : OwnFrame :=
  ⟨e.hub, .viewUpdate e.view e.sub (if e.due = .content then some (s.content e.kind) else none)⟩

/-- An export whose update is offered: sent with content it becomes CLEAN (R169). -/
def ExportEntry.offeredNow (e : ExportEntry) : ExportEntry := if e.due = .content then { e with state := .clean } else e

/-- An export whose update has been taken into the view queue (R169). -/
def ExportEntry.taken (e : ExportEntry) : ExportEntry := { e with due := .none, steps := 0 }

/-- An export stored in its place. -/
def State.putExport (s : State) (i : Fin 16) (e : Option ExportEntry) : State :=
  s.onVu (fun u => { u with exports := u.exports.set i e })

/-- Offer the update of one export, unless an earlier one waits for the full view queue (R169). -/
def State.offerExport (s : State) (i : Fin 16) : State :=
  match s.vu.exports.get i, s.vu.offered with
  | some e, none =>
    if e.due = .none then s
    else if s.rc.viewQueue.length < 16 then
      (s.putExport i (some e.offeredNow.taken)).onRc (fun r => { r with viewQueue := r.viewQueue ++ [s.updateFrame e] })
    else (s.putExport i (some e.offeredNow)).onVu (fun u => { u with offered := some ⟨i, s.updateFrame e⟩ })
  | _, _ => s

/-- The due exports are offered in order of export number, while the ring is RUNNING (R169). -/
def State.offerExports (s : State) : State := if s.running then (List.finRange 16).foldl State.offerExport s else s

/-- The export that an update belongs to: its importing hub, view number and subscription number. DESIGN CHOICE
(notes/assumptions/58.md): an export renewed under another subscription number is not the one that the update was made for. -/
def ExportEntry.sentBy (e : ExportEntry) (f : OwnFrame) : Bool :=
  match f.payload with
  | .viewUpdate view sub _ => decide (e.hub = f.dst) && decide (e.view = view) && decide (e.sub = sub)
  | _ => false

/-- A frame has left the view queue: the update that waited takes the place, and the others are offered (R25, R169). DESIGN
CHOICE (notes/assumptions/58.md): an export renewed meanwhile keeps its due mark, its step count and its state. -/
def State.giveViewPlace (s : State) : State :=
  match s.vu.offered with
  | none => s.offerExports
  | some o =>
    let s1 := (s.onRc (fun r => { r with viewQueue := r.viewQueue ++ [o.frame] })).onVu (fun u =>
      { u with
        offered := none
        exports := u.exports.modify o.entry (Option.map (fun e => if e.sentBy o.frame then e.taken else e)) })
    s1.offerExports

/-- Exports of a rate class in INITIAL or DIRTY are marked due CONTENT (R169). -/
def ExportEntry.expire (rate : Fin 4) (e : ExportEntry) : ExportEntry :=
  if e.rate = rate ∧ (e.state = .initial ∨ e.state = .dirty) then { e with due := .content } else e

/-- The period of a rate class in ticks (R160). -/
def ratePeriod : Fin 4 → Nat
  | 0 => 1000000
  | 1 => 2500000
  | 2 => 5000000
  | 3 => 12500000

/-- The event RATE_TIMER_EXPIRY (R160, R164, R169). -/
def State.rateExpiry (s : State) (rate : Fin 4) : State :=
  let target := s.vu.rateNext.get rate
  if isDue target s.hubTime then
    let s1 := s.onVu (fun u =>
      { u with
        rateNext := u.rateNext.set rate (later target (ratePeriod rate))
        exports := u.exports.map (Option.map (ExportEntry.expire rate)) })
    ((List.finRange 16).foldl (State.expireViews rate) s1).offerExports
  else s

/-- The event EXPORT_KEEP_ALIVE of an export (R169). -/
def State.keepAlive (s : State) (i : Fin 16) : State :=
  match s.vu.exports.get i with
  | some e =>
    if 8 ≤ e.steps ∧ e.due = .none then (s.putExport i (some { e with due := .keepAlive })).offerExports else s
  | none => s

/-- The lowest-numbered entry of a table of 16 that satisfies `p`. -/
def findEntry {α : Type} (t : Table 16 (Option α)) (p : Option α → Bool) : Option (Fin 16) :=
  (List.finRange 16).find? (fun i => p (t.get i))

/-- A SUBSCRIBE REPLY in the control list. -/
def State.subReply (s : State) (src view : Nat) (sub : BitVec 16) (st : SubStatus) : State :=
  s.makeControl ⟨src, .subscribeReply view sub st⟩

/-- A delivered SUBSCRIBE (R168). -/
def State.takeSubscribe (s : State) (src view : Nat) (sub : BitVec 16) (kind index rate : Nat) : State :=
  match viewKindOf kind index, toFin 4 rate with
  | some k, some r =>
    let e : ExportEntry :=
      { hub := src, view := view, sub := sub, kind := k, rate := r, state := .initial, due := .none, steps := 0 }
    match findEntry s.vu.exports (fun x => match x with
        | some y => decide (y.hub = src) && decide (y.view = view)
        | none => false) with
    | some i => (s.putExport i (some e)).subReply src view sub .accept
    | none =>
      match findEntry s.vu.exports Option.isNone with
      | some i => (s.putExport i (some e)).subReply src view sub .accept
      | none => s.subReply src view sub .full
  | _, _ => s.subReply src view sub .badArgument

/-- A delivered UNSUBSCRIBE (R168). DESIGN CHOICE (notes/assumptions/58.md): a VIEW UPDATE of the export that still waits for
the full view queue is kept, and sent in its turn. -/
def State.takeUnsubscribe (s : State) (src view : Nat) (sub : BitVec 16) : State :=
  s.onVu (fun u =>
    { u with exports := u.exports.map (fun x =>
        match x with
        | some e => if e.hub = src ∧ e.view = view ∧ e.sub = sub then none else some e
        | none => none) })

/-! ### Imports (R170, R171) -/

/-- A remote view subscribes, with a new subscription number and a stale count of 0 (R170). -/
def State.subscribeView (s : State) (i : Fin 16) (v : View) (target : Nat) : State :=
  let n := s.vu.subCount + 1
  let s1 := s.onVu (fun u => { u with subCount := n, views := u.views.set i (some { v with sub := n, stale := 0 }) })
  s1.makeControl ⟨target, .subscribe i.val n v.kind.codes.1 v.kind.codes.2 v.rate.val⟩

/-- The view that a frame from hub `src` matches (R170). -/
def State.matchView (s : State) (src view : Nat) (sub : BitVec 16) : Option (Fin 16 × View) :=
  match toFin 16 view with
  | some i =>
    match s.vu.views.get i with
    | some v => if v.target = some src ∧ v.state ≠ .gone ∧ v.sub = sub then some (i, v) else none
    | none => none
  | none => none

/-- A delivered SUBSCRIBE REPLY (R170); a status that section 11.3 does not list does nothing (notes/assumptions/17.md). -/
def State.takeSubReply (s : State) (src view : Nat) (sub : BitVec 16) (st : SubStatus) : State :=
  match s.matchView src view sub with
  | none => s
  | some (i, v) =>
    match st with
    | .accept => s.putView i { v with stale := 0 }
    | .full | .badArgument => s.makeReady i { v with state := .gone }
    | .unlisted _ => s

/-- The state of an import after an update with content (R170). -/
def View.updated (v : View) (content : List Item) : ViewState :=
  match v.state with
  | .initial | .stale | .dirty => .dirty
  | .clean => if v.received = some content then .clean else .dirty
  | .gone => .gone

/-- A delivered VIEW UPDATE (R170). -/
def State.takeViewUpdate (s : State) (src view : Nat) (sub : BitVec 16) (content : Option (List Item)) : State :=
  match s.matchView src view sub with
  | some (i, v) =>
    match content with
    | none => s.putView i { v with stale := 0 }
    | some c => s.putView i { v with stale := 0, state := v.updated c, received := some c }
  | none =>
    let f : OwnFrame := ⟨src, .unsubscribe view sub⟩
    if s.vu.controlList.contains f then s else s.makeControl f

/-- The event STALE_COUNT_EXPIRY of a view (R171). -/
def State.staleExpiry (s : State) (i : Fin 16) : State :=
  match s.vu.views.get i with
  | some v =>
    match v.target with
    | some h =>
      if s.running = true ∧ v.state ≠ .gone ∧ 10 ≤ v.stale then
        if v.state = .stale then s.subscribeView i v h
        else
          let v1 := { v with state := .stale, ready := true }
          (s.makeReady i v1).subscribeView i v1 h
      else s
    | none => s
  | none => s

/-! ### VIEW OPEN, FETCH, CLOSE (R163, R165, R166) -/

/-- A view as it is opened. -/
def newView (p : PortNo) (target : Option Nat) (kind : ViewKind) (rate : Fin 4) : View :=
  { owner := p, target := target, kind := kind, rate := rate, state := .initial, ready := false, mirror := none,
    received := none, sub := 0, stale := 0 }

/-- The kind that the arguments of VIEW OPEN name; SHAFT and TRIPS carry no index (R163, 1). -/
def viewKindArg (kind index : Option Nat) : Option ViewKind :=
  match kind, index with
  | some k, some i => viewKindOf k i
  | some 0, none => some .shaft
  | some 3, none => some .trips
  | _, _ => none

/-- The target of a VIEW OPEN is remote: an address that is not the hub's own. -/
def State.remoteTarget (s : State) (hub : Option Nat) : Option Nat := hub.filter (fun h => !s.ownAddress h)

/-- A view is opened in a free place; a remote one subscribes (R163, R170). -/
def State.openView (s : State) (i : Fin 16) (v : View) : State :=
  match v.target with
  | some h => s.subscribeView i v h
  | none => s.putView i v

/-- VIEW OPEN (R163). -/
def reqViewOpen (p : PortNo) (hub kind index rate : Option Nat) (s : State) : State × Reply :=
  match viewKindArg kind index, argFin 4 rate with
  | some k, some r =>
    let target := s.remoteTarget hub
    if 31 < hub.getD 0 then (s, status .badArgument)
    else if target.isSome = true ∧ s.running = false then (s, status .notRunning)
    else if (target.any fun h => !s.knownHub h) = true then (s, status .badArgument)
    else
      match findEntry s.vu.views Option.isNone with
      | none => (s, status .full)
      | some i => (s.openView i (newView p target k r), some (.done, valuesBytes [val 1 i.val]))
  | _, _ => (s, status .badArgument)

/-- The content that a fetch gives of a view, if any (R165). -/
def State.fetchContent (s : State) (v : View) : Option (List Item) :=
  match v.target with
  | none => some (s.content v.kind)
  | some _ => if v.state = .gone then none else v.received

/-- One item of a fetched content with its CHANGED flag (R165, notes/assumptions/17.md). DESIGN CHOICE
(notes/assumptions/51.md): an item that the mirror holds and the content no longer has is left out, with no flag. -/
def changedEntry (mirror : Option (List Item)) (i : Item) : List Byte :=
  let changed := match mirror with
    | some l => !l.contains i
    | none => true
  valuesBytes [val 1 i.num, some i.value, vflag changed]

/-- The code of a view state. -/
def ViewState.code : ViewState → Nat
  | .initial => 0
  | .clean => 1
  | .dirty => 2
  | .stale => 3
  | .gone => 4

/-- The target as a value: 0 LOCAL, or 1 REMOTE with the hub. -/
def targetBytes : Option Nat → List Byte
  | none => valuesBytes [val 1 0]
  | some h => valuesBytes [val 1 1, val 1 h]

/-- The kind and index as a value. -/
def ViewKind.bytes (k : ViewKind) : List Byte :=
  match k with
  | .shaft | .trips => valuesBytes [val 1 k.codes.1]
  | .slot _ | .register _ | .camera _ => valuesBytes [val 1 k.codes.1, val 1 k.codes.2]

/-- One view of a VIEW FETCH response, as an entry. -/
def State.fetchEntry (s : State) (i : Fin 16) (v : View) : List Byte :=
  valuesBytes
    [val 1 i.val, some (targetBytes v.target), some v.kind.bytes, val 1 v.state.code,
     (s.fetchContent v).map (fun c => entriesBytes (c.map (changedEntry v.mirror)))]

/-- A view after it has been returned (R165). DESIGN CHOICE (notes/assumptions/68.md): a fetch that gives no content, of a GONE
view, leaves the mirror as it was; so does one of a STALE import without content. -/
def State.afterFetch (s : State) (v : View) : View :=
  { v with
    ready := false
    mirror := match s.fetchContent v with
      | some c => some c
      | none => v.mirror
    state := match v.state with
      | .initial | .dirty | .clean => .clean
      | .stale => .stale
      | .gone => .gone }

/-- A view that a fetch by a port returns. -/
def View.fetchedBy (v : View) (p : PortNo) : Bool := v.ready && decide (v.owner = p)

/-- The entries of a VIEW FETCH, in order of view number. -/
def State.fetchEntries (s : State) (p : PortNo) : List (List Byte) :=
  (List.finRange 16).filterMap (fun i =>
    (s.vu.views.get i).bind (fun v => if v.fetchedBy p then some (s.fetchEntry i v) else none))

/-- VIEW FETCH (R165). -/
def reqViewFetch (p : PortNo) (s : State) : State × Reply :=
  (s.onVu (fun u => { u with views := u.views.map (Option.map (fun v => if v.fetchedBy p then s.afterFetch v else v)) }),
   some (.done, valuesBytes [vlist (s.fetchEntries p)]))

/-- The UNSUBSCRIBE of a closed import, where it makes one (R166). -/
def State.closeFrame (s : State) (i : Fin 16) (v : View) : Option OwnFrame :=
  match v.target with
  | some h => if v.state ≠ .gone ∧ s.running = true then some ⟨h, .unsubscribe i.val v.sub⟩ else none
  | none => none

/-- VIEW CLOSE (R166). -/
def reqViewClose (p : PortNo) (view : Option Nat) (s : State) : State × Reply :=
  match argFin 16 view with
  | none => (s, status .badArgument)
  | some i =>
    match s.vu.views.get i with
    | none => (s, status .gone)
    | some v =>
      if v.owner ≠ p then (s, status .notYours)
      else
        let s1 := s.onVu (fun u => { u with views := u.views.set i none })
        (match s.closeFrame i v with
         | some f => s1.makeControl f
         | none => s1, status .done)

/-! ### Remote nudges (R173) -/

/-- A TRIM NUDGE for another hub (R173). DESIGN CHOICE (notes/assumptions/52.md): at a hub that holds an address and no hub
count no target is below it, so the answer is BAD ARGUMENT. -/
def reqRemoteNudge (p : PortNo) (g : Tag) (hub : Nat) (slot : Option Nat) (amount : Option Int) (s : State) :
    State × Reply :=
  match argFin 16 slot, amount with
  | some i, some a =>
    if s.knownHub hub = false then (s, status .badArgument)
    else if s.running = false then (s, status .notRunning)
    else if s.controlRoom = false then (s, status .busy)
    else
      let ref := s.vu.refCount + 1
      let s1 := s.onVu (fun u =>
        { u with refCount := ref, nudges := u.nudges ++ [{ port := p, tag := g, dst := hub, ref := ref, steps := 0 }] })
      (s1.makeControl ⟨hub, .edit ref i.val a⟩, none)
  | _, _ => (s, status .badArgument)

/-- TRIM NUDGE: to the Section Engine for the hub itself and at a hub with no address, else to the View Unit (R56). -/
def reqTrimNudge (p : PortNo) (g : Tag) (hub slot : Option Nat) (amount : Option Int) (s : State) : State × Reply :=
  match hub with
  | none => (s, status .badArgument)
  | some h =>
    if s.rc.hubAddress = none ∨ s.ownAddress h = true then reqLocalNudge p slot amount s
    else reqRemoteNudge p g h slot amount s

/-- The waiting nudge sent to a hub with an edit reference. -/
def Nudge.matches (n : Nudge) (src : Nat) (ref : BitVec 16) : Bool := decide (n.dst = src) && decide (n.ref = ref)

/-- A delivered EDIT REPLY (R173). -/
def State.takeEditReply (s : State) (src : Nat) (ref : BitVec 16) (st : Status) (amount : Int) (serial : BitVec 16) :
    State :=
  match s.vu.nudges.find? (fun n => n.matches src ref) with
  | none => s
  | some n =>
    (s.onVu (fun u => { u with nudges := u.nudges.erase n })).respond n.port n.tag st
      (valuesBytes [val 4 amount, vbits 2 serial])

/-- The event NUDGE_TIMEOUT of an edit reference (R173). -/
def State.nudgeTimeout (s : State) (ref : BitVec 16) : State :=
  match s.vu.nudges.find? (fun n => decide (n.ref = ref) && decide (16 ≤ n.steps)) with
  | none => s
  | some n => (s.onVu (fun u => { u with nudges := u.nudges.erase n })).respond n.port n.tag .timeout []

/-! ### Cycle steps, ring loss, re-formation (R16, R172) -/

/-- The counts of the View Unit at a cycle step: step counts, nudges, and stale counts while RUNNING (R169, R171, R173). -/
def VU.step (u : VU) (running : Bool) : VU :=
  { u with
    exports := u.exports.map (Option.map (fun e => { e with steps := min 8 (e.steps + 1) }))
    nudges := u.nudges.map (fun n => { n with steps := min 16 (n.steps + 1) })
    views := u.views.map (Option.map (fun v =>
      if running = true ∧ v.target.isSome = true ∧ v.state ≠ .gone then { v with stale := min 10 (v.stale + 1) } else v)) }

/-- One import at an entry to LOST or CONFLICT (R172). -/
def State.staleAtLoss (s : State) (i : Fin 16) : State :=
  match s.vu.views.get i with
  | some v =>
    match v.target, v.state with
    | some _, .initial | some _, .clean | some _, .dirty => s.makeReady i { v with state := .stale }
    | _, _ => s
  | none => s

/-- An entry to LOST or CONFLICT at the View Unit (R172). -/
def State.viewRingLoss (s : State) : State :=
  let nudges := s.vu.nudges
  let s1 := ((List.finRange 16).foldl State.staleAtLoss s).onVu (fun u =>
    { u with controlList := [], nudges := [], offered := none })
  nudges.foldl (fun s n => s.respond n.port n.tag .notRunning []) s1

/-- One import at the re-formation effects (R172). -/
def State.goneAtReformation (s : State) (i : Fin 16) : State :=
  match s.vu.views.get i with
  | some v =>
    match v.target with
    | some _ => if v.state = .gone then s else s.makeReady i { v with state := .gone }
    | none => s
  | none => s

/-- The re-formation effects at the View Unit (R22, R172). -/
def State.viewReformation (s : State) : State :=
  ((List.finRange 16).foldl State.goneAtReformation s).onVu (fun u =>
    { u with exports := .const 16 none, offered := none })

/-! ### The commands -/

/-- RATE_TIMER_EXPIRY. -/
def execRateTimerExpiry (t : HubTime) (rate : Fin 4) (s : State) : Host.Outcome State Fault Refusal :=
  finish s ((s.advance t).rateExpiry rate)

/-- EXPORT_KEEP_ALIVE. -/
def execExportKeepAlive (t : HubTime) (entry : Fin 16) (s : State) : Host.Outcome State Fault Refusal :=
  finish s ((s.advance t).keepAlive entry)

/-- STALE_COUNT_EXPIRY. -/
def execStaleCountExpiry (t : HubTime) (view : Fin 16) (s : State) : Host.Outcome State Fault Refusal :=
  finish s ((s.advance t).staleExpiry view)

/-- NUDGE_TIMEOUT. -/
def execNudgeTimeout (t : HubTime) (ref : BitVec 16) (s : State) : Host.Outcome State Fault Refusal :=
  finish s ((s.advance t).nudgeTimeout ref)

/-- VIEW_OPEN. -/
def execViewOpen (t : HubTime) (p : PortNo) (g : Tag) (hub kind index rate : Option Nat) (s : State) :
    Host.Outcome State Fault Refusal :=
  finishRequest s t p g deskPanel (reqViewOpen p hub kind index rate)

/-- VIEW_FETCH. -/
def execViewFetch (t : HubTime) (p : PortNo) (g : Tag) (s : State) : Host.Outcome State Fault Refusal :=
  finishRequest s t p g deskPanel (reqViewFetch p)

/-- VIEW_CLOSE. -/
def execViewClose (t : HubTime) (p : PortNo) (g : Tag) (view : Option Nat) (s : State) :
    Host.Outcome State Fault Refusal :=
  finishRequest s t p g deskPanel (reqViewClose p view)

/-- TRIM_NUDGE. -/
def execTrimNudge (t : HubTime) (p : PortNo) (g : Tag) (hub slot : Option Nat) (amount : Option Int) (s : State) :
    Host.Outcome State Fault Refusal :=
  finishRequest s t p g deskPanel (reqTrimNudge p g hub slot amount)

/-- EDIT. -/
def execEdit (t : HubTime) (src : Nat) (ref : BitVec 16) (slot : Nat) (amount : Int) (s : State) :
    Host.Outcome State Fault Refusal :=
  finish s ((s.advance t).deliverFrom src 7 (fun s => s.takeEdit src ref slot amount))

/-- EDIT_REPLY. -/
def execEditReply (t : HubTime) (src : Nat) (ref : BitVec 16) (st : Status) (amount : Int) (serial : BitVec 16)
    (s : State) : Host.Outcome State Fault Refusal :=
  finish s ((s.advance t).deliverFrom src 9 (fun s => s.takeEditReply src ref st amount serial))

/-- SUBSCRIBE. -/
def execSubscribe (t : HubTime) (src view : Nat) (sub : BitVec 16) (kind index rate : Nat) (s : State) :
    Host.Outcome State Fault Refusal :=
  finish s ((s.advance t).deliverFrom src 6 (fun s => s.takeSubscribe src view sub kind index rate))

/-- UNSUBSCRIBE. -/
def execUnsubscribe (t : HubTime) (src view : Nat) (sub : BitVec 16) (s : State) : Host.Outcome State Fault Refusal :=
  finish s ((s.advance t).deliverFrom src 3 (fun s => s.takeUnsubscribe src view sub))

/-- SUBSCRIBE_REPLY. -/
def execSubscribeReply (t : HubTime) (src view : Nat) (sub : BitVec 16) (st : SubStatus) (s : State) :
    Host.Outcome State Fault Refusal :=
  finish s ((s.advance t).deliverFrom src 4 (fun s => s.takeSubReply src view sub st))

/-- VIEW_UPDATE. -/
def execViewUpdate (t : HubTime) (src view : Nat) (sub : BitVec 16) (content : Option (List Item)) (s : State) :
    Host.Outcome State Fault Refusal :=
  finish s ((s.advance t).deliverFrom src (DataPayload.viewUpdate view sub content).bytes.length (fun s =>
    s.takeViewUpdate src view sub content))

end Sys2Proof.Machine
end

