-- ==== Sys2Proof/Machine/Ring.lean ====
section
/-! DEFINITION. The Ring Controller: its states, the forming of the ring, the cycle step of the whole hub, and what each
arriving ring control frame, timer and compare does (R5 to R13, R15 to R22). The fibre itself is in Machine/Fibre.lean. -/

namespace Sys2Proof.Machine

/-! ### Ring states -/

/-- A change of ring state sets notice RING (section 1.2). -/
def State.setRing (s : State) (st : RingState) : State :=
  if s.rc.ringState = st then s else (s.onRc (fun r => { r with ringState := st })).notify .ring

/-- The tracker's history is emptied, and the users of the interpolation service ask again (R38). -/
def State.emptyHistory (s : State) : State :=
  ((s.onSu (fun u => { u with tracker := u.tracker.emptied })).registerEmptied).storeEmptied

/-- The own-frame queues are emptied and the image pending frame is refused (R21). -/
def RC.emptyQueues (r : RC) : RC :=
  { r with controlQueue := [], viewQueue := [], imagePending := none, controlWaiters := [] }

/-- What the blocks do at an entry to LOST, or at an entry to CONFLICT (R21, R60, R148, R172). DESIGN CHOICE
(notes/assumptions/49.md): of the responses that one loss makes ready at a port, the Section Engine's come before those to the
remote nudges. -/
def State.ringLoss (s : State) : State :=
  (((s.onRc RC.emptyQueues).sectionRingLoss).imageRingLoss).viewRingLoss

/-- The entry to LOST (R21). -/
def State.enterLost (s : State) : State :=
  (s.ringLoss.onRc (fun r => { r with reforming := true, deadline := none })).setRing .lost

/-- The entry to LOST from RUNNING, with its cause; a LOST master looks at its re-formation conditions (R19, R20, R22). -/
def State.loseRing (s : State) : State := (s.enterLost.raiseHub .ringLost).checkReformation

/-- The entry to CONFLICT (R8, R23, notes/assumptions/25.md). DESIGN CHOICE (notes/assumptions/47.md): what RING OUT carries at
that moment, a held frame too, goes out whole. -/
def State.enterConflict (s : State) : State :=
  let before := s.rc.ringState
  let s1 := (s.ringLoss.onRc (fun r =>
    { r with
      reforming := r.reforming || decide (before = .running) || decide (before = .lost)
      censusTimer := none
      deadline := none
      nextOrigination := none
      ringFrameDue := none
      transit := [] })).setRing .conflict
  if before = .running then s1.raiseHub .ringLost else s1

/-- The roster is dropped: hub count, period and Dpub with it (R7). -/
def RC.dropRoster (r : RC) : RC :=
  { r with rosterHeld := false, hubCount := none, period := none, dpub := none, lastCycle := none }

/-- A follower enters DOWN (R7, R10, R92). -/
def State.enterDown (s : State) : State :=
  ((((s.onRc (fun r => { r.dropRoster with hubAddress := none, deadline := none })).setRing .down).setCarried .noClass
    0).emptyHistory)

/-- A follower takes an address and enters, or enters again, ADDRESSED (R7). -/
def State.enterAddressed (s : State) (address : Nat) (f : CensusFields) : State :=
  ((s.onRc (fun r =>
    { r.dropRoster with
      hubAddress := some address
      joinedCensus := some (f.number, f.stamp)
      rosterTimer := some (later s.hubTime 2500000)
      deadline := none })).setRing .addressed).emptyHistory

/-- The re-formation effects, at a hub whose flag is set (R22). -/
def State.reform (s : State) : State :=
  if s.rc.reforming then s.viewReformation.onRc (fun r => { r with reforming := false }) else s

/-! ### CENSUS and ROSTER at a follower (R7, R10) -/

/-- A follower in DOWN, ADDRESSED or LOST acts on an intact CENSUS. DESIGN CHOICE (notes/assumptions/48.md): a count above 31
is one of 31. -/
def State.joinCensus (s : State) (f : CensusFields) : State :=
  if f.overflow = false ∧ f.count ≤ 30 then s.enterAddressed (f.count + 1) f else s.enterDown

/-- A follower acts on a CENSUS (R7; from RUNNING it first loses the ring, notes/assumptions/9.md). -/
def State.takeCensus (s : State) (f : Inbound CensusFields) : State :=
  if censusCorrupt f then s
  else if s.running then s.loseRing.joinCensus f.fields
  else s.joinCensus f.fields

/-- A follower holds a roster (R10, R5, R92). DESIGN CHOICE (notes/assumptions/60.md): whatever hub count and Dpub it gives. -/
def State.holdRoster (s : State) (f : RosterFields) : State :=
  ((s.onRc (fun r =>
    { r with
      rosterHeld := true
      hubCount := some f.hubCount
      period := some f.period
      dpub := some f.dpub
      lastCycle := none })).setCarried .noClass 0).reform

/-- A follower acts on a ROSTER (R10). -/
def State.takeRoster (s : State) (f : Inbound RosterFields) : State :=
  if rosterCorrupt f = false ∧ s.rc.ringState = .addressed ∧ s.rc.rosterHeld = false
      ∧ s.rc.joinedCensus = some (f.fields.number, f.fields.stamp) then
    s.holdRoster f.fields
  else s

/-- The event ROSTER_TIMER_EXPIRY (R10). -/
def State.rosterExpiry (s : State) : State :=
  if timerDue s.rc.rosterTimer s.hubTime then (s.onRc (fun r => { r with rosterTimer := none })).enterDown else s

/-! ### The cycle step of the hub (R12, R13, R16, R19, R39) -/

/-- The tracker has taken a step whose entry is the newest of the history: it goes to the Section Engine, the Register Unit
and the Image Store (R39, 5 and 6). -/
def State.stepBlocks (s : State) (e : HistEntry) : State :=
  ((s.sectionStep { dm := e.delta, cycle := e.cycle, p := e.p, late := e.late, extrapolated := e.extrapolated
    }).registerGrowth e.p e.theta).storeGrowth e

/-- The Image Mover, the View Unit and the Trip Unit are told that a step has been taken (R16, R99). -/
def State.tellStep (s : State) (fromFrame : Bool) : State :=
  ((s.onIm IM.step).onVu (fun u => u.step s.running)).stepTrip fromFrame s.su.tracker.flags.atRest

/-- A step that comes from a cycle frame, up to the Image Store (R39). -/
def State.frameStep (s : State) (number : BitVec 16) (p : HubTime) (late : Bool) (angle : FullAngle) (v : Int)
    (flags : ShaftFlags) : State :=
  let k := s.su.tracker
  (s.onSu (fun u => { u with tracker := k.frameStep number p late angle v flags })).stepBlocks
    (k.entry number p angle false late)

/-- An extrapolated step, up to the Image Store (R40). -/
def State.extrapolatedStep (s : State) (p : HubTime) (late : Bool) : State :=
  let k := s.su.tracker
  (s.onSu (fun u => { u with tracker := k.extrapolatedStep p late })).stepBlocks
    (k.entry (k.lastCycle + 1) p (k.angle + BitVec.ofInt 36 k.lastV) true late)

/-! ### Cycle frames at a follower (R13 to R15) -/

/-- The arrival age: the carried age and a cable compensation, at most 65,535 (R14). -/
def arrivalAge (age comp : Nat) : Nat := min 65535 (age + comp)

/-- The publication instant from an arrival or a deadline, and whether the step is LATE (R15, R40). -/
def publicationInstant (arrival : HubTime) (dpub age : Nat) : HubTime × Bool :=
  if dpub < age ∨ age = 65535 then (arrival, true) else (later arrival (dpub - age), false)

/-- The frame is valid at this hub (R13). -/
def State.validCycle (s : State) (f : Inbound CycleFields) : Bool :=
  !cycleCorrupt f && s.rc.rosterHeld && decide (s.rc.period = some f.fields.period)
    && decide (s.rc.hubCount = some f.fields.hubCount)

/-- A valid frame is new (R13, notes/assumptions/10.md). -/
def State.newCycle (s : State) (number : BitVec 16) : Bool :=
  s.rc.lastCycle.isNone || decide (0 < sdiff number s.su.tracker.lastCycle)

/-- The record of a cycle frame (R5). -/
def cycleRecord (f : CycleFields) (arrival : HubTime) (age : Nat) : LastCycle :=
  { number := f.number, flags := f.flags, resetRequest := f.resetRequest, hubCount := f.hubCount, dpub := f.dpub,
    angle := f.angle, v := f.v, classes := f.classes, mask := f.mask, arrivalTime := arrival, arrivalAge := age }

/-- At a LATE step of a new frame: PUBLICATION LATE and notice LATE (R15). -/
def State.lateStep (s : State) (late : Bool) : State :=
  if late then (s.raiseHub .publicationLate).notify .late else s

/-- ADDRESSED becomes RUNNING at a new frame (R13); entry to RUNNING stops the roster timer (R10). -/
def State.joinRunning (s : State) : State :=
  if s.rc.ringState = .addressed then (s.onRc (fun r => { r with rosterTimer := none })).setRing .running else s

/-- In RUNNING a new frame restarts the deadline and the expected next frame (R13, R24). -/
def State.restartDeadline (s : State) (arrival : HubTime) : State :=
  if s.running then
    s.onRc (fun r =>
      { r with
        missedDeadlines := 0
        deadline := some (later arrival (s.periodTicks * 3 / 2))
        expectedNext := some (later arrival s.periodTicks) })
  else s

/-- A RESET REQUEST in a new frame: the reset of R104 with no response (R106). -/
def State.pressReset (s : State) (request : Bool) : State := if request then s.resetTrip.1 else s

/-- What a new frame does before its RESET REQUEST acts: the step, its record, its trip word. -/
def State.enterFrame (f : CycleFields) (arrival : HubTime) (s : State) : State :=
  let age := arrivalAge f.age (s.compAt arrival)
  let p := publicationInstant arrival f.dpub age
  let s1 := (s.joinRunning.restartDeadline arrival).lateStep p.2
  let s2 := (s1.frameStep f.number p.1 p.2 f.angle f.v f.flags).onRc (fun r =>
    { r with lastCycle := some (cycleRecord f arrival age) })
  s2.handTripWord f.classes f.mask

/-- A new frame (R13, in the order of notes/assumptions/8.md). A cause that the step raises and the reset clears has changed
the Trip Unit's content (R164, notes/assumptions/55.md). -/
def State.takeNewCycle (s : State) (f : CycleFields) (arrival : HubTime) : State :=
  ((s.event (State.enterFrame f arrival)).pressReset f.resetRequest).tellStep true

/-- A valid frame that is not new takes no step; its trip word is handed all the same (R13). -/
def State.takeOldCycle (s : State) (f : CycleFields) (arrival : HubTime) : State :=
  (s.onRc (fun r =>
    { r with lastCycle := some (cycleRecord f arrival (arrivalAge f.age (s.compAt arrival))) })).handTripWord f.classes
    f.mask

/-- The last byte of a cycle frame has arrived at a follower; its first byte arrived 2 ticks per byte before (R13). -/
def State.takeCycle (s : State) (f : Inbound CycleFields) : State :=
  if s.isMaster = true ∨ s.validCycle f = false then s
  else
    let arrival := s.firstByte f.length
    if s.newCycle f.fields.number then s.takeNewCycle f.fields arrival else s.takeOldCycle f.fields arrival

/-- The first missed deadline: an extrapolated step, and the deadline one period on (R19, R24, R40). -/
def State.missedOnce (s : State) (deadline : HubTime) (r : LastCycle) : State :=
  let p := publicationInstant deadline r.dpub r.arrivalAge
  let s1 := s.onRc (fun r =>
    { r with
      missedDeadlines := 1
      deadline := some (later deadline s.periodTicks)
      expectedNext := r.expectedNext.map (fun t => later t s.periodTicks) })
  (s1.extrapolatedStep p.1 p.2).tellStep false

/-- The event DEADLINE_EXPIRY (R19). -/
def State.deadlineExpiry (s : State) : State :=
  match s.rc.deadline, s.rc.lastCycle with
  | some d, some r =>
    if isDue d s.hubTime = true ∧ s.running = true ∧ s.isMaster = false then
      if s.rc.missedDeadlines = 0 then s.missedOnce d r else s.loseRing
    else s
  | _, _ => s

/-! ### The master (R9, R11, R12, R18, R20) -/

/-- The trip word that the master composes: classes and mask (R18). -/
def State.composeWord (s : State) : TripClasses × BitVec 32 :=
  let below := match s.rc.hubCount with
    | some n => BitVec.ofNat 32 (2 ^ n - 1)
    | none => 0
  ({ gathered := addClassBit .empty s.ownClass, carried := s.rc.returnedClass },
   putBit s.rc.returnedMask 0 s.ownClass.stops &&& below)

/-- The check of the frame originated before (R20). -/
def State.checkReturn (s : State) : State :=
  if s.running = true ∧ s.rc.lastCycle.isSome = true then
    if s.rc.returnSeen then s.onRc (fun r => { r with failedReturns := 0 })
    else
      let s1 := s.onRc (fun r => { r with failedReturns := r.failedReturns + 1 })
      if 2 ≤ s1.rc.failedReturns then s1.loseRing else s1
  else s

/-- The frame that the master fills from its own state (R12), after the generator's step for it. -/
def State.composeCycle (s : State) (forTrip : Bool) (word : TripClasses × BitVec 32) : CycleFields :=
  let g := s.su.gen
  { number := s.rc.cycleNumber + 1, period := s.straps.period, hubCount := s.rc.hubCount.getD 1,
    flags := g.flags forTrip, resetRequest := s.tu.resetRequest, dpub := s.rc.dpub.getD 0, age := 0, angle := g.angle,
    v := g.v, classes := word.1, mask := word.2 }

/-- The class in force at an origination is SYNC or above, or the hub is in LOCKOUT (R29). -/
def State.stopInForce (s : State) (word : TripClasses × BitVec 32) : Bool :=
  s.tripTarget (s.effectiveClass.max (TripClasses.cls word.1))

/-- The frames that RING OUT has been given and that have not begun to leave (notes/assumptions/28.md). -/
def RC.unsent (r : RC) (now : HubTime) : List Passing :=
  match r.ringOut with
  | some o =>
    if 2 * o.frame.length < r.outLeft then
      r.passing.filter (fun p => decide (0 < sdiff (later p.held.arrival 32) now))
    else []
  | none => []

/-- At a scheduled instant RING OUT is free of the frames that have arrived and not begun to leave: the cycle frame goes
ahead of them, and they are held (R12, R23). -/
def RC.takeBack (r : RC) (now : HubTime) : RC :=
  match r.unsent now with
  | [] => r
  | p :: rest =>
    { r with
      transit := (p :: rest).map (fun q => q.held) ++ r.transit
      outLeft := if 0 < sdiff p.free now then (sdiff p.free now).toNat else 0 }

/-- The newest frame of the transit buffer, where it is still arriving when RING OUT comes free at `free`, is cut at the
byte that finds the buffer full (R23). -/
def RC.cutArriving (r : RC) (free : HubTime) : RC :=
  match r.transit.getLast? with
  | none => r
  | some x =>
    let others := (r.transit.dropLast.map (fun h => h.frame.length)).sum
    let arrived := min x.frame.length ((free - x.arrival).toNat / 2)
    let room := 1049 - others
    if 1049 < others + arrived then
      { r with transit := r.transit.dropLast ++ (if room = 0 then [] else [{ x with frame := cutAt room x.frame }]) }
    else r

/-- The composed frame leaves: it is recorded, RING OUT carries it from the origination instant, and inbound bytes are held
until it has left (R12, R18, R23). -/
def State.sendCycle (s : State) (f : CycleFields) (origin : HubTime) : State :=
  (s.onRc (fun r =>
    { r.cutArriving (later origin 54) with
      cycleNumber := f.number
      lastCycle := some (cycleRecord f origin 0)
      returnSeen := false
      ringOut := some ⟨⟨.cycle f, 27, true⟩, origin⟩
      outLeft := r.outLeft + 54
      outHeld := false
      passing := [] })).onTu (fun t => { t with resetRequest := false })

/-- One origination from its scheduled instant: R20, R18, the generator, the frame, the master's own step, its trip word
(R12; a frame that is leaving delays the origination, notes/assumptions/28.md). -/
def State.originate (s : State) (scheduled : HubTime) : State :=
  let s1 := (s.onRc (fun r =>
    { r.takeBack s.hubTime with nextOrigination := some (later scheduled s.periodTicks) })).checkReturn
  let word := s1.composeWord
  let forTrip := s1.stopInForce word
  let lockout := decide (s1.tu.state = .lockout)
  let s2 := s1.onSu (fun u => { u with gen := u.gen.step forTrip lockout })
  let f := s2.composeCycle forTrip word
  let origin := later s2.hubTime s2.rc.outLeft
  let s3 := (s2.sendCycle f origin).frameStep f.number (later origin f.dpub) false f.angle f.v f.flags
  ((s3.handTripWord f.classes f.mask).tellStep true).checkReformation

/-- The event CYCLE_ORIGINATION. -/
def State.cycleOrigination (s : State) : State :=
  match s.rc.nextOrigination with
  | some t =>
    if isDue t s.hubTime = true ∧ (s.rc.ringState = .running ∨ s.rc.ringState = .lost) then s.originate t else s
  | none => s

/-- The event RETURNED_CYCLE_FRAME (R18). A corrupt frame that the master removes is counted in every ring state (R3). -/
def State.takeReturnedCycle (s : State) (f : Inbound CycleFields) : State :=
  if s.isMaster = false then s
  else if cycleCorrupt f then s.countCorrupt
  else if s.rc.lastCycle.isSome = true ∧ f.fields.number = s.rc.cycleNumber ∧ s.rc.ringState ≠ .conflict then
    s.onRc (fun r =>
      { r with returnedClass := f.fields.classes.gathered, returnedMask := f.fields.mask, returnSeen := true })
  else s

/-- The master sends a ROSTER for its returned census (R9, R92). DESIGN CHOICE (notes/assumptions/36.md): a roster that waits
for R24 keeps the Dpub of its making, and the returned word and mask are cleared and the re-formation effects applied at its
making too, not at its start on RING OUT. DESIGN CHOICE (notes/assumptions/48.md): a returned count above 31 gives a hub count
above 32, the count plus one. -/
def State.sendRoster (s : State) (f : CensusFields) : State :=
  let roster : RosterFields :=
    { number := f.number, stamp := f.stamp, hubCount := f.count + 1, period := s.straps.period,
      dpub := s.rc.dpub.getD 0 }
  ((s.onRc (fun r =>
    { r with
      hubCount := some (f.count + 1)
      tooMany := false
      ringFrameDue := some (.roster roster)
      outstandingRoster := some roster
      returnedClass := .empty
      returnedMask := 0 })).setCarried .noClass 0).reform

/-- The master's own census has returned (R9). -/
def State.ownCensus (s : State) (f : CensusFields) : State :=
  let s1 := s.onRc (fun r => { r with outstandingCensus := none })
  if f.overflow then (s1.onRc (fun r => { r with tooMany := true })).notify .ring else s1.sendRoster f

/-- The event RETURNED_CENSUS (R8, R9). -/
def State.takeReturnedCensus (s : State) (f : Inbound CensusFields) : State :=
  if s.isMaster = false then s
  else if censusCorrupt f then s.countCorrupt
  else if s.rc.ringState = .conflict then s
  else if s.rc.outstandingCensus ≠ some (f.fields.number, f.fields.stamp) then s.enterConflict
  else if s.rc.ringState = .down ∨ s.rc.ringState = .lost then s.ownCensus f.fields
  else s

/-- The master enters RUNNING when its roster has returned: from DOWN it originates at once (R11). -/
def State.masterRunning (s : State) : State :=
  let before := s.rc.ringState
  let s1 := (s.onRc (fun r =>
    { r with censusTimer := none, outstandingRoster := none, failedReturns := 0 })).setRing .running
  if before = .down then s1.originate s1.hubTime else s1

/-- The event RETURNED_ROSTER (R8, R11). -/
def State.takeReturnedRoster (s : State) (f : Inbound RosterFields) : State :=
  if s.isMaster = false then s
  else if rosterCorrupt f then s.countCorrupt
  else if s.rc.ringState = .conflict then s
  else if s.rc.outstandingRoster ≠ some f.fields then s.enterConflict
  else s.masterRunning

/-- The event CENSUS_TIMER_EXPIRY (R6). -/
def State.censusExpiry (s : State) : State :=
  match s.rc.censusTimer with
  | some t =>
    if isDue t s.hubTime = true ∧ s.isMaster = true
        ∧ (s.rc.ringState = .down ∨ (s.rc.ringState = .lost ∧ s.reformationHolds = true)) then
      s.makeCensus.onRc (fun r => { r with censusTimer := some (later t 500000) })
    else s
  | none => s

/-! ### HARDWARE_RESET (R5, R27, R89, R186) -/

/-- At the rise of RESET an active line raises its cause (R89). -/
def State.raiseLines (s : State) : State :=
  let s1 := if s.tu.tripInLow then s.raiseHub .tripIn else s
  if s1.tu.webBrk then s1.raiseHub .webBreak else s1

/-- Hardware reset: every block at its reset value with the straps and line levels sampled (R5, R186), then the lines
(R89). The commands that wait are the outside's and stay. -/
def State.hardwareReset (s : State) (straps : Straps) (tripInLow webBrk : Bool) : State :=
  (State.resetWith straps tripInLow webBrk s.pending).raiseLines

/-! ### The commands -/

/-- HARDWARE_RESET. -/
def execHardwareReset (straps : Straps) (tripInLow webBrk : Bool) (s : State) : Host.Outcome State Fault Refusal :=
  .next (s.hardwareReset straps tripInLow webBrk)

/-- CENSUS_TIMER_EXPIRY. -/
def execCensusTimerExpiry (t : HubTime) (s : State) : Host.Outcome State Fault Refusal :=
  finish s (s.advance t).censusExpiry

/-- RETURNED_CENSUS. -/
def execReturnedCensus (t : HubTime) (f : Inbound CensusFields) (s : State) : Host.Outcome State Fault Refusal :=
  finish s ((s.advance t).takeReturnedCensus f)

/-- RETURNED_ROSTER. -/
def execReturnedRoster (t : HubTime) (f : Inbound RosterFields) (s : State) : Host.Outcome State Fault Refusal :=
  finish s ((s.advance t).takeReturnedRoster f)

/-- ROSTER_TIMER_EXPIRY. -/
def execRosterTimerExpiry (t : HubTime) (s : State) : Host.Outcome State Fault Refusal :=
  finish s (s.advance t).rosterExpiry

/-- CYCLE_ORIGINATION. -/
def execCycleOrigination (t : HubTime) (s : State) : Host.Outcome State Fault Refusal :=
  finish s (s.advance t).cycleOrigination

/-- RETURNED_CYCLE_FRAME. -/
def execReturnedCycleFrame (t : HubTime) (f : Inbound CycleFields) (s : State) : Host.Outcome State Fault Refusal :=
  finish s ((s.advance t).takeReturnedCycle f)

/-- CYCLE_FRAME. -/
def execCycleFrame (t : HubTime) (f : Inbound CycleFields) (s : State) : Host.Outcome State Fault Refusal :=
  finish s ((s.advance t).takeCycle f)

/-- DEADLINE_EXPIRY. -/
def execDeadlineExpiry (t : HubTime) (s : State) : Host.Outcome State Fault Refusal :=
  finish s (s.advance t).deadlineExpiry

end Sys2Proof.Machine
end

