-- ==== Sys2Proof/Machine/Fibre.lean ====
section
/-! DEFINITION. The fibre: what is forwarded, held, cut, removed, delivered and started (R1 to R4, R14, R17, R23 to R25,
R187); and the Ring Controller's requests (R26). -/

namespace Sys2Proof.Machine

/-! ### Removal (R3) -/

/-- What becomes of a frame at RING IN, decided on its kind and header (R3). `badAddress` and `unclaimed` are data frames
removed by a hub in RUNNING. -/
inductive Passage where
  | forward
  | remove
  | deliver
  | badAddress
  | unclaimed
deriving DecidableEq, Repr

/-- R3 for a data frame, whether or not the hub was RUNNING when its header came. DESIGN CHOICE (notes/assumptions/35.md):
R3 does not say which row of its table a frame takes that fits two, its own address and a bad one; the bad address is taken
first, so such a frame is counted corrupt and neither delivered nor counted undeliverable. -/
def State.dataPassage (s : State) (running : Bool) (dst src : Nat) : Passage :=
  if running then
    if s.knownHub dst = false ∨ s.knownHub src = false ∨ dst = src then .badAddress
    else if s.ownAddress dst then .deliver
    else if s.ownAddress src then .unclaimed
    else .forward
  else if s.isMaster then .remove
  else .forward

/-- R3. -/
def State.passage (s : State) (b : FrameBody) : Passage :=
  match b with
  | .census _ | .roster _ | .cycle _ | .unknown _ => if s.isMaster then .remove else .forward
  | .data f => s.dataPassage s.running f.dst f.src

/-! ### What a forwarded frame leaves with (R2, R7, R14, R17) -/

/-- An intact CENSUS as a follower forwards it (R7). DESIGN CHOICE (notes/assumptions/48.md): a count above 31, which the byte
can hold and R7 does not name, is taken as 31. -/
def censusOut (f : CensusFields) : CensusFields :=
  if f.overflow then f else if f.count ≤ 30 then { f with count := f.count + 1 } else { f with overflow := true }

/-- A cycle frame as a follower forwards it, with the cable compensation in force at its arrival and after `waited` ticks in
the transit buffer (R14, R17). -/
def State.cycleOut (s : State) (f : CycleFields) (comp waited : Nat) : CycleFields :=
  { f with
    age := min 65535 (arrivalAge f.age comp + 32 + waited)
    classes := { f.classes with gathered := addClassBit f.classes.gathered s.ownClass }
    mask := match s.rc.hubAddress with
      | some h => putBit f.mask h s.ownClass.stops
      | none => f.mask }

/-- A frame as it leaves RING OUT. A frame that arrived corrupt leaves corrupt, with a rewritten CRC or its own (R2). -/
def State.frameOut (s : State) (f : Frame) (comp waited : Nat) : Frame :=
  match f.body with
  | .census c => if frameCorrupt f then f else { f with body := .census (censusOut c) }
  | .cycle c => { f with body := .cycle (s.cycleOut c comp waited) }
  | .roster _ | .data _ | .unknown _ => f

/-! ### Forwarding and the transit buffer (R2, R23) -/

/-- The bytes that the transit buffer holds, a frame that is leaving it counted by what is left of it. -/
def RC.heldBytes (r : RC) : Nat :=
  (r.transit.map (fun h => h.frame.length)).sum + (if r.outHeld then r.outLeft / 2 else 0)

/-- The bytes that one inbound frame may still add before the buffer is full; none where it cannot fill it
(notes/assumptions/15.md). -/
def RC.cutLength (r : RC) (length : Nat) : Option Nat :=
  let room := 1049 - r.heldBytes
  let blocked := if r.outHeld then 0 else r.outLeft
  if room = 0 ∨ (room < length ∧ 2 * room < blocked) then some room else none

/-- An inbound frame joins the transit buffer, cut where the buffer fills; nothing of it is held when the buffer is full
already (R1, R23). -/
def State.holdFrame (s : State) (f : Frame) (arrival : HubTime) : State :=
  match s.rc.cutLength f.length with
  | some 0 => s
  | some n => s.onRc (fun r => { r with transit := r.transit ++ [⟨cutAt n f, arrival, r.cableComp⟩] })
  | none => s.onRc (fun r => { r with transit := r.transit ++ [⟨f, arrival, r.cableComp⟩] })

/-- A frame whose first byte arrived `before` ticks ago passes: it leaves 32 ticks after its arrival when RING OUT is free
then and nothing is held, else it is held (R2, R23). -/
def State.passFrame (s : State) (f : Frame) (before : Nat) : State :=
  let g := cutAt 1049 f
  let arrival := s.hubTime - BitVec.ofNat 32 before
  if s.rc.transit = [] ∧ s.rc.outLeft ≤ 32 - before then
    s.onRc (fun r =>
      { r with
        ringOut := some ⟨s.frameOut g r.cableComp 0, later arrival 32⟩
        outLeft := 32 + 2 * g.length - before
        outHeld := false
        passing := r.unsent s.hubTime ++ [⟨⟨g, arrival, r.cableComp⟩, later s.hubTime r.outLeft⟩] })
  else s.holdFrame g arrival

/-- The first byte of a frame arrives: what the header's decision and the age rest on is noted (R3, R26). -/
def State.noteArrival (s : State) : State :=
  s.onRc (fun r => { r with inbound := some ⟨s.hubTime, s.running, r.cableComp⟩ })

/-- A CENSUS or ROSTER whose last byte has arrived is forwarded, unless FRAME_FORWARD gave its passage when its first byte
came (R2, notes/assumptions/3.md). -/
def State.passWhole (s : State) (f : Frame) : State :=
  match s.rc.arrivalAt (s.firstByte f.length) with
  | some _ => s
  | none => s.passFrame f (2 * f.length)

/-- The event FRAME_FORWARD: the first byte of an inbound frame arrives. A frame of unknown kind that the master removes
is corrupt and counted (R3). -/
def State.frameForward (s : State) (f : Frame) : State :=
  let s1 := s.noteArrival
  match s.passage f.body with
  | .forward => s1.passFrame f 0
  | .remove =>
    match f.body with
    | .unknown _ => s1.countCorrupt
    | .census _ | .roster _ | .cycle _ | .data _ => s1
  | .deliver | .badAddress | .unclaimed => s1

/-- The event HELD_FRAME_RELEASE: RING OUT is free and the oldest held frame leaves, its waiting time added to a cycle
frame's age (R23, R14). DESIGN CHOICE (notes/assumptions/63.md): it leaves at once, though less than 32 ticks after its own
first byte, and its waiting time is then 0. -/
def State.heldRelease (s : State) : State :=
  match s.rc.transit with
  | [] => s
  | h :: rest =>
    if s.rc.outLeft = 0 then
      let waited := (s.hubTime - h.arrival).toNat - 32
      s.onRc (fun r =>
        { r with
          transit := rest
          ringOut := some ⟨s.frameOut h.frame h.comp waited, s.hubTime⟩
          outLeft := 2 * h.frame.length
          outHeld := true })
    else s

/-- The event CENSUS at a follower: it acts on the frame, whose last byte has arrived, and forwards it (R7). -/
def State.censusArrives (s : State) (f : Inbound CensusFields) : State :=
  if s.isMaster then s
  else (s.takeCensus f).passWhole ⟨.census f.fields, f.length, f.crcGood⟩

/-- The event ROSTER at a follower: it takes or ignores the frame, and forwards it unchanged (R10). -/
def State.rosterArrives (s : State) (f : Inbound RosterFields) : State :=
  if s.isMaster then s
  else (s.takeRoster f).passWhole ⟨.roster f.fields, f.length, f.crcGood⟩

/-! ### Delivery of data frames (R4, R187) -/

/-- A payload handed to the block that handles its kind (R4). -/
def State.handPayload (s : State) (src : Nat) : DataPayload → State
  | .edit ref slot amount => s.takeEdit src ref slot amount
  | .editReply ref st amount serial => s.takeEditReply src ref st amount serial
  | .imageBegin f => s.takeBegin src f
  | .imageReply _ number st rx => s.takeReply src number st rx
  | .imageSegment strip number seg count bytes => s.takeSegment src strip number seg count bytes
  | .imageAbort false _ number reason => s.takeAbortToSender src number reason
  | .imageAbort true _ number _ => s.takeAbortToReceiver src number
  | .subscribe view sub kind index rate => s.takeSubscribe src view sub kind index rate
  | .subscribeReply view sub st => s.takeSubReply src view sub st
  | .unsubscribe view sub => s.takeUnsubscribe src view sub
  | .viewUpdate view sub content => s.takeViewUpdate src view sub content

/-- A data frame for this hub, whole: counted where it is corrupt or its payload does not fit, else handed on in RUNNING (R4,
R187, R143). -/
def State.deliverData (s : State) (f : Inbound DataFields) : State :=
  if dataCorrupt f then s.countCorrupt
  else
    match readPayload f.fields.kind f.fields.payload with
    | some p => s.whenRunning (fun s => s.handPayload f.fields.src p)
    | none => s.countCorrupt

/-- The undeliverable count goes up by one (R3). -/
def State.countUndeliverable (s : State) : State :=
  s.onRc (fun r => { r with undeliverableCount := satInc r.undeliverableCount })

/-- A frame of the hub's own that came back unclaimed: undeliverable where its CRC is good, corrupt where it is corrupt
(R3). -/
def State.discardOwn (s : State) (f : Inbound DataFields) : State :=
  let s1 := if f.crcGood then s.countUndeliverable else s
  if dataCorrupt f then s1.countCorrupt else s1

/-- The event DATA_FRAME_REMOVAL (R3, R4). -/
def State.removeData (s : State) (f : Inbound DataFields) : State :=
  match s.dataPassage (s.examines f.length) f.fields.dst f.fields.src with
  | .forward | .remove => s
  | .badAddress => s.countCorrupt
  | .unclaimed => s.discardOwn f
  | .deliver => s.deliverData f

/-! ### Own frames (R24, R25) -/

/-- A frame that the arbiter may start, and where it stands. -/
inductive Candidate where
  | ring (f : RingFrameDue)
  | control (f : OwnFrame)
  | view (f : OwnFrame)
  | image (f : OwnFrame)
deriving DecidableEq, Repr

/-- The first candidate present, in the order of precedence (R25). -/
def RC.candidate (r : RC) : Option Candidate :=
  match r.ringFrameDue, r.controlQueue.head?, r.viewQueue.head?, r.imagePending with
  | some f, _, _, _ => some (.ring f)
  | none, some f, _, _ => some (.control f)
  | none, none, some f, _ => some (.view f)
  | none, none, none, some f => some (.image f)
  | none, none, none, none => none

/-- A census or roster as it starts: a census carries the hub time at which it is sent (R6). -/
def ringBody (f : RingFrameDue) (now : HubTime) : FrameBody :=
  match f with
  | .census c => .census { c with stamp := now }
  | .roster r => .roster r

/-- The frame of a candidate, as it starts now. -/
def State.candidateFrame (s : State) (c : Candidate) : Frame :=
  let body := match c with
    | .ring f => ringBody f s.hubTime
    | .control f | .view f | .image f => .data (f.fields (s.rc.hubAddress.getD 0))
  { body := body, length := (bodyLength body).getD 0, crcGood := true }

/-- The expected next cycle frame (R24). -/
def State.nextCycle (s : State) : Option HubTime := if s.isMaster then s.rc.nextOrigination else s.rc.expectedNext

/-- The acyclic window is open for a frame of `length` bytes; a master in DOWN originates nothing (R24). -/
def State.windowOpen (s : State) (length : Nat) : Bool :=
  if s.isMaster = true ∧ s.rc.ringState = .down then true
  else
    match s.nextCycle with
    | some t => decide ((2 * length + 200 : Int) ≤ sdiff t s.hubTime)
    | none => false

/-- The ring state admits the candidate (R24). -/
def State.mayStart (s : State) (c : Candidate) : Bool :=
  match c with
  | .ring _ => s.isMaster
  | .control _ | .view _ | .image _ => s.running

/-- RING OUT starts an own frame. -/
def State.startFrame (s : State) (f : Frame) : State :=
  s.onRc (fun r => { r with ringOut := some ⟨f, s.hubTime⟩, outLeft := 2 * f.length, outHeld := false })

/-- The census stamp is the hub time at which the frame is sent (R6). -/
def RC.stampCensus (r : RC) (f : RingFrameDue) (now : HubTime) : RC :=
  match f with
  | .census c => { r with ringFrameDue := none, outstandingCensus := some (c.number, now) }
  | .roster _ => { r with ringFrameDue := none }

/-- The place of a frame that has started is freed, and the block that waits, or the sender, learns of it (R25). -/
def State.freePlace (s : State) (c : Candidate) : State :=
  match c with
  | .ring f => s.onRc (fun r => r.stampCensus f s.hubTime)
  | .control _ => (s.onRc (fun r => { r with controlQueue := r.controlQueue.tail })).giveControlPlace
  | .view _ => (s.onRc (fun r => { r with viewQueue := r.viewQueue.tail })).giveViewPlace
  | .image f => s.freeImagePlace.imageGone f

/-- The event OWN_FRAME_START (R24, R25). -/
def State.ownFrameStart (s : State) : State :=
  match s.rc.candidate with
  | none => s
  | some c =>
    let f := s.candidateFrame c
    if s.rc.transit = [] ∧ s.rc.outLeft = 0 ∧ s.mayStart c = true ∧ s.windowOpen f.length = true then
      (s.startFrame f).freePlace c
    else s

/-! ### Requests to the Ring Controller (R26) -/

/-- SET CABLE COMP (R26). -/
def reqSetCableComp (value : Option Nat) (s : State) : State × Reply :=
  match value with
  | none => (s, status .badArgument)
  | some v =>
    let c := clampNat 0 4095 v
    (s.onRc (fun r => { r with cableComp := c }), status (if c ≠ v then .clamped else .done))

/-- SET PUBLICATION OFFSET (R26). -/
def reqSetPublicationOffset (value : Option Nat) (s : State) : State × Reply :=
  if s.isMaster = false then (s, status .notMaster)
  else
    match value with
    | none => (s, status .badArgument)
    | some v =>
      let c := clampNat 0 s.periodTicks v
      (s.onRc (fun r => { r with dpub := some c }), status (if c ≠ v then .clamped else .done))

/-! ### The commands -/

/-- FRAME_FORWARD. -/
def execFrameForward (t : HubTime) (f : Frame) (s : State) : Host.Outcome State Fault Refusal :=
  finish s ((s.advance t).frameForward f)

/-- HELD_FRAME_RELEASE. -/
def execHeldFrameRelease (t : HubTime) (s : State) : Host.Outcome State Fault Refusal :=
  finish s (s.advance t).heldRelease

/-- OWN_FRAME_START. -/
def execOwnFrameStart (t : HubTime) (s : State) : Host.Outcome State Fault Refusal :=
  finish s (s.advance t).ownFrameStart

/-- CENSUS. -/
def execCensus (t : HubTime) (f : Inbound CensusFields) (s : State) : Host.Outcome State Fault Refusal :=
  finish s ((s.advance t).censusArrives f)

/-- ROSTER. -/
def execRoster (t : HubTime) (f : Inbound RosterFields) (s : State) : Host.Outcome State Fault Refusal :=
  finish s ((s.advance t).rosterArrives f)

/-- DATA_FRAME_REMOVAL. -/
def execDataFrameRemoval (t : HubTime) (f : Inbound DataFields) (s : State) : Host.Outcome State Fault Refusal :=
  finish s ((s.advance t).removeData f)

/-- SET_CABLE_COMP. -/
def execSetCableComp (t : HubTime) (p : PortNo) (g : Tag) (value : Option Nat) (s : State) :
    Host.Outcome State Fault Refusal :=
  finishRequest s t p g deskOnly (reqSetCableComp value)

/-- SET_PUBLICATION_OFFSET. -/
def execSetPublicationOffset (t : HubTime) (p : PortNo) (g : Tag) (value : Option Nat) (s : State) :
    Host.Outcome State Fault Refusal :=
  finishRequest s t p g deskOnly (reqSetPublicationOffset value)

end Sys2Proof.Machine
end

