-- ==== Sys2Proof/Machine/Generator.lean ====
section
/-! DEFINITION. The requests to the shaft generator and SHAFT READ (R33 to R37, R44). -/

namespace Sys2Proof.Machine

/-- Change the generator alone. -/
def State.onGen (s : State) (f : Generator → Generator) : State := s.onSu (fun u => { u with gen := f u.gen })

/-- DONE, or CLAMPED when a value was clamped (section 2.3). -/
def doneOrClamped (clamped : Bool) : Reply := status (if clamped then .clamped else .done)

/-- A request to the generator: refused NOT MASTER at a follower (section 2.3). -/
def State.atMaster (s : State) (act : State × Reply) : State × Reply :=
  if s.isMaster then act else (s, status .notMaster)

/-- SET SPEED (R33). -/
def reqSetSpeed (speed : Option Int) (s : State) : State × Reply :=
  s.atMaster
    (match speed with
     | none => (s, status .badArgument)
     | some v =>
       if s.su.gen.inching then (s, status .busy)
       else
         let c := clampInt 0 s.su.gen.vmax v
         (s.onGen (fun g => { g with vt := c }), doneOrClamped (decide (c ≠ v))))

/-- SET RAMP (R34). -/
def reqSetRamp (a dn de : Option Nat) (s : State) : State × Reply :=
  s.atMaster
    (match a, dn, de with
     | some x, some y, some z =>
       let r (v : Nat) : Nat := clampNat 1 1048575 v
       (s.onGen (fun g => { g with a := r x, dn := r y, de := r z }), doneOrClamped (decide (r x ≠ x ∨ r y ≠ y ∨ r z ≠ z)))
     | _, _, _ => (s, status .badArgument))

/-- SET VMAX (R35). -/
def reqSetVmax (vmax : Option Nat) (s : State) : State × Reply :=
  s.atMaster
    (match vmax with
     | none => (s, status .badArgument)
     | some v =>
       if s.genAtRest = false then (s, status .notAtRest)
       else
         let m := clampNat 0 2147479552 v
         let vt := if (m : Int) < s.su.gen.vt then (m : Int) else s.su.gen.vt
         let vi := clampInt (-m) m s.su.gen.vi
         (s.onGen (fun g => { g with vmax := m, vt := vt, vi := vi }),
           doneOrClamped (decide (m ≠ v ∨ vt ≠ s.su.gen.vt ∨ vi ≠ s.su.gen.vi))))

/-- INCH START (R36): the checks in the order of the rule. -/
def reqInchStart (speed : Option Int) (s : State) : State × Reply :=
  s.atMaster
    (match speed with
     | none => (s, status .badArgument)
     | some v =>
       if s.rc.ringState ≠ .running then (s, status .notRunning)
       else if s.tu.state = .lockout then (s, status .lockedOut)
       else if s.effectiveClass.stops then (s, status .badState)
       else if s.genAtRest = false then (s, status .notAtRest)
       else
         let c := clampInt (-s.su.gen.vmax) s.su.gen.vmax v
         (s.onGen (fun g => { g with vi := c, inching := true }), doneOrClamped (decide (c ≠ v))))

/-- INCH STOP (R37). -/
def reqInchStop (s : State) : State × Reply :=
  s.atMaster (s.onGen (fun g => { g with inching := false, vt := 0 }), status .done)

/-- An entry of the shaft history as SHAFT READ gives it. -/
def HistEntry.bytes (e : HistEntry) : List Byte :=
  valuesBytes
    [vbits 2 e.cycle, vbits 4 e.p, vbits 3 e.theta, val 3 e.delta, vflag e.extrapolated, vflag e.late]

/-- The payload of SHAFT READ (R44). -/
def State.shaftReadValues (s : State) : List (Option (List Byte)) :=
  let k := s.su.tracker
  [vbits 4 s.hubTime, val 1 (shaftFlagBits k.flags), vbits 5 k.angle, val 4 k.lastV, vbits 2 k.lastCycle,
   vlist (k.history.reverse.map HistEntry.bytes),
   s.genItems 4 (·.vt), s.genItems 4 (·.vi), s.genItems 3 (·.a), s.genItems 3 (·.dn), s.genItems 3 (·.de),
   s.genItems 4 (·.vmax), s.genItems 4 (·.v), s.genItems 5 (fun g => g.angle.toNat),
   s.genItems 1 (fun g => if g.inching then 1 else 0), s.genItems 4 (fun _ => s.target),
   s.genItems 1 (fun _ => if s.genAtRest then 1 else 0)]

/-- SHAFT READ (R44). -/
def reqShaftRead (s : State) : State × Reply := (s, some (.done, valuesBytes s.shaftReadValues))

/-! ### The commands -/

/-- SET_SPEED. -/
def execSetSpeed (t : HubTime) (p : PortNo) (g : Tag) (speed : Option Int) (s : State) :
    Host.Outcome State Fault Refusal :=
  finishRequest s t p g deskOnly (reqSetSpeed speed)

/-- SET_RAMP. -/
def execSetRamp (t : HubTime) (p : PortNo) (g : Tag) (a dn de : Option Nat) (s : State) :
    Host.Outcome State Fault Refusal :=
  finishRequest s t p g deskOnly (reqSetRamp a dn de)

/-- SET_VMAX. -/
def execSetVmax (t : HubTime) (p : PortNo) (g : Tag) (vmax : Option Nat) (s : State) :
    Host.Outcome State Fault Refusal :=
  finishRequest s t p g deskOnly (reqSetVmax vmax)

/-- INCH_START. -/
def execInchStart (t : HubTime) (p : PortNo) (g : Tag) (speed : Option Int) (s : State) :
    Host.Outcome State Fault Refusal :=
  finishRequest s t p g deskOnly (reqInchStart speed)

/-- INCH_STOP. -/
def execInchStop (t : HubTime) (p : PortNo) (g : Tag) (s : State) : Host.Outcome State Fault Refusal :=
  finishRequest s t p g deskOnly reqInchStop

/-- SHAFT_READ. -/
def execShaftRead (t : HubTime) (p : PortNo) (g : Tag) (s : State) : Host.Outcome State Fault Refusal :=
  finishRequest s t p g anyRole reqShaftRead

end Sys2Proof.Machine
end

