-- ==== Sys2Proof/Machine/Ports.lean ====
section
/-! DEFINITION. The Client Ports: PUT, GET and its completion, void transactions, HUB INFO, NOTICE ROUTE and NOTICE ENABLE
(chapter 10). -/

namespace Sys2Proof.Machine

/-! ### HUB INFO (R179) -/

/-- The code of a ring state, in the order of section 1.2. -/
def RingState.code : RingState → Nat
  | .down => 0
  | .addressed => 1
  | .running => 2
  | .lost => 3
  | .conflict => 4

/-- The code of a role, in the order of R178. -/
def Role.code : Role → Nat
  | .drive => 0
  | .vision => 1
  | .panel => 2
  | .desk => 3
  | .unassigned => 4

/-- The code of a sender state. DESIGN CHOICE (notes/assumptions/17.md): in the order of R133; the table of section 7.3 has
another. -/
def SenderState.code : SenderState → Nat
  | .idle => 0
  | .beginSent => 1
  | .sending => 2
  | .retryWait => 3
  | .awaitComplete => 4

/-- Dpub as last carried or held (R26): at a follower that of its last cycle frame record, or of its roster where there is
none; at the master the one it holds (notes/assumptions/42.md). -/
def State.dpubInfo (s : State) : Option Nat :=
  match s.isMaster, s.rc.lastCycle with
  | false, some r => some r.dpub
  | _, _ => s.rc.dpub

/-- The Ring Controller's part (R26). The count reported is the failed-return count at the master and the missed-deadline
count at a follower. -/
def State.ringInfo (s : State) : List Byte :=
  let r := s.rc
  valuesBytes
    [val 1 r.ringState.code, vflag r.tooMany, vflag s.isMaster, voptNat 1 r.hubAddress, voptNat 1 r.hubCount,
     r.period.map (fun c => beBytes 1 c.val), voptNat 3 s.dpubInfo, val 2 r.cableComp,
     val 1 (if s.isMaster then r.failedReturns else r.missedDeadlines), val 2 r.corruptCount, val 2 r.undeliverableCount]

/-- A pair of a strip id and a hub address. -/
def pairEntry (p : Nat × Nat) : List Byte := valuesBytes [val 2 p.1, val 1 p.2]

/-- A reception context: FREE or RECEIVING with its items. -/
def receptionEntry : Option Reception → List Byte
  | none => valuesBytes [val 1 0]
  | some r =>
    valuesBytes
      [val 1 1, val 1 r.src, val 2 r.srcStrip, vbits 2 r.number, val 2 r.strip, val 2 r.segCount, val 2 r.nextSeg,
       val 1 r.timer]

/-- The timer's count and limit as HUB INFO gives them in any state but IDLE. DESIGN CHOICE (notes/assumptions/42.md): a
timer that is stopped shows 0 and 0. -/
def IM.timerInfo (m : IM) : Option StepTimer := if m.sender = .idle then none else some (m.timer.getD ⟨0, 0⟩)

/-- The Image Mover's part (R149). DESIGN CHOICE (notes/assumptions/42.md): in RETRY WAIT it gives the number of the attempt
that failed, and before an ACCEPT the next segment number 0. -/
def State.moverInfo (s : State) : List Byte :=
  let m := s.im
  let x := m.transfer
  valuesBytes
    [val 1 m.sendQueue.length, vlist (m.sendQueue.map pairEntry), val 1 m.sender.code,
     x.map (fun a => beBytes 2 a.strip), x.map (fun a => beBytes 1 a.dst), x.map (fun a => beBytes 2 a.number.toNat),
     x.map (fun a => beBytes 1 a.attempt), x.map (fun a => beBytes 2 a.segCount), x.map (fun a => beBytes 2 a.nextSeg),
     m.timerInfo.map (fun c => beBytes 1 c.count), m.timerInfo.map (fun c => beBytes 1 c.limit),
     vlist (m.contexts.list.map receptionEntry), val 1 m.store.length, val 1 m.claims, vbits 2 m.transferCount,
     val 2 m.transfersDone, val 2 m.transfersDropped, val 2 m.receptionsDone, val 2 m.receptionsAbandoned, val 2 m.notMade,
     val 2 m.abortsToSender, m.lastAbort.map (fun r => beBytes 1 (abortReasonCode r))]

/-- A job as strip id and section. -/
def Job.bytes (j : Job) : List Byte := valuesBytes [val 2 j.strip, val 1 j.slot.val]

/-- The Mark Scanner's part (R158). DESIGN CHOICE (notes/assumptions/17.md): the job of the scan, its strip id and section, is
one item. -/
def State.scannerInfo (s : State) : List Byte :=
  let m := s.ms
  let x := m.scan
  valuesBytes
    [val 1 m.queue.length, vlist (m.queue.map Job.bytes), x.map (fun a => a.job.bytes),
     x.map (fun a => entriesBytes (a.rows.map (fun r => beBytes 1 r))), x.map (fun a => beBytes 2 a.startColumn),
     x.map (fun a => beBytes 1 a.search.direction.code), x.map (fun a => beBytes 1 a.search.channel),
     x.map (fun a => beBytes 1 a.search.threshold), x.map (fun a => beBytes 1 a.search.runLength),
     x.map (fun a => beBytes 4 a.completeAt.toNat), val 2 m.hits, val 2 m.nones, val 2 m.skipped, val 2 m.removed,
     val 2 m.void]

/-- The straps as sampled (R186). DESIGN CHOICE (notes/assumptions/17.md): each port's ROLE is a plain item, 3 to 6, with the
code of its pins, and DESK SELECT is item 7. -/
def State.strapInfo (s : State) : List Byte :=
  valuesBytes
    ([vflag s.straps.master, val 1 s.straps.period.val] ++ s.straps.roles.list.map (fun r => val 1 r.val)
      ++ [val 1 s.straps.deskSelect.val])

/-- One port as HUB INFO gives it. DESIGN CHOICE (notes/assumptions/17.md): its tags outstanding are a mask of one byte, bit n
for tag n. -/
def Port.info (q : Port) : List Byte :=
  valuesBytes
    [val 1 (Role.code q.role), vbits 1 q.outstanding, val 1 q.responses.length, vbits 2 q.pending, vbits 2 q.enabled,
     val 2 q.frameErrors, val 2 q.overruns]

/-- The routable kinds, in the order of the notice table. -/
def routableKinds : List Notice := [.trigger, .trip, .notify, .register, .late, .ring, .imageDropped]

/-- The Client Ports' part: the four ports, then the routing table. -/
def State.portInfo (s : State) : List Byte :=
  valuesBytes
    [vlist (s.cp.ports.list.map Port.info),
     vlist (routableKinds.map (fun k => valuesBytes [val 1 k.index, vbits 1 (s.cp.routes.of k)]))]

/-- HUB INFO (R179). The request's own tag is outstanding by now, and its own response is not yet ready. -/
def reqHubInfo (s : State) : State × Reply :=
  (s, some (.done, valuesBytes [some s.ringInfo, some s.moverInfo, some s.scannerInfo, some s.strapInfo, some s.portInfo]))

/-! ### NOTICE ROUTE and NOTICE ENABLE (R182, R183) -/

/-- The routable kind with a number of the notice table. -/
def routableOf : Nat → Option Notice
  | 1 => some .trigger
  | 3 => some .trip
  | 4 => some .notify
  | 5 => some .register
  | 6 => some .late
  | 7 => some .ring
  | 8 => some .imageDropped
  | _ => none

/-- The routing table with the set of one kind replaced. -/
def Routes.put (r : Routes) (k : Notice) (set : BitVec 4) : Routes :=
  match k with
  | .trigger => { r with trigger := set }
  | .trip => { r with trip := set }
  | .notify => { r with notify := set }
  | .register => { r with register := set }
  | .late => { r with late := set }
  | .ring => { r with ring := set }
  | .imageDropped => { r with imageDropped := set }
  | .setpoint | .views | .frameError | .overrun => r

/-- The routing table after one pair of a NOTICE ROUTE. -/
def Routes.putPair (r : Routes) (q : Nat × Nat) : Routes :=
  match routableOf q.1 with
  | some k => r.put k (BitVec.ofNat 4 q.2)
  | none => r

/-- A pair names a routable kind and a set of ports 0 to 3. -/
def routePairOk (q : Nat × Nat) : Bool := (routableOf q.1).isSome && decide (q.2 < 16)

/-- NOTICE ROUTE (R182). -/
def reqNoticeRoute (pairs : List (Nat × Nat)) (s : State) : State × Reply :=
  if pairs.isEmpty ∨ ¬ pairs.all routePairOk ∨ ¬ keysDistinct pairs then (s, status .badArgument)
  else (s.onCp (fun c => { c with routes := pairs.foldl Routes.putPair c.routes }), status .done)

/-- NOTICE ENABLE (R183). -/
def reqNoticeEnable (p : PortNo) (kinds : Option Nat) (s : State) : State × Reply :=
  match argFin 2048 kinds with
  | none => (s, status .badArgument)
  | some k => (s.onPort p (fun q => { q with enabled := BitVec.ofNat 11 k.val }), status .done)

/-! ### PUT (R175, R176) -/

/-- The block's part of a request: what it does with the request and what it answers. None for a row that is no request. -/
def blockOf : Instr → Option (State → State × Reply)
  | .setCableComp _ _ _ v => some (reqSetCableComp v)
  | .setPublicationOffset _ _ _ v => some (reqSetPublicationOffset v)
  | .hubInfo _ _ _ => some reqHubInfo
  | .setSpeed _ _ _ v => some (reqSetSpeed v)
  | .setRamp _ _ _ a dn de => some (reqSetRamp a dn de)
  | .setVmax _ _ _ v => some (reqSetVmax v)
  | .inchStart _ _ _ v => some (reqInchStart v)
  | .inchStop _ _ _ => some reqInchStop
  | .shaftRead _ _ _ => some reqShaftRead
  | .sectionSet _ p _ slot expected pairs => some (reqSectionSet p slot expected pairs)
  | .trimNudge _ p g hub slot amount => some (reqTrimNudge p g hub slot amount)
  | .sectionRead _ _ _ slot => some (reqSectionRead slot)
  | .fence _ p g => some (reqFence p g)
  | .couple _ p g slot => some (reqCouple p g slot)
  | .decouple _ p g slot => some (reqDecouple p g slot)
  | .setPosition _ p g slot position => some (reqSetPosition p g slot position)
  | .setpointPickup _ p _ slot => some (reqSetpointPickup p slot)
  | .driveStatus _ p _ slot ready fault following position =>
    some (reqDriveStatus p slot ready fault following position)
  | .registerSetInputForm _ _ _ input items => some (reqRegisterInput input items)
  | .registerSetLoopForm _ _ _ loop items => some (reqRegisterLoop loop items)
  | .registerRead _ _ _ loop input => some (reqRegisterRead loop input)
  | .matrixSet _ _ _ pairs => some (reqMatrixSet pairs)
  | .stopPress _ _ _ => some reqStopPress
  | .tripReset _ _ _ => some reqTripReset
  | .recordRead _ _ _ sel => some (reqRecordRead sel)
  | .recordRelease _ _ _ number => some (reqRecordRelease number)
  | .tripRead _ _ _ => some reqTripRead
  | .cameraSet _ _ _ camera items => some (reqCameraSet camera items)
  | .triggerSet _ _ _ camera angles => some (reqTriggerSet camera angles)
  | .stripOpen _ p _ camera trigger width rows => some (reqStripOpen p camera trigger width rows)
  | .stripData _ p _ strip offset bytes => some (reqStripData p strip offset bytes)
  | .stripClose _ p _ strip => some (reqStripClose p strip)
  | .stripDiscard _ p _ strip => some (reqStripDiscard p strip)
  | .stripHold _ p _ strip => some (reqStripHold p strip)
  | .stripUnhold _ p _ strip => some (reqStripUnhold p strip)
  | .stripRead _ _ _ strip offset count => some (reqStripRead strip offset count)
  | .stripList _ _ _ start => some (reqStripList start)
  | .freezeSpanSet _ _ _ span => some (reqFreezeSpanSet span)
  | .viewOpen _ p _ hub kind index rate => some (reqViewOpen p hub kind index rate)
  | .viewFetch _ p _ => some (reqViewFetch p)
  | .viewClose _ p _ view => some (reqViewClose p view)
  | .noticeRoute _ _ _ pairs => some (reqNoticeRoute pairs)
  | .noticeEnable _ p _ kinds => some (reqNoticeEnable p kinds)
  | _ => none

/-- A taken request is checked in the order of R176 and handed to its block. -/
def State.handFrame (s : State) (p : PortNo) (g : Tag) (kind : Nat) (payload : List Byte) : State :=
  match requestRoles kind with
  | none => s.respond p g .unknownKind []
  | some roles =>
    if roles.contains (s.port p).role then
      match ((checkForm kind payload).bind (requestOf s.hubTime p g kind)).bind blockOf with
      | some block => State.answer (block s) p g
      | none => s.respond p g .badArgument []
    else s.respond p g .notPermitted []

/-- The payload length that a request header gives (section 11.4). -/
def headerLength (b1 b2 : Byte) : Nat := b1.toNat % 8 * 256 + b2.toNat

/-- The tag that a request header gives. -/
def headerTag (b1 : Byte) : Tag := ⟨b1.toNat / 64, by have := b1.isLt; omega⟩

/-- The bytes of a PUT, from its transaction byte on to the rise of chip select, are judged (R175). -/
def State.putBytes (s : State) (p : PortNo) (bytes : List Byte) : State :=
  match bytes with
  | kind :: b1 :: b2 :: rest =>
    let len := headerLength b1 b2
    if 1040 < len ∨ rest.length < len then s.frameError p
    else s.takeFrame p (headerTag b1) (fun s1 => s1.handFrame p (headerTag b1) kind.toNat (rest.take len))
  | _ => s.frameError p

/-! ### GET (R177, R184) -/

/-- The bytes of a response header (section 11.4). -/
def responseHeader (r : Response) (ready : Nat) (reported : BitVec 11) : List Byte :=
  beBytes 1 (r.tag.val * 64 + ready % 8 * 8 + 4) ++ beBytes 1 (Status.code r.status) ++ beBytes 2 r.payload.length
    ++ beBytes 2 reported.toNat

/-- The bytes of an idle header. -/
def idleHeader (reported : BitVec 11) : List Byte := beBytes 1 0 ++ beBytes 1 0xFF ++ beBytes 2 0 ++ beBytes 2 reported.toNat

/-- What a GET returns, fixed at its transaction byte. -/
def Port.fixGet (q : Port) : GetFixed :=
  let reported := q.pending &&& q.enabled
  match q.responses with
  | r :: _ =>
    { response := some r, reported := reported, bytes := responseHeader r q.responses.length reported ++ r.payload }
  | [] => { response := none, reported := reported, bytes := idleHeader reported }

/-- The event GET: the transaction byte has been received. -/
def State.beginGet (s : State) (p : PortNo) : State :=
  s.onPort p (fun q => if q.getting.isSome then q else { q with getting := some q.fixGet })

/-- A GET has completed: its response leaves the queue and its tag is free; the notices it reported are no longer pending. -/
def Port.completeGet (q : Port) (f : GetFixed) : Port :=
  let q1 := { q with getting := none, pending := q.pending &&& ~~~f.reported }
  match f.response with
  | some r => { q1 with responses := q.responses.tail, outstanding := q.outstanding &&& ~~~(1#4 <<< r.tag.val) }
  | none => q1

/-- The byte that a GET gives as its `i`-th: those of its frame, and 00h after the frame's end (R177). -/
def GetFixed.byteAt (f : GetFixed) (i : Nat) : Byte := f.bytes.getD i 0

/-- The bytes that the data lines give while the processor clocks out `clocked` bytes of a GET. -/
def GetFixed.shiftedOut (f : GetFixed) (clocked : Nat) : List Byte := (List.range clocked).map f.byteAt

/-- The event GET COMPLETION: chip select rises after `clocked` bytes of the GET. Bytes clocked out after the frame's end read
as 00h and have no effect: they show in the record of what the data lines gave, and nowhere else (R177). -/
def State.endGet (s : State) (p : PortNo) (clocked : Nat) : State :=
  match (s.port p).getting with
  | none => s
  | some f =>
    let s1 := s.onPort p (fun q => { q with shifted := f.shiftedOut clocked })
    if f.bytes.length ≤ clocked then s1.onPort p (fun q => q.completeGet f)
    else (s1.onPort p (fun q => { q with getting := none })).frameError p

/-- A transaction byte that names neither PUT nor GET (section 11.4). -/
def voidByte (b : Byte) : Bool := !(b == 0x50#8 || b == 0x51#8 || b == 0xA0#8 || b == 0xA1#8)

/-! ### The commands -/

/-- HUB_INFO. -/
def execHubInfo (t : HubTime) (p : PortNo) (g : Tag) (s : State) : Host.Outcome State Fault Refusal :=
  finishRequest s t p g anyRole reqHubInfo

/-- PUT. -/
def execPut (t : HubTime) (p : PortNo) (bytes : List Byte) (s : State) : Host.Outcome State Fault Refusal :=
  finish s ((s.advance t).putBytes p bytes)

/-- GET. -/
def execGet (t : HubTime) (p : PortNo) (s : State) : Host.Outcome State Fault Refusal :=
  finish s ((s.advance t).beginGet p)

/-- GET_COMPLETION. -/
def execGetCompletion (t : HubTime) (p : PortNo) (clocked : Nat) (s : State) : Host.Outcome State Fault Refusal :=
  finish s ((s.advance t).endGet p clocked)

/-- VOID_TRANSACTION. -/
def execVoidTransaction (t : HubTime) (p : PortNo) (byte : Byte) (s : State) : Host.Outcome State Fault Refusal :=
  finish s (if voidByte byte then (s.advance t).frameError p else s.advance t)

/-- NOTICE_ROUTE. -/
def execNoticeRoute (t : HubTime) (p : PortNo) (g : Tag) (pairs : List (Nat × Nat)) (s : State) :
    Host.Outcome State Fault Refusal :=
  finishRequest s t p g deskOnly (reqNoticeRoute pairs)

/-- NOTICE_ENABLE. -/
def execNoticeEnable (t : HubTime) (p : PortNo) (g : Tag) (kinds : Option Nat) (s : State) :
    Host.Outcome State Fault Refusal :=
  finishRequest s t p g anyRole (reqNoticeEnable p kinds)

end Sys2Proof.Machine
end

