-- ==== Sys2Proof/Machine/Dispatch.lean ====
section
/-! DEFINITION. One arm per command: each calls the meaning of its row. -/

namespace Sys2Proof.Machine

/-- The effect of a command on everything but the queue of commands. -/
def exec (i : Instr) (s : State) : Host.Outcome State Fault Refusal :=
  match i with
  | .hardwareReset straps tripInLow webBrk => Sys2Proof.Machine.execHardwareReset straps tripInLow webBrk s
  | .censusTimerExpiry t => Sys2Proof.Machine.execCensusTimerExpiry t s
  | .frameForward t f => Sys2Proof.Machine.execFrameForward t f s
  | .heldFrameRelease t => Sys2Proof.Machine.execHeldFrameRelease t s
  | .ownFrameStart t => Sys2Proof.Machine.execOwnFrameStart t s
  | .census t f => Sys2Proof.Machine.execCensus t f s
  | .returnedCensus t f => Sys2Proof.Machine.execReturnedCensus t f s
  | .roster t f => Sys2Proof.Machine.execRoster t f s
  | .returnedRoster t f => Sys2Proof.Machine.execReturnedRoster t f s
  | .rosterTimerExpiry t => Sys2Proof.Machine.execRosterTimerExpiry t s
  | .cycleOrigination t => Sys2Proof.Machine.execCycleOrigination t s
  | .returnedCycleFrame t f => Sys2Proof.Machine.execReturnedCycleFrame t f s
  | .cycleFrame t f => Sys2Proof.Machine.execCycleFrame t f s
  | .deadlineExpiry t => Sys2Proof.Machine.execDeadlineExpiry t s
  | .dataFrameRemoval t f => Sys2Proof.Machine.execDataFrameRemoval t f s
  | .setCableComp t p g value => Sys2Proof.Machine.execSetCableComp t p g value s
  | .setPublicationOffset t p g value => Sys2Proof.Machine.execSetPublicationOffset t p g value s
  | .hubInfo t p g => Sys2Proof.Machine.execHubInfo t p g s
  | .setSpeed t p g speed => Sys2Proof.Machine.execSetSpeed t p g speed s
  | .setRamp t p g a dn de => Sys2Proof.Machine.execSetRamp t p g a dn de s
  | .setVmax t p g vmax => Sys2Proof.Machine.execSetVmax t p g vmax s
  | .inchStart t p g speed => Sys2Proof.Machine.execInchStart t p g speed s
  | .inchStop t p g => Sys2Proof.Machine.execInchStop t p g s
  | .shaftRead t p g => Sys2Proof.Machine.execShaftRead t p g s
  | .setpointPublication t slot => Sys2Proof.Machine.execSetpointPublication t slot s
  | .sectionSet t p g slot expected pairs => Sys2Proof.Machine.execSectionSet t p g slot expected pairs s
  | .trimNudge t p g hub slot amount => Sys2Proof.Machine.execTrimNudge t p g hub slot amount s
  | .edit t src ref slot amount => Sys2Proof.Machine.execEdit t src ref slot amount s
  | .sectionRead t p g slot => Sys2Proof.Machine.execSectionRead t p g slot s
  | .fence t p g => Sys2Proof.Machine.execFence t p g s
  | .couple t p g slot => Sys2Proof.Machine.execCouple t p g slot s
  | .decouple t p g slot => Sys2Proof.Machine.execDecouple t p g slot s
  | .setPosition t p g slot position => Sys2Proof.Machine.execSetPosition t p g slot position s
  | .setpointPickup t p g slot => Sys2Proof.Machine.execSetpointPickup t p g slot s
  | .driveStatus t p g slot ready fault following position => Sys2Proof.Machine.execDriveStatus t p g slot ready fault following position s
  | .markEdge t input edge => Sys2Proof.Machine.execMarkEdge t input edge s
  | .holdOffExpiry t input => Sys2Proof.Machine.execHoldOffExpiry t input s
  | .passCompare t => Sys2Proof.Machine.execPassCompare t s
  | .registerSetInputForm t p g input items => Sys2Proof.Machine.execRegisterSetInputForm t p g input items s
  | .registerSetLoopForm t p g loop items => Sys2Proof.Machine.execRegisterSetLoopForm t p g loop items s
  | .registerRead t p g loop input => Sys2Proof.Machine.execRegisterRead t p g loop input s
  | .tripIn t => Sys2Proof.Machine.execTripIn t s
  | .webBrk t => Sys2Proof.Machine.execWebBrk t s
  | .matrixSet t p g pairs => Sys2Proof.Machine.execMatrixSet t p g pairs s
  | .stopPress t p g => Sys2Proof.Machine.execStopPress t p g s
  | .tripReset t p g => Sys2Proof.Machine.execTripReset t p g s
  | .recordRead t p g sel => Sys2Proof.Machine.execRecordRead t p g sel s
  | .recordRelease t p g number => Sys2Proof.Machine.execRecordRelease t p g number s
  | .tripRead t p g => Sys2Proof.Machine.execTripRead t p g s
  | .freezeWalkExamination t => Sys2Proof.Machine.execFreezeWalkExamination t s
  | .freezeWalkCompletion t => Sys2Proof.Machine.execFreezeWalkCompletion t s
  | .cameraSet t p g camera items => Sys2Proof.Machine.execCameraSet t p g camera items s
  | .triggerSet t p g camera angles => Sys2Proof.Machine.execTriggerSet t p g camera angles s
  | .triggerFire t camera => Sys2Proof.Machine.execTriggerFire t camera s
  | .triggerPulseEnd t camera => Sys2Proof.Machine.execTriggerPulseEnd t camera s
  | .stripOpen t p g camera trigger width rows => Sys2Proof.Machine.execStripOpen t p g camera trigger width rows s
  | .stripData t p g strip offset bytes => Sys2Proof.Machine.execStripData t p g strip offset bytes s
  | .stripClose t p g strip => Sys2Proof.Machine.execStripClose t p g strip s
  | .stripDiscard t p g strip => Sys2Proof.Machine.execStripDiscard t p g strip s
  | .stripHold t p g strip => Sys2Proof.Machine.execStripHold t p g strip s
  | .stripUnhold t p g strip => Sys2Proof.Machine.execStripUnhold t p g strip s
  | .stripRead t p g strip offset count => Sys2Proof.Machine.execStripRead t p g strip offset count s
  | .stripList t p g start => Sys2Proof.Machine.execStripList t p g start s
  | .freezeSpanSet t p g span => Sys2Proof.Machine.execFreezeSpanSet t p g span s
  | .senderTakeHead t => Sys2Proof.Machine.execSenderTakeHead t s
  | .beginTimeout t => Sys2Proof.Machine.execBeginTimeout t s
  | .retryWaitExpiry t => Sys2Proof.Machine.execRetryWaitExpiry t s
  | .awaitCompleteTimeout t => Sys2Proof.Machine.execAwaitCompleteTimeout t s
  | .imageReply t src strip number status receiverStrip => Sys2Proof.Machine.execImageReply t src strip number status receiverStrip s
  | .imageAbortToSender t src strip number reason => Sys2Proof.Machine.execImageAbortToSender t src strip number reason s
  | .imageBegin t src f => Sys2Proof.Machine.execImageBegin t src f s
  | .imageSegment t src strip number seg count bytes => Sys2Proof.Machine.execImageSegment t src strip number seg count bytes s
  | .segmentTimeout t context => Sys2Proof.Machine.execSegmentTimeout t context s
  | .imageAbortToReceiver t src strip number reason => Sys2Proof.Machine.execImageAbortToReceiver t src strip number reason s
  | .scanCompletion t => Sys2Proof.Machine.execScanCompletion t s
  | .rateTimerExpiry t rate => Sys2Proof.Machine.execRateTimerExpiry t rate s
  | .viewOpen t p g hub kind index rate => Sys2Proof.Machine.execViewOpen t p g hub kind index rate s
  | .viewFetch t p g => Sys2Proof.Machine.execViewFetch t p g s
  | .viewClose t p g view => Sys2Proof.Machine.execViewClose t p g view s
  | .exportKeepAlive t entry => Sys2Proof.Machine.execExportKeepAlive t entry s
  | .subscribe t src view sub kind index rate => Sys2Proof.Machine.execSubscribe t src view sub kind index rate s
  | .unsubscribe t src view sub => Sys2Proof.Machine.execUnsubscribe t src view sub s
  | .subscribeReply t src view sub status => Sys2Proof.Machine.execSubscribeReply t src view sub status s
  | .viewUpdate t src view sub content => Sys2Proof.Machine.execViewUpdate t src view sub content s
  | .staleCountExpiry t view => Sys2Proof.Machine.execStaleCountExpiry t view s
  | .editReply t src ref status amount serial => Sys2Proof.Machine.execEditReply t src ref status amount serial s
  | .nudgeTimeout t ref => Sys2Proof.Machine.execNudgeTimeout t ref s
  | .put t p bytes => Sys2Proof.Machine.execPut t p bytes s
  | .get t p => Sys2Proof.Machine.execGet t p s
  | .getCompletion t p clocked => Sys2Proof.Machine.execGetCompletion t p clocked s
  | .voidTransaction t p byte => Sys2Proof.Machine.execVoidTransaction t p byte s
  | .noticeRoute t p g pairs => Sys2Proof.Machine.execNoticeRoute t p g pairs s
  | .noticeEnable t p g kinds => Sys2Proof.Machine.execNoticeEnable t p g kinds s
  | .lineReturnsToInactive t line => Sys2Proof.Machine.execLineReturnsToInactive t line s

end Sys2Proof.Machine
end

