-- ==== Sys2Proof/Machine/Step.lean ====
section
/-! DEFINITION. One step of the hub: the command at the front of the queue takes place. -/

namespace Sys2Proof.Machine

/-- The hub with a queue of commands in place of its own. -/
def State.withQueue (s : State) (q : List Instr) : State := { s with pending := q }

/-- Take the command at the front of the queue and run it on the hub with the rest. With no command waiting, one tick of hub
time passes (R27; DESIGN CHOICE, notes/assumptions/1.md). -/
def step (s : State) : Host.Outcome State Fault Refusal :=
  match s.pending with
  | i :: rest => exec i (s.withQueue rest)
  | [] => .next (s.advance (s.hubTime + 1))

/-- The hub with the command that a word spells put at the front of its queue; the hub itself where the word spells none. -/
def State.withFetchWord (s : State) (nbits w : Nat) : State :=
  match decodeTableWord nbits w with
  | some i => s.withQueue (i :: s.pending)
  | none => s

end Sys2Proof.Machine
end

