-- ==== Sys2Proof/WellFormed.lean ====
section
/-! DEFINITION. Which commands can come from outside: every number lies in the range of the field that carries it
(sections 1.5, 11.2 to 11.4). The meanings are total; they do not assume it. -/

namespace Sys2Proof

/-- An unsigned number of `k` bytes. -/
def fitsBytes (k n : Nat) : Bool := decide (n < 256 ^ k)

/-- A signed number of `k` bytes. -/
def fitsSigned (k : Nat) (v : Int) : Bool := decide (-(256 ^ k : Int) ≤ 2 * v) && decide (2 * v < 256 ^ k)

/-- An optional value that is absent or in range. -/
def optFits {α : Type} (f : α → Bool) : Option α → Bool
  | none => true
  | some x => f x

/-- An optional unsigned value of `k` bytes. -/
def optBytes (k : Nat) (v : Option Nat) : Bool := optFits (fitsBytes k) v

/-- The fields of a CENSUS (section 11.3). -/
def CensusFields.wellFormed (f : CensusFields) : Bool := fitsBytes 1 f.count

/-- The fields of a ROSTER (section 11.3). -/
def RosterFields.wellFormed (f : RosterFields) : Bool := fitsBytes 1 f.hubCount && fitsBytes 4 f.dpub

/-- The fields of a cycle frame (section 11.3). -/
def CycleFields.wellFormed (f : CycleFields) : Bool :=
  decide (1 ≤ f.hubCount) && decide (f.hubCount ≤ 64) && decide (f.dpub < 131072) && fitsBytes 2 f.age
    && fitsSigned 4 f.v

/-- The fields of a data frame (section 11.3). -/
def DataFields.wellFormed (f : DataFields) : Bool :=
  fitsBytes 1 f.dst && fitsBytes 1 f.src && fitsBytes 2 f.payloadLen && decide (f.payload.length ≤ f.payloadLen)

/-- What a frame is, in range; an unknown kind has a code that no kind of section 11.3 has. -/
def FrameBody.wellFormed : FrameBody → Bool
  | .census f => f.wellFormed
  | .roster f => f.wellFormed
  | .cycle f => f.wellFormed
  | .data f => f.wellFormed
  | .unknown c =>
    !([0x01#8, 0x02#8, 0x03#8, 0x10#8, 0x11#8, 0x20#8, 0x21#8, 0x22#8, 0x23#8, 0x30#8, 0x31#8, 0x32#8, 0x33#8].contains c)

/-- The fields of an IMAGE BEGIN (section 11.3). -/
def BeginFields.wellFormed (f : BeginFields) : Bool :=
  fitsBytes 2 f.strip && fitsBytes 1 f.camera && fitsBytes 1 f.mode && fitsBytes 2 f.width && fitsBytes 1 f.rows
    && fitsBytes 4 f.byteSize && fitsBytes 2 f.segCount

/-- The content of a VIEW UPDATE: item numbers of one byte, value lengths of two, and a length of two in all. -/
def contentWellFormed (l : List Item) : Bool :=
  l.all (fun i => fitsBytes 1 i.num && fitsBytes 2 i.value.length)
    && fitsBytes 2 ((l.map (fun i => 3 + i.value.length)).sum)

/-- The items of a REGISTER SET in its input form (R74, R188). -/
def InputItems.wellFormed (x : InputItems) : Bool := optBytes 1 x.edge && optBytes 2 x.holdOff

/-- The items of a REGISTER SET in its loop form (R76, R188). -/
def LoopItems.wellFormed (x : LoopItems) : Bool :=
  optFits (fun a : SourceArg => fitsBytes 1 a.code && fitsBytes 1 a.index) x.source && optBytes 1 x.channel
    && optBytes 2 x.startColumn && optBytes 1 x.direction && optBytes 1 x.threshold && optBytes 1 x.runLength
    && optBytes 3 x.mexp && optBytes 3 x.window && optBytes 2 x.deadband && optBytes 1 x.gain && optBytes 1 x.missLimit
    && optBytes 4 x.minSpeed

/-- The items of a CAMERA SET (R117, R188). -/
def CameraItems.wellFormed (x : CameraItems) : Bool := optBytes 1 x.mode && optBytes 2 x.pitch && optBytes 4 x.minSpeed

/-- The size of a SECTION SET value, by its field number (R54, section 11.2); one byte stands for a number that is none. -/
def sectionValueFits (k : Nat) (v : Int) : Bool :=
  if k = 4 ∨ k = 6 then fitsSigned 3 v
  else decide (0 ≤ v) &&
    (if k = 5 then fitsBytes 3 v.toNat else if k = 1 ∨ k = 9 then fitsBytes 1 v.toNat else fitsBytes 2 v.toNat)

/-- A status is listed, or has a code beyond those of the status table. -/
def Status.wellFormed : Status → Bool
  | .unlisted c => decide (20 < c.toNat)
  | _ => true

/-- The status of an IMAGE REPLY is listed, or has another code. -/
def ReplyStatus.wellFormed : ReplyStatus → Bool
  | .unlisted c => decide (2 < c.toNat)
  | _ => true

/-- The reason of an IMAGE ABORT is listed, or has another code. -/
def AbortReason.wellFormed : AbortReason → Bool
  | .unlisted c => decide (3 < c.toNat)
  | _ => true

/-- The status of a SUBSCRIBE REPLY is listed, or has another code. -/
def SubStatus.wellFormed : SubStatus → Bool
  | .unlisted c => decide (2 < c.toNat)
  | _ => true

/-- A list of pairs of one byte each. -/
def bytePairs (l : List (Nat × Nat)) : Bool := l.all (fun q => fitsBytes 1 q.1 && fitsBytes 1 q.2)

/-- Every number of a command lies in the range of the field that carries it. -/
def Instr.wellFormed : Instr → Bool
  | .hardwareReset _ _ _ => true
  | .censusTimerExpiry _ | .heldFrameRelease _ | .ownFrameStart _ | .rosterTimerExpiry _ | .cycleOrigination _
  | .deadlineExpiry _ | .setpointPublication _ _ | .markEdge _ _ _ | .holdOffExpiry _ _ | .passCompare _ | .tripIn _
  | .webBrk _ | .freezeWalkExamination _ | .freezeWalkCompletion _ | .triggerFire _ _ | .triggerPulseEnd _ _
  | .senderTakeHead _ | .beginTimeout _ | .retryWaitExpiry _ | .awaitCompleteTimeout _ | .segmentTimeout _ _
  | .scanCompletion _ | .rateTimerExpiry _ _ | .exportKeepAlive _ _ | .staleCountExpiry _ _ | .nudgeTimeout _ _
  | .lineReturnsToInactive _ _ => true
  | .frameForward _ f => f.body.wellFormed && decide (1 ≤ f.length)
  | .census _ f | .returnedCensus _ f => f.fields.wellFormed && decide (1 ≤ f.length)
  | .roster _ f | .returnedRoster _ f => f.fields.wellFormed && decide (1 ≤ f.length)
  | .cycleFrame _ f | .returnedCycleFrame _ f => f.fields.wellFormed && decide (1 ≤ f.length)
  | .dataFrameRemoval _ f => f.fields.wellFormed && decide (1 ≤ f.length)
  | .hubInfo _ _ _ | .inchStop _ _ _ | .shaftRead _ _ _ | .fence _ _ _ | .stopPress _ _ _ | .tripReset _ _ _
  | .tripRead _ _ _ | .viewFetch _ _ _ => true
  | .setCableComp _ _ _ v => optBytes 2 v
  | .setPublicationOffset _ _ _ v => optBytes 3 v
  | .setSpeed _ _ _ v | .inchStart _ _ _ v => optFits (fitsSigned 4) v
  | .setRamp _ _ _ a dn de => optBytes 3 a && optBytes 3 dn && optBytes 3 de
  | .setVmax _ _ _ v => optBytes 4 v
  | .sectionSet _ _ _ slot expected pairs =>
    optBytes 1 slot && optBytes 2 expected && pairs.all (fun q => fitsBytes 1 q.1 && sectionValueFits q.1 q.2)
  | .trimNudge _ _ _ hub slot amount => optBytes 1 hub && optBytes 1 slot && optFits (fitsSigned 4) amount
  | .edit _ src _ slot amount => fitsBytes 1 src && fitsBytes 1 slot && fitsSigned 4 amount
  | .sectionRead _ _ _ slot | .couple _ _ _ slot | .decouple _ _ _ slot | .setpointPickup _ _ _ slot => optBytes 1 slot
  | .setPosition _ _ _ slot position => optBytes 1 slot && optBytes 3 position
  | .driveStatus _ _ _ slot _ _ _ position => optBytes 1 slot && optBytes 3 position
  | .registerSetInputForm _ _ _ input items => optBytes 1 input && items.wellFormed
  | .registerSetLoopForm _ _ _ loop items => optBytes 1 loop && items.wellFormed
  | .registerRead _ _ _ loop input => optBytes 1 loop && optBytes 1 input
  | .matrixSet _ _ _ pairs | .noticeRoute _ _ _ pairs => bytePairs pairs
  | .recordRead _ _ _ _ | .recordRelease _ _ _ _ => true
  | .cameraSet _ _ _ camera items => optBytes 1 camera && items.wellFormed
  | .triggerSet _ _ _ camera angles => optBytes 1 camera && optFits (fun l => l.all (fitsBytes 3)) angles
  | .stripOpen _ _ _ camera trigger width rows =>
    optBytes 1 camera && optBytes 2 trigger && optBytes 2 width && optBytes 1 rows
  | .stripData _ _ _ strip offset bytes => optBytes 2 strip && optBytes 3 offset && decide (bytes.length ≤ 1024)
  | .stripClose _ _ _ strip | .stripDiscard _ _ _ strip | .stripHold _ _ _ strip | .stripUnhold _ _ _ strip =>
    optBytes 2 strip
  | .stripRead _ _ _ strip offset count => optBytes 2 strip && optBytes 3 offset && optBytes 2 count
  | .stripList _ _ _ start => optBytes 1 start
  | .freezeSpanSet _ _ _ span => optBytes 1 span
  | .imageReply _ src strip _ st receiverStrip =>
    fitsBytes 1 src && fitsBytes 2 strip && st.wellFormed && fitsBytes 2 receiverStrip
  | .imageAbortToSender _ src strip _ reason | .imageAbortToReceiver _ src strip _ reason =>
    fitsBytes 1 src && fitsBytes 2 strip && reason.wellFormed
  | .imageBegin _ src f => fitsBytes 1 src && f.wellFormed
  | .imageSegment _ src strip _ seg count bytes =>
    fitsBytes 1 src && fitsBytes 2 strip && fitsBytes 2 seg && decide (count = bytes.length) && decide (count ≤ 1032)
  | .viewOpen _ _ _ hub kind index rate => optBytes 1 hub && optBytes 1 kind && optBytes 1 index && optBytes 1 rate
  | .viewClose _ _ _ view => optBytes 1 view
  | .subscribe _ src view _ kind index rate =>
    fitsBytes 1 src && fitsBytes 1 view && fitsBytes 1 kind && fitsBytes 1 index && fitsBytes 1 rate
  | .unsubscribe _ src view _ => fitsBytes 1 src && fitsBytes 1 view
  | .subscribeReply _ src view _ st => fitsBytes 1 src && fitsBytes 1 view && st.wellFormed
  | .viewUpdate _ src view _ content => fitsBytes 1 src && fitsBytes 1 view && optFits contentWellFormed content
  | .editReply _ src _ st amount _ => fitsBytes 1 src && st.wellFormed && fitsSigned 4 amount
  | .put _ _ _ | .get _ _ | .getCompletion _ _ _ | .voidTransaction _ _ _ => true
  | .noticeEnable _ _ _ kinds => optBytes 2 kinds

end Sys2Proof
end

