-- ==== Sys2Proof/Safety.lean ====
section
/-! DEFINITION. The terms in which claims about the hub are stated: which blocks a command leaves as they were, what a
request does at its port, and the invariants that the spec calls laws of the device. -/

namespace Sys2Proof.Machine

/-! ### Frames -/

/-- The ten blocks. -/
inductive Blk where
  | rc | su | se | ru | tu | is | im | ms | vu | cp
deriving DecidableEq, Repr

/-- A view is as it was, but that a CLEAN local one may have become DIRTY (R164). -/
def viewKept (a b : Option View) : Prop :=
  b = a ∨ ∃ v, a = some v ∧ v.target = none ∧ v.state = .clean ∧ b = some { v with state := .dirty }

/-- An export is as it was, but that a CLEAN one may have become DIRTY (R168). -/
def exportKept (a b : Option ExportEntry) : Prop :=
  b = a ∨ ∃ e, a = some e ∧ e.state = .clean ∧ b = some { e with state := .dirty }

/-- The View Unit is as it was, but for CLEAN views and exports that became DIRTY. -/
def VU.kept (u u' : VU) : Prop :=
  u' = { u with views := u'.views, exports := u'.exports }
    ∧ (∀ i, viewKept (u.views.get i) (u'.views.get i)) ∧ (∀ i, exportKept (u.exports.get i) (u'.exports.get i))

/-- The Ring Controller is as it was, but that RING OUT has gone on sending until hub time `t`. -/
def RC.kept (s : State) (t : HubTime) (r : RC) : Prop := r = { s.rc with outLeft := s.rc.outLeft - (t - s.hubTime).toNat }

/-- Hub time is `t`, the straps and the queue of commands are as they were, and so is every block that is not named. -/
def State.frame (s s' : State) (t : HubTime) (changed : List Blk) : Prop :=
  s'.hubTime = t ∧ s'.straps = s.straps ∧ s'.pending = s.pending
    ∧ (Blk.rc ∈ changed ∨ RC.kept s t s'.rc) ∧ (Blk.su ∈ changed ∨ s'.su = s.su) ∧ (Blk.se ∈ changed ∨ s'.se = s.se)
    ∧ (Blk.ru ∈ changed ∨ s'.ru = s.ru) ∧ (Blk.tu ∈ changed ∨ s'.tu = s.tu) ∧ (Blk.is ∈ changed ∨ s'.is = s.is)
    ∧ (Blk.im ∈ changed ∨ s'.im = s.im) ∧ (Blk.ms ∈ changed ∨ s'.ms = s.ms) ∧ (Blk.vu ∈ changed ∨ s.vu.kept s'.vu)
    ∧ (Blk.cp ∈ changed ∨ s'.cp = s.cp)

/-! ### Requests at a port -/

/-- A request with tag `g` put into port `p` now is taken and permitted (R175, R176). -/
def State.takes (s : State) (p : PortNo) (g : Tag) (roles : List Role) : Prop :=
  (s.port p).outstanding ≠ BitVec.allOnes 4 ∧ (s.port p).outstanding.getLsbD g = false ∧ (s.port p).role ∈ roles

/-- A port that has taken the request with tag `g`. -/
def Port.taken (q : Port) (g : Tag) : Port := { q with outstanding := q.outstanding ||| (1#4 <<< g.val) }

/-- A port in which the response to tag `g` has become ready. -/
def Port.ready (q : Port) (g : Tag) (st : Status) (payload : List Byte) : Port :=
  { q with responses := q.responses ++ [⟨g, st, payload⟩] }

/-- The Client Ports once the request with tag `g` has been taken at port `p` and answered at once, all else as it was. -/
def CP.answered (c : CP) (p : PortNo) (g : Tag) (st : Status) (payload : List Byte) : CP :=
  { c with ports := c.ports.set p (((c.ports.get p).taken g).ready g st payload) }

/-- The Client Ports once the request with tag `g` has been taken at port `p` and waits, all else as it was. -/
def CP.waiting (c : CP) (p : PortNo) (g : Tag) : CP := { c with ports := c.ports.set p ((c.ports.get p).taken g) }

/-- A port that discarded a frame, voided a transaction or saw a GET cut short: notice FRAME ERROR, and the count one up, at
most 65,535 (R174, R175, R177). -/
def Port.faulted (q : Port) : Port :=
  { q with pending := q.pending ||| 512#11, frameErrors := if q.frameErrors < 65535 then q.frameErrors + 1 else 65535 }

/-- The Client Ports when port `p` has been changed and all else is as it was. -/
def CP.withPort (c : CP) (p : PortNo) (q : Port) : CP := { c with ports := c.ports.set p q }

/-- The Client Ports when notice kinds have been set at the ports of a route, all else as it was (R180). -/
def CP.notified (c : CP) (route : BitVec 4) (kinds : BitVec 11) : CP :=
  { c with ports := c.ports.mapIdx (fun p q =>
      if route.getLsbD p then { q with pending := q.pending ||| kinds } else q) }

/-! ### The cycle step -/

/-- Command `c` takes one cycle step at a hub in RUNNING, with nothing lost or raised before it: a new and valid cycle frame
that is not LATE (R13, R15), an origination whose frame before returned or is the first to fail (R12, R20), or the first
missed deadline (R19). -/
def State.takesStep (s : State) (c : Instr) : Prop :=
  s.rc.ringState = .running
    ∧ ((∃ t f, c = .cycleFrame t ⟨f, 27, true⟩ ∧ s.isMaster = false ∧ s.rc.rosterHeld = true
        ∧ s.rc.period = some f.period ∧ s.rc.hubCount = some f.hubCount
        ∧ (s.rc.lastCycle = none ∨ 0 < sdiff f.number s.su.tracker.lastCycle)
        ∧ min 65535 (f.age + s.compAt (t - 54)) ≤ f.dpub ∧ min 65535 (f.age + s.compAt (t - 54)) < 65535)
      ∨ (∃ t x, c = .cycleOrigination t ∧ s.rc.nextOrigination = some x ∧ isDue x t = true
        ∧ (s.rc.lastCycle = none ∨ s.rc.returnSeen = true ∨ s.rc.failedReturns = 0))
      ∨ ∃ t x r, c = .deadlineExpiry t ∧ s.isMaster = false ∧ s.rc.deadline = some x ∧ isDue x t = true
        ∧ s.rc.lastCycle = some r ∧ s.rc.missedDeadlines = 0)

/-- A command in which a cycle step of the hub may be taken: a cycle frame, an origination, a missed deadline, or the roster
that returns to a master and makes it originate (R11, R12, R13, R19). -/
def mayStep (c : Instr) : Prop :=
  (∃ t f, c = .cycleFrame t f) ∨ (∃ t, c = .cycleOrigination t) ∨ (∃ t, c = .deadlineExpiry t) ∨ ∃ t f, c = .returnedRoster t f

/-- Command `c` may change a value of the content of kind `k` and change it back (R164, notes/assumptions/55.md): at a cycle
step a section for which two requests wait, or a loop whose mark seen is clear and whose input holds a capture; at a cycle
frame with RESET REQUEST the Trip Unit's causes. -/
def State.mayRevert (s : State) (c : Instr) : ViewKind → Prop
  | .shaft | .camera _ => False
  | .slot i => mayStep c ∧ 2 ≤ (s.se.waiting.filter (fun w => w.slot == i)).length
  | .register i =>
    mayStep c ∧ (s.loop i).enable = true ∧ (s.loop i).markSeen = false
      ∧ ∃ n, (s.loop i).source = .sensor n ∧ (s.ru.inputs.get n).pending ≠ none
  | .trips => ∃ t f, c = .cycleFrame t f ∧ f.fields.resetRequest = true

/-- What a command `c` from `s` to `s'` leaves of the state of a CLEAN local view or export of kind `k`: DIRTY when the value of
its content has changed; else CLEAN, or DIRTY where a value has changed and changed back (R164, R168). -/
def State.leavesClean (s s' : State) (c : Instr) (k : ViewKind) (st : ViewState) : Prop :=
  if s'.content k = s.content k then st = .clean ∨ (st = .dirty ∧ s.mayRevert c k) else st = .dirty

/-! ### The sections -/

/-- Tt takes a value clamped to ±Tmax, and AT LIMIT says whether the clamp acted (R45, R48, R49). -/
def Section.trimmed (x : Section) (v : Int) : Section :=
  { x with tt := max (-(x.tmax : Int)) (min v x.tmax), atLimit := decide ((x.tmax : Int) < v ∨ v < -(x.tmax : Int)) }

/-- A section after one posted change (R46, R48): out of VACANT it is IDLE with θs, R and Ca 0; a nudge adds to Tt; a group
stores what it names, with R 0 where it names N or D and Tt clamped where it names Tt or Tmax; the edit serial is one up. -/
def Section.changed (x : Section) (c : Change) : Section :=
  let y := if x.state = .vacant then { x with state := .idle, position := 0, r := 0, ca := 0 } else x
  let z := { y with serial := y.serial + 1 }
  match c.body with
  | .nudge a => z.trimmed (z.tt + a)
  | .set f =>
    let w := { z with
      port := f.port.getD z.port, n := f.n.getD z.n, d := f.d.getD z.d, os := f.os.getD z.os, tmax := f.tmax.getD z.tmax
      tt := f.tt.getD z.tt, slew := f.slew.getD z.slew, nudgeLimit := f.nudgeLimit.getD z.nudgeLimit, tol := f.tol.getD z.tol
      r := if f.n = none ∧ f.d = none then z.r else 0 }
    if f.tt = none ∧ f.tmax = none then w else w.trimmed w.tt

/-- A section after stages 1 and 2 of a step (R48, R49, R103): its list applied, oldest first, and emptied; out of VACANT in
LOCKOUT it is RELEASED; the correction sum is added to the Tt of a COUPLED section, where one was delivered, and is gone. -/
def Section.readied (x : Section) (lockout : Bool) : Section :=
  let y := { x.posted.foldl Section.changed x with posted := [] }
  let z := if lockout = true ∧ x.state = .vacant ∧ x.posted ≠ [] then { y with state := .released } else y
  { (if z.state = .coupled ∧ z.corrHeld = true then z.trimmed (z.tt + z.corrSum) else z) with corrSum := 0, corrHeld := false }

/-! ### The Trip Unit -/

/-- What an order for a class leaves of a section's state (R61, R101). -/
def SectionState.under : Cls → SectionState → SectionState
  | .quick, .coupled | .quick, .idle => .held
  | .coast, .vacant => .vacant
  | .coast, _ => .released
  | _, st => st

/-- In `s'` the sections stand as an order for a class left them (R101). -/
def State.ordered (s' : State) (k : Cls) : Prop := ∀ i, (s'.slot i).state = SectionState.under k (s'.slot i).state

/-- What an order for class `k` has done between `s` and `s'`, when nothing else reached the sections (R61, R101): a section
that it changes has its new state, an empty list and no correction sum, and is else as it was; any other is as it was; a waiting
FENCE that noted a changed one is answered DISCARDED, and the others wait on. -/
def State.orderTaken (s s' : State) (k : Cls) : Prop :=
  let hit := fun i => SectionState.under k (s.slot i).state ≠ (s.slot i).state
  (∀ i, s'.slot i = if hit i then
      { s.slot i with state := SectionState.under k (s.slot i).state, posted := [], corrSum := 0, corrHeld := false }
    else s.slot i)
  ∧ s'.se.waiting = s.se.waiting ∧ s'.se.replies = s.se.replies
  ∧ s'.se.fences = s.se.fences.filter (fun f => decide (¬ ∃ i ∈ f.slots, hit i))
  ∧ ∀ f ∈ s.se.fences, (∃ i ∈ f.slots, hit i) → ⟨f.tag, .discarded, []⟩ ∈ (s'.port f.port).responses

/-- Section `i` at the release of a trip (R61, R107): HELD or RELEASED it is IDLE, with θs kept, but that a RELEASED one with a
drive report takes its position; COUPLED it stays so. A request that waits may change a HELD or COUPLED one at the step. -/
def State.sectionFreed (s s' : State) (i : SlotNo) : Prop :=
  let alone := ∀ w ∈ s.se.waiting, w.slot ≠ i
  match (s.slot i).state with
  | .held => (s'.slot i).state = .idle ∧ (alone → (s'.slot i).position = (s.slot i).position)
  | .released =>
    (s'.slot i).state = .idle ∧ (s'.slot i).position = (match (s.slot i).report with
      | some r => r.position
      | none => (s.slot i).position)
  | .coupled => alone → (s'.slot i).state = .coupled
  | .vacant | .idle => True

/-- A record after a pair has been appended to its secondary list, if the limits let it, and a class reached (R100); a class below
the highest leaves it, which is the model's choice (notes/assumptions/66.md). -/
def TripRecord.noted (r : TripRecord) (c : CausePair) (k : Cls) : TripRecord :=
  { r with
    secondary := if r.secondary.length < 8 ∧ c ∉ r.secondary ∧ c ≠ r.first then r.secondary ++ [c] else r.secondary
    highest := r.highest.max k }

/-- `r` is the current record of `s`, the newest with its number, between `before` and `after` (R97, R108). -/
def State.currentAt (s : State) (before : List TripRecord) (r : TripRecord) (after : List TripRecord) : Prop :=
  s.tu.records = before ++ r :: after ∧ s.tu.current = some r.number ∧ ∀ q ∈ after, q.number ≠ r.number

/-- The records of `s'` are those of `s`, the current one changed by `f`; without a current one they are all as they were. -/
def State.currentBecomes (s s' : State) (f : TripRecord → TripRecord) : Prop :=
  (∀ before r after, s.currentAt before r after → s'.tu.records = before ++ f r :: after)
    ∧ ((∀ r ∈ s.tu.records, s.tu.current ≠ some r.number) → s'.tu.records = s.tu.records)

/-- A trip has been entered between `s` and `s'`: the state is CAPTURE, and a record that has `P` has been opened with its first
cause, is current and CAPTURING; the oldest of four has gone (R95 to R97, R108). -/
def State.tripOpened (s s' : State) (first : CausePair) (P : TripRecord → Prop) : Prop :=
  s'.tu.state = .capture ∧ s'.tu.recordCount = s.tu.recordCount + 1 ∧ s'.tu.current = some (s.tu.recordCount + 1)
    ∧ ∃ r, s'.tu.records = (if 4 ≤ s.tu.records.length then s.tu.records.tail else s.tu.records) ++ [r]
      ∧ r.number = s.tu.recordCount + 1 ∧ r.first = first ∧ r.capturing = true ∧ P r

/-- The tripped-hub mask of a record that an entry to CAPTURE opens, `s` before it and `s'` after: the carried mask, with the bit
of the hub's own address set when the own class is SYNC or above (R97). -/
def State.maskAtEntry (s s' : State) : BitVec 32 :=
  match s.rc.hubAddress with
  | some h => if 2 ≤ s'.ownClass.rank then s.tu.carriedMask ||| 1#32 <<< h else s.tu.carriedMask
  | none => s.tu.carriedMask

/-- How many cycles before the trip cycle `c` a strip was exposed, where that makes it a candidate of a freeze walk: its stamp is
KNOWN or PENDING, it is not RECEIVING, and the difference is from 0 to the freeze span less one (R130). -/
def Strip.exposedBefore (x : Strip) (c : BitVec 16) (span : Nat) : Option Int :=
  let near := fun e : BitVec 16 => if 0 ≤ sdiff c e ∧ sdiff c e ≤ (span : Int) - 1 then some (sdiff c e) else none
  if x.receiving then none
  else
    match x.stamp with
    | .known _ e | .pending _ e => near e
    | .unknown => none

/-- The candidates that a freeze walk of trip cycle `c` starts with: every strip that is one, smallest difference first and, for
equal ones, latest created first (R130). -/
def State.walkOrder (s : State) (c : BitVec 16) (candidates : List (Option Nat)) : Prop :=
  ∃ l : List Strip, candidates = l.map (fun x => some x.id)
    ∧ (∀ x ∈ l, (x.exposedBefore c s.is.span).isSome = true)
    ∧ l.Pairwise (fun x y => (x.exposedBefore c s.is.span).getD 0 ≤ (y.exposedBefore c s.is.span).getD 0)
    ∧ ∀ d : Int, l.filter (fun x => decide (x.exposedBefore c s.is.span = some d))
        = (s.is.strips.filter (fun x => decide (x.exposedBefore c s.is.span = some d))).reverse

/-- The latched causes to which the matrix gives SYNC or above, in the order of the set (R88). -/
def State.stopping (s : State) : List CausePair := s.tu.causes.filter (fun c => decide (2 ≤ (s.tu.matrix.get c.cause).rank))

/-- The cycle step of a new frame raises no cause that is not latched already: no PUBLICATION LATE of a late frame (R15), no
DRIVE SILENT (R69) and no REGISTER LOST (R82). -/
def State.quietStep (s : State) (late : Prop) : Prop :=
  (late → ⟨.publicationLate, none⟩ ∈ s.tu.causes)
    ∧ ∀ i : SlotNo, (((s.slot i).tol = 0 ∧ (s.slot i).posted = []) ∨ ⟨.driveSilent, some i⟩ ∈ s.tu.causes)
      ∧ ((s.loop i).enable = false ∨ ⟨.registerLost, some i⟩ ∈ s.tu.causes)

/-- What the Trip Unit has done with a trip word of class `k` that was handed to it, with a step whose flags show AT REST
(`rest`) and with a RESET REQUEST (`reset`), when nothing else reached it: entry, release, escalation, the end of STOPPING, and
the reset (R95, R96, R99, R100, R106, R107). -/
def State.tripWordTaken (s s' : State) (k : Cls) (rest reset : Bool) : Prop :=
  let left := if reset then s.tu.causes.filter (fun c => !s'.conditionGone c) else s.tu.causes
  let entered := s.tripOpened s' ⟨.remote, none⟩ (fun r =>
      r.secondary = [] ∧ r.entryClass = s'.effectiveClass ∧ r.highest = s'.effectiveClass
        ∧ r.cycle = s'.su.tracker.lastCycle ∧ r.angle = s'.su.tracker.angle ∧ r.v = s'.su.tracker.lastV)
    ∧ s'.tu.causes = s.tu.causes ∧ s'.ordered s'.effectiveClass
  let stays := s'.tu.records = s.tu.records ∧ s'.tu.causes = left
  match s.tu.state with
  | .normal => if 2 ≤ k.rank then entered else s'.tu.state = .normal ∧ stays
  | .releasing =>
    if (s.tu.releaseLevel.getD .noClass).rank < k.rank then entered
    else if 2 ≤ k.rank then s'.tu.state = .releasing ∧ s'.tu.releaseLevel = s.tu.releaseLevel ∧ stays
    else
      s'.tu.state = .normal ∧ s'.tu.releaseLevel = none ∧ s'.tu.current = none ∧ stays
        ∧ ∀ i, (s'.slot i).state ≠ .held ∧ (s'.slot i).state ≠ .released ∧ s.sectionFreed s' i
  | .capture | .stopping | .stopped | .lockout =>
    let noted := fun r : TripRecord => if s.effectiveClass.rank < k.rank then r.noted ⟨.remote, none⟩ k else r
    s.currentBecomes s' noted ∧ (s.effectiveClass.rank < k.rank → s'.ordered k)
      ∧ (if s.tu.state = .stopped ∧ reset = true then
          s'.tu.causes = left
            ∧ (if ∃ c ∈ left, 2 ≤ (s.tu.matrix.get c.cause).rank then s'.tu.state = .stopped
              else
                s'.tu.state = .releasing ∧ s'.tu.current = none
                  ∧ ∀ before r after, s.currentAt before r after → s'.tu.releaseLevel = some (noted r).highest)
        else
          s'.tu.causes = s.tu.causes
            ∧ s'.tu.state = (if s.tu.state = .stopping ∧ rest = true then .stopped else s.tu.state))

/-- What RING LOST has done at the Trip Unit, whatever the same event did after it: a trip is entered with it as first cause;
or, as the second failure, LOCKOUT, with every section RELEASED; it stands in the current record's secondary list, and the
record's highest class is no lower, which is the model's choice (R95, R96, R100, R102, notes/assumptions/66.md). -/
def State.ringLostTaken (s s' : State) : Prop :=
  let c : CausePair := ⟨.ringLost, none⟩
  let listed := ∀ before r after, s.currentAt before r after → r.secondary.length < 8 → c ≠ r.first →
    ∃ r', s'.tu.records = before ++ r' :: after ∧ r'.number = r.number ∧ r'.first = r.first ∧ c ∈ r'.secondary
      ∧ r.highest.rank ≤ r'.highest.rank
  c ∈ s'.tu.causes ∧
  match s.tu.state with
  | .normal | .releasing => c ∉ s.tu.causes → 2 ≤ (s.tu.matrix.get .ringLost).rank → s.tripOpened s' c (fun _ => True)
  | .capture | .stopping => s'.tu.state = .lockout ∧ listed ∧ ∀ i, (s'.slot i).state = .vacant ∨ (s'.slot i).state = .released
  | .stopped | .lockout => s'.tu.state = s.tu.state ∧ (c ∉ s.tu.causes → listed)

/-! ### The fibre -/

/-- At hub time `t` the acyclic window is open for a frame of `length` bytes (R24). -/
def State.opensFor (s : State) (t : HubTime) (length : Nat) : Prop :=
  (s.isMaster = true ∧ s.rc.ringState = .down)
    ∨ ∃ x, (if s.isMaster then s.rc.nextOrigination else s.rc.expectedNext) = some x
      ∧ (2 * length + 200 : Int) ≤ sdiff x t

/-- A frame is removed at the hub and not forwarded, as the table of R3 has it. -/
def State.removes (s : State) : FrameBody → Prop
  | .census _ | .roster _ | .cycle _ | .unknown _ => s.isMaster = true
  | .data f =>
    if s.rc.ringState = .running then
      s.rc.hubAddress = some f.dst ∨ s.rc.hubAddress = some f.src ∨ f.dst = f.src
        ∨ ∀ n ∈ s.rc.hubCount, n ≤ f.dst ∨ n ≤ f.src
    else s.isMaster = true

/-- A frame as it leaves RING OUT (R2, R7, R14, R17), with the cable compensation in force at its arrival and the ticks that it
waited beyond the 32 of its passage: a cycle frame has its age, its gathered classes and its mask bit rewritten, an intact CENSUS
its count or OVERFLOW; every other frame, and the CRC, good or bad, is as it came. -/
def State.leaving (s : State) (f : Frame) (comp waited : Nat) : Frame :=
  { f with
    body := match f.body with
      | .cycle c => .cycle { c with
          age := min 65535 (min 65535 (c.age + comp) + 32 + waited)
          classes := { c.classes with gathered := addClassBit c.classes.gathered s.ownClass }
          mask := match s.rc.hubAddress with
            | some h => if s.ownClass.stops then c.mask ||| 1#32 <<< h else c.mask &&& ~~~(1#32 <<< h)
            | none => c.mask }
      | .census c =>
        if f.crcGood = true ∧ f.length = 13 ∧ c.overflow = false then
          .census (if c.count ≤ 30 then { c with count := c.count + 1 } else { c with overflow := true })
        else .census c
      | .roster c => .roster c
      | .data c => .data c
      | .unknown c => .unknown c }

/-- The bytes of room that the transit buffer has left when RING OUT is busy for `left` ticks more: 1,049 less what it holds,
a frame that is leaving it counted by what is left of it (R23). -/
def RC.roomAt (r : RC) (left : Nat) : Nat :=
  1049 - ((r.transit.map (fun h => h.frame.length)).sum + (if r.outHeld then left / 2 else 0))

/-- A data frame of `length` bytes whose last byte arrives at `t` comes to a hub in RUNNING, now or when its first byte
came (R3). -/
def State.takesData (s : State) (t : HubTime) (length : Nat) : Prop :=
  s.rc.ringState = .running ∨ ∃ comp, s.rc.inbound = some ⟨t - BitVec.ofNat 32 (2 * length), true, comp⟩

/-- The bytes that stand in the transit buffer at `t`: every held frame whole, but of the newest what has arrived (R23). -/
def RC.bytesBy (r : RC) (t : HubTime) : Nat :=
  (r.transit.dropLast.map (fun h => h.frame.length)).sum
    + (match r.transit.getLast? with
      | some h => min h.frame.length ((t - h.arrival).toNat / 2)
      | none => 0)

/-! ### Transfers -/

/-- The IMAGE BEGIN of a strip for a hub, with a transfer number (R136): the strip as it stands. -/
def beginFor (x : Strip) (dst : Nat) (number : BitVec 16) : OwnFrame :=
  ⟨dst, .imageBegin ⟨x.id, number, x.camera.val, if x.mode = .grey then 0 else 1, x.width, x.rows, x.byteSize,
    (x.byteSize + 1023) / 1024, match x.stamp with
      | .known a n => .known a n
      | .unknown | .pending _ _ => .unknown⟩⟩

/-- The sender of `s'` when the transfer in hand of `s` has ended and it has looked at once for a new head: it has taken the
head of the queue, if the hub is RUNNING and the strip's stamp is not PENDING, and else is IDLE (R135, R141). -/
def State.newHead (s s' : State) : Prop :=
  (∀ id dst rest x, s.im.sendQueue = (id, dst) :: rest → s.strip id = some x → s.rc.ringState = .running →
    x.stamp.isPending = false →
    s'.im.sendQueue = rest ∧ s'.im.sender = .beginSent ∧ s'.im.timer = none
      ∧ s'.im.transferCount = s.im.transferCount + 1
      ∧ s'.im.transfer = some ⟨id, dst, s.im.transferCount + 1, 1, (x.byteSize + 1023) / 1024, 0, none⟩
      ∧ (s.rc.imagePending = none → s.im.offered = [] →
        s'.im.offered = [] ∧ s'.rc.imagePending = some (beginFor x dst (s.im.transferCount + 1))))
  ∧ ((s.im.sendQueue = [] ∨ s.rc.ringState ≠ .running
      ∨ ∃ id dst rest x, s.im.sendQueue = (id, dst) :: rest ∧ s.strip id = some x ∧ x.stamp.isPending = true) →
    s'.im.sendQueue = s.im.sendQueue ∧ s'.im.sender = .idle ∧ s'.im.timer = none ∧ s'.im.transfer = none
      ∧ s'.im.transferCount = s.im.transferCount ∧ s'.im.offered = s.im.offered
      ∧ s'.rc.imagePending = s.rc.imagePending)

/-! ### What a view watches -/

/-- A strip is of camera `c`, and was not received from another hub. -/
def Strip.takenFor (x : Strip) (c : Fin 4) : Bool :=
  decide (x.camera = c) && (match x.origin with
    | .here _ => true
    | .remote _ _ => false)

/-- The values of the content of one kind, in the order in which R162 and R112 list them; a value that is absent is left out and
keeps its number (what the tables leave open of it is the model's choice, notes/assumptions/17.md). -/
def State.watched (s : State) : ViewKind → List (Option (List Byte))
  | .shaft =>
    let k := s.su.tracker
    let d := s.su.gen
    let own := fun (n : Nat) (v : Int) => if s.isMaster = true then val n v else none
    [val 1 ((if k.flags.atRest then 8 else 0) + (if k.flags.inching then 4 else 0) + (if k.flags.tripDecel then 2 else 0)),
     vbits 5 k.angle, val 4 k.lastV, vbits 2 k.lastCycle, own 4 d.vt, own 4 d.vi, own 3 d.a, own 3 d.dn, own 3 d.de,
     own 4 d.vmax, own 1 (if d.inching then 1 else 0), own 4 s.target]
  | .slot i =>
    let x := s.slot i
    [val 1 (match x.state with
       | .vacant => 0
       | .idle => 1
       | .coupled => 2
       | .held => 3
       | .released => 4),
     val 1 x.port.val, val 2 x.n, val 2 x.d, val 3 x.os, val 3 x.tmax, val 3 x.tt, val 2 x.slew, val 2 x.nudgeLimit,
     val 1 x.tol, val 4 (x.os + x.tt), val 2 x.r, vbits 3 x.position, val 4 x.ca, vbits 2 x.serial, val 1 x.posted.length,
     val 1 x.miss,
     val 1 ((if x.atLimit then 1 else 0) + (if x.correcting then 2 else 0) + (if x.late then 4 else 0)
       + (if x.extrapolated then 8 else 0)),
     x.report.map (fun r => valuesBytes [vflag r.ready, vflag r.fault, vflag r.following, vbits 3 r.position]),
     x.published.map (fun r => beBytes 2 r.record.cycle.toNat), x.published.map (fun r => flagByte r.picked)]
  | .register i =>
    let l := s.loop i
    [vflag l.enable,
     val 1 (match l.state with
       | .off => 0
       | .seeking => 1
       | .locked => 2
       | .lost => 3),
     some (match l.source with
       | .sensor n => beBytes 1 0 ++ beBytes 1 n.val
       | .image c => beBytes 1 1 ++ beBytes 1 c.val),
     val 1 l.search.channel, val 2 l.search.startColumn, val 1 (if l.search.direction = .left then 1 else 0),
     val 1 l.search.threshold, val 1 l.search.runLength, vbits 3 l.mexp, val 3 l.window, val 2 l.deadband, val 1 l.gain,
     val 1 l.missLimit, val 4 l.minSpeed, val 1 l.misses, vflag l.markSeen, vopt 3 l.lastE, vopt 4 l.lastEs, vopt 4 l.lastC,
     val 2 l.strays, vopt 3 l.lastStrayE]
  | .trips =>
    let u := s.tu
    let code := fun c : Cls => beBytes 1 (if c = .sync then 1 else if c = .quick then 2 else if c = .coast then 3 else 0)
    [val 1 (match u.state with
       | .normal => 0
       | .capture => 1
       | .stopping => 2
       | .stopped => 3
       | .releasing => 4
       | .lockout => 5),
     u.releaseLevel.map code, some (code s.ownClass), some (code u.carried), some (code s.effectiveClass),
     vbits 4 u.carriedMask,
     vlist (u.causes.map (fun c =>
       valuesBytes [val 1 c.cause.number, c.slot.map (fun i => beBytes 1 i.val), some (code (u.matrix.get c.cause))])),
     vlist ([u.matrix.tripIn, u.matrix.webBreak, u.matrix.ringLost, u.matrix.driveFault, u.matrix.driveSilent,
       u.matrix.registerLost, u.matrix.operatorStop, u.matrix.publicationLate, u.matrix.followingError].map code),
     vflag (decide (u.tripInLow = false)), vflag u.webBrk,
     vflag (decide (3 ≤ s.effectiveClass.rank ∨ u.state = .lockout)), vbits 2 u.recordCount,
     vlist (u.records.map (fun r => valuesBytes [vbits 2 r.number, vflag r.capturing])),
     u.current.map (fun n => beBytes 2 n.toNat)]
  | .camera c =>
    match (s.is.age.filterMap (fun id => (s.is.strips.find? (fun x => x.id == id)).filter (fun x => x.takenFor c))).getLast? with
    | none => []
    | some x =>
      [val 2 x.id, some x.stamp.bytes,
       vlist ((List.finRange 16).filterMap (fun i => (x.results.get i).map (fun r => match r with
         | .hit row col => valuesBytes [val 1 i.val, val 1 0, val 1 row, val 2 col]
         | .none => valuesBytes [val 1 i.val, val 1 1])))]

/-! ### Delivered data frames -/

/-- The row of the command by which a payload from hub `src` is delivered (R4). -/
def deliveryRow (t : HubTime) (src : Nat) : DataPayload → Instr
  | .edit ref slot amount => .edit t src ref slot amount
  | .editReply ref st amount serial => .editReply t src ref st amount serial
  | .imageBegin f => .imageBegin t src f
  | .imageReply strip number st rx => .imageReply t src strip number st rx
  | .imageSegment strip number seg count bytes => .imageSegment t src strip number seg count bytes
  | .imageAbort false strip number reason => .imageAbortToSender t src strip number reason
  | .imageAbort true strip number reason => .imageAbortToReceiver t src strip number reason
  | .subscribe view sub kind index rate => .subscribe t src view sub kind index rate
  | .subscribeReply view sub st => .subscribeReply t src view sub st
  | .unsubscribe view sub => .unsubscribe t src view sub
  | .viewUpdate view sub content => .viewUpdate t src view sub content

/-- Every field of a payload fits its place in section 11.3; a content with no item cannot be told from a keep-alive. -/
def DataPayload.wellFormed (p : DataPayload) : Bool :=
  (deliveryRow 0 0 p).wellFormed && (match p with | .viewUpdate _ _ (some []) => false | _ => true)

/-! ### Invariants -/

/-- The ranges of section 2.2 and the law of the device of R30: |V| ≤ Vmax. -/
def Generator.lawful (g : Generator) : Bool :=
  decide (0 ≤ g.vt) && decide (g.vt ≤ g.vmax) && decide (g.vi.natAbs ≤ g.vmax) && decide (g.v.natAbs ≤ g.vmax)
    && decide (g.vmax ≤ 2147479552)

/-- The ramp rates are in their ranges (section 2.2). -/
def Generator.ratesInRange (g : Generator) : Bool :=
  decide (1 ≤ g.a) && decide (g.a ≤ 1048575) && decide (1 ≤ g.dn) && decide (g.dn ≤ 1048575) && decide (1 ≤ g.de)
    && decide (g.de ≤ 1048575)

/-- The history holds at most 16 entries (R41). -/
def Tracker.bounded (k : Tracker) : Bool := decide (k.history.length ≤ 16)

/-- The law of the device of R49: |Tt| ≤ Tmax for every section. -/
def State.trimLaw (s : State) : Bool := s.se.slots.list.all (fun x => decide (x.tt.natAbs ≤ x.tmax))

/-- The posted change lists hold at most 8 changes (R45). -/
def State.listsBounded (s : State) : Bool := s.se.slots.list.all (fun x => decide (x.posted.length ≤ 8))

/-- The class is QUICK or COAST. -/
def Cls.quickOrAbove (c : Cls) : Bool := decide (3 ≤ c.rank)

/-- No section is COUPLED. -/
def State.noneCoupled (s : State) : Bool := s.se.slots.list.all (fun x => decide (x.state ≠ .coupled))

/-- Every section that is not VACANT is RELEASED. -/
def State.allReleased (s : State) : Bool :=
  s.se.slots.list.all (fun x => decide (x.state = .vacant) || decide (x.state = .released))

/-- A trip is on: CAPTURE, STOPPING, STOPPED or LOCKOUT, the states in which the section actions follow a rise of the
effective class (R101). -/
def TripState.acting : TripState → Bool
  | .capture | .stopping | .stopped | .lockout => true
  | .normal | .releasing => false

/-- The law of the device of section 5.4, for the trip states in which R101 acts (notes/assumptions/34.md). -/
def State.tripLaw (s : State) : Bool :=
  (!(s.effectiveClass.quickOrAbove && s.tu.state.acting) || s.noneCoupled)
    && (!decide (s.tu.state = .lockout) || s.allReleased)

/-- One pair stands before another in the order of the cause set: by cause number, then by section (R112). -/
def CausePair.before (a b : CausePair) : Bool :=
  decide (a.cause.number < b.cause.number)
    || (decide (a.cause.number = b.cause.number) && (match a.slot, b.slot with
      | none, some _ => true
      | some i, some j => decide (i < j)
      | _, none => false))

/-- The cause set is in order, and holds no pair twice (R87, R88, R112). -/
def State.causesLaw (s : State) : Bool := decide (s.tu.causes.Pairwise (fun a b => a.before b = true))

/-- The census timer of a master: stopped in RUNNING (R11); in LOST it runs exactly while the re-formation conditions hold, AT
REST and STOPPED or RELEASING (R22). -/
def State.censusLaw (s : State) : Bool :=
  !s.isMaster || (match s.rc.ringState with
    | .running => s.rc.censusTimer.isNone
    | .lost => s.rc.censusTimer.isSome
        == (s.su.tracker.flags.atRest && (decide (s.tu.state = .stopped) || decide (s.tu.state = .releasing)))
    | .down | .addressed | .conflict => true)

/-- A posted change that names D names one above 0. -/
def Change.gearGood (c : Change) : Bool :=
  match c.body with
  | .set f => f.d.all (fun d => decide (1 ≤ d))
  | .nudge _ => true

/-- The gear of one section: no posted D of 0; a VACANT section's list is empty or begins with a change that names D; every
other section has R below D. -/
def Section.gearGood (x : Section) : Bool :=
  x.posted.all Change.gearGood
    && (if x.state = .vacant then
      match x.posted with
      | [] => true
      | c :: _ => match c.body with
        | .set f => f.d.isSome
        | .nudge _ => false
    else decide (x.r < x.d))

/-- The law of the device of R50: 0 ≤ R < D, with what keeps it. -/
def State.gearLaw (s : State) : Bool := s.se.slots.list.all Section.gearGood

/-- Every tile that is free, in a strip or reserved. -/
def State.allTiles (s : State) : List Nat :=
  s.is.free ++ s.is.strips.flatMap (fun x => x.tiles)
    ++ s.im.contexts.list.flatMap (fun c => match c with | some r => r.reservation | none => [])

/-- The law of the device of R113: each of the 1,024 tiles stands exactly once. -/
def State.tileLaw (s : State) : Bool := decide (s.allTiles.Perm (List.range 1024))

/-- Every reception in progress has a strip of its own in the directory: FILLING, RECEIVING, REMOTE and without tiles (R129,
R142). -/
def State.receptionLaw (s : State) : Bool :=
  let rs := s.im.contexts.list.filterMap id
  decide (rs.map (fun r => r.strip)).Nodup
    && rs.all (fun r => s.is.strips.any (fun x =>
        decide (x.id = r.strip) && x.receiving && !x.complete && x.tiles.isEmpty
          && (match x.origin with | .remote _ _ => true | .here _ => false)))

/-- The laws of the store: canonical form of its bytes, the tile law, distinct ids, and the receptions' strips. -/
def State.storeLaw (s : State) : Bool :=
  Memory.wf s.is.mem && s.tileLaw && decide (s.is.strips.map (fun x => x.id)).Nodup && s.receptionLaw

/-- The law of the device of R130: at most 256 frozen tiles; and no strip that is RECEIVING is frozen, which keeps it. -/
def State.freezeLaw (s : State) : Bool :=
  decide (s.frozenTiles ≤ 256) && s.is.strips.all (fun x => !x.receiving || x.freezeSet.isEmpty)

/-- The tags of a port's ready responses and of its requests that wait in a block (R175, R176). -/
def State.owedTags (s : State) (p : PortNo) : List Tag :=
  (s.port p).responses.map (fun r => r.tag)
    ++ (s.se.waiting.filter (fun w => w.port == p)).map (fun w => w.tag)
    ++ (s.se.fences.filter (fun f => f.port == p)).map (fun f => f.tag)
    ++ (s.vu.nudges.filter (fun n => n.port == p)).map (fun n => n.tag)

/-- The tags that are outstanding at a port. -/
def State.openTags (s : State) (p : PortNo) : List Tag :=
  (List.finRange 4).filter (fun g => (s.port p).outstanding.getLsbD g)

/-- The law of the device of R177: the outstanding requests of a port are exactly those whose response is ready or still to
come, each once. -/
def State.portLaw (s : State) : Bool := (List.finRange 4).all (fun p => decide ((s.owedTags p).Perm (s.openTags p)))

/-- What a GET in progress fixed is the response at the head of the queue. -/
def State.getLaw (s : State) : Bool :=
  (List.finRange 4).all (fun p =>
    match (s.port p).getting with
    | some f => (match f.response with
      | some r => decide ((s.port p).responses.head? = some r)
      | none => true)
    | none => true)

/-! ### A ring loss and a re-formation -/

/-- The pairs that a ring loss drops: those of the send queue, and that of the transfer in hand (R148). -/
def IM.lostPairs (m : IM) : List (Nat × Nat) := m.sendQueue ++ (m.transfer.map (fun k => (k.strip, k.dst))).toList

/-- The receptions in progress. -/
def IM.receptions (m : IM) : List Reception := m.contexts.list.filterMap id

/-- What an entry to LOST or CONFLICT has done at the Image Mover (R148): no pair, no transfer, no reception and no control
frame is left, each pair and the transfer is counted as dropped, each strip has lost the SENDING pins of its pairs, the strips
received have left the directory and their tiles are at the tail of the free list, one strip's after another's in either order,
and IMAGE DROPPED is set if anything was dropped. -/
def State.moverLost (s s' : State) : Prop :=
  let lost := s.im.lostPairs
  let rs := s.im.receptions
  s'.im = { s.im with
      sendQueue := [], transfer := none, sender := .idle, timer := none, offered := [], store := []
      contexts := s'.im.contexts
      transfersDropped := min 65535 (s.im.transfersDropped + lost.length)
      receptionsAbandoned := rs.foldl (fun n _ => satInc n) s.im.receptionsAbandoned }
    ∧ (∀ c, s'.im.contexts.get c = none)
    ∧ (s.storeLaw = true → ∃ l : List Reception, l.Perm rs ∧ s'.is.free = s.is.free ++ l.flatMap (fun r => r.reservation))
    ∧ s'.is.strips.map (fun x => (x.id, x.sending)) =
        (s.is.strips.filter (fun x => decide (∀ r ∈ rs, r.strip ≠ x.id))).map (fun x =>
          (x.id, x.sending.filter (fun h => decide ((x.id, h) ∉ lost))))
    ∧ ∀ p : PortNo, (s'.port p).pending.getLsbD 8 =
        ((s.port p).pending.getLsbD 8 || (decide (lost ≠ []) && s.cp.routes.imageDropped.getLsbD p))

/-- What an entry to LOST or CONFLICT has done at the View Unit (R172): every import in INITIAL, CLEAN or DIRTY is STALE and
ready, with VIEWS at its owner; no frame waits for the Ring Controller; every waiting nudge is answered NOT RUNNING; the exports
keep their entries. -/
def State.viewsLost (s s' : State) : Prop :=
  s'.vu.controlList = [] ∧ s'.vu.nudges = [] ∧ s'.vu.offered = none
    ∧ (∀ i v, s.vu.views.get i = some v → v.target.isSome = true →
        let falls := v.state = .initial ∨ v.state = .clean ∨ v.state = .dirty
        s'.vu.views.get i = some (if falls then { v with state := .stale, ready := true } else v)
          ∧ (falls → (s'.port v.owner).pending.getLsbD 2 = true))
    ∧ (∀ i, (s'.vu.exports.get i).map (fun e => (e.hub, e.view, e.sub, e.kind, e.rate, e.due))
        = (s.vu.exports.get i).map (fun e => (e.hub, e.view, e.sub, e.kind, e.rate, e.due)))
    ∧ ∀ n ∈ s.vu.nudges, ⟨n.tag, .notRunning, []⟩ ∈ (s'.port n.port).responses

/-- The re-formation effects at the View Unit (R22, R172): no export is left, and every import not GONE already is GONE and
ready, with VIEWS at its owner. -/
def State.viewsReformed (s s' : State) : Prop :=
  (∀ i, s'.vu.exports.get i = none) ∧ s'.vu.offered = none
    ∧ ∀ i v, s.vu.views.get i = some v → v.target.isSome = true →
        s'.vu.views.get i = some (if v.state = .gone then v else { v with state := .gone, ready := true })
          ∧ (v.state ≠ .gone → (s'.port v.owner).pending.getLsbD 2 = true)

end Sys2Proof.Machine
end

