-- ==== Sys2Proof/Certificates/Slice0/Obligations.lean ====
section
/-! DEFINITION. The statements about the hub, one definition each; OBLIGATIONS.json gives their titles, tiers and grounds. -/

open Sys2Proof Sys2Proof.Machine

/-- For every command c and state s: a step of s with c at the front of its queue is exec of c on s with the queue's rest.
On an empty queue a step adds one to hub time, lets RING OUT go on sending, and changes nothing else; that a step of
the model is one tick there is the model's choice (notes/assumptions/1.md). (00_scope.md; 95_what_each_step_holds.md.) -/
def Obligations.StepRunsTheFrontCommand : Prop :=
  ∀ (c : Instr) (q : List Instr) (s : State),
    step (s.withQueue (c :: q)) = exec c (s.withQueue q)
    ∧ step (s.withQueue []) = .next { s.withQueue [] with
        hubTime := s.hubTime + 1, rc := { s.rc with outLeft := s.rc.outLeft - 1 } }

/-- For every command and every state, exec answers a next state, and the queue of commands in it is the one it was given;
every command but HARDWARE_RESET leaves the sampled straps and every port's role as they were. (00_scope.md;
95_what_each_step_holds.md; section 10.1; section 11.1.) -/
def Obligations.EveryCommandCompletes : Prop :=
  ∀ (c : Instr) (s : State), ∃ s', exec c s = .next s' ∧ s'.pending = s.pending
    ∧ ((∀ st a b, c ≠ .hardwareReset st a b) → s'.straps = s.straps ∧ ∀ p, (s'.port p).role = (s.port p).role)

/-- HARDWARE_RESET with inactive trip lines: hub time 0, the straps sampled, every Ring Controller value of the table of
section 1.2, the generator and tracker values of chapter 2, every section VACANT, every loop OFF, the trip matrix and
the notice routes at their defaults, the trip state NORMAL with no cause, every camera at the values of R117, all
1,024 tiles free in order and no strip, the mover and scanner idle, no view or export, and at every port no
outstanding request, nothing ready or pending, every kind enabled, counts of 0, and no GET in progress or on record
(notes/assumptions/6.md and 54.md, the model's choices). The waiting commands stay. With TRIP IN low or WEB BRK
asserted, or both, each active line raises its cause at once, TRIP IN first: the hub is in CAPTURE with record 1 open,
its first cause that of the first active line, class QUICK, and TRIP OUT asserted; a second active line's cause is
secondary in the record; notice TRIP is set at the DESK and PANEL ports and no other notice. That TRIP IN is raised
before WEB BREAK when both lines are active is the order in which the spec names them. (01_the_press_ring.md;
02_line_shaft.md; 03_sections_and_electronic_gearing.md; 04_register_control.md; 05_trips.md;
06_image_store_and_cameras.md; 07_image_transport.md; 08_mark_search.md; 09_screen_views.md; 10_client_ports.md;
11_straps_layouts_and_electrical_summary.md.) -/
def Obligations.HardwareReset : Prop :=
  (∀ (st : Straps) (s : State), ∃ s', exec (.hardwareReset st false false) s = .next s'
    ∧ s'.pending = s.pending ∧ s'.straps = st ∧ s'.hubTime = 0
    ∧ s'.rc.ringState = .down ∧ s'.rc.hubAddress = (if st.master then some 0 else none) ∧ s'.rc.hubCount = none
    ∧ s'.rc.period = (if st.master then some st.period else none)
    ∧ s'.rc.dpub = (if st.master then some (6250 * 2 ^ st.period.val) else none) ∧ s'.rc.cableComp = 0
    ∧ s'.rc.censusNumber = 0 ∧ s'.rc.cycleNumber = 0 ∧ s'.rc.rosterHeld = false ∧ s'.rc.outstandingCensus = none
    ∧ s'.rc.outstandingRoster = none ∧ s'.rc.lastCycle = none ∧ s'.rc.returnedClass = ⟨false, false, false⟩
    ∧ s'.rc.returnedMask = 0 ∧ s'.rc.missedDeadlines = 0 ∧ s'.rc.failedReturns = 0 ∧ s'.rc.reforming = false
    ∧ s'.rc.tooMany = false ∧ s'.rc.transit = [] ∧ s'.rc.controlQueue = [] ∧ s'.rc.viewQueue = []
    ∧ s'.rc.imagePending = none ∧ s'.rc.corruptCount = 0 ∧ s'.rc.undeliverableCount = 0
    ∧ s'.rc.censusTimer = (if st.master then some 500000 else none)
    ∧ s'.su.gen.vt = 0 ∧ s'.su.gen.vi = 0 ∧ s'.su.gen.a = 2577 ∧ s'.su.gen.dn = 2577 ∧ s'.su.gen.de = 20000
    ∧ s'.su.gen.vmax = 2147479552 ∧ s'.su.gen.v = 0 ∧ s'.su.gen.angle = 0 ∧ s'.su.gen.inching = false
    ∧ s'.su.tracker = ⟨[], 0, 0, 0, ⟨true, false, false⟩⟩
    ∧ (∀ i, (s'.slot i).state = .vacant ∧ (s'.slot i).posted = [] ∧ (s'.loop i).state = .off)
    ∧ s'.se.waiting = [] ∧ s'.se.fences = [] ∧ s'.se.replies = [] ∧ s'.ru.passCompare = none
    ∧ s'.tu.matrix = ⟨.quick, .quick, .quick, .quick, .quick, .notify, .sync, .notify, .notify⟩
    ∧ (∀ c, s'.is.cameras.get c = ⟨.grey, 1, 0, [], 0, none, [], 0, [], none⟩)
    ∧ (let held := fun (rs : List Role) (m : BitVec 4) => ∀ p : PortNo, m.getLsbD p = decide (st.roleOf p ∈ rs)
      let q := s'.cp.routes
      held [.desk, .panel] q.trip ∧ held [.desk, .panel] q.notify ∧ held [.desk, .panel] q.ring ∧ held [.vision] q.trigger
        ∧ held [.vision] q.imageDropped ∧ held [.desk] q.register ∧ held [.desk] q.late)
    ∧ s'.tu.state = .normal ∧ s'.tu.causes = [] ∧ s'.tu.records = [] ∧ s'.tu.tripInLow = false ∧ s'.tu.webBrk = false
    ∧ s'.is.free = List.range 1024 ∧ s'.is.strips = [] ∧ s'.is.span = 32
    ∧ s'.im.sender = .idle ∧ s'.im.sendQueue = [] ∧ (∀ c, s'.im.contexts.get c = none) ∧ s'.im.store = []
    ∧ s'.ms.queue = [] ∧ s'.ms.scan = none
    ∧ (∀ i, s'.vu.views.get i = none ∧ s'.vu.exports.get i = none) ∧ s'.vu.nudges = []
    ∧ ∀ p, s'.port p = { role := st.roleOf p, outstanding := 0, responses := [], pending := 0,
                         enabled := BitVec.allOnes 11, frameErrors := 0, overruns := 0, getting := none, shifted := [] })
    ∧ ∀ (st : Straps) (low brk : Bool) (s : State), (low || brk) = true →
    ∃ s' r, exec (.hardwareReset st low brk) s = .next s' ∧ s'.pending = s.pending ∧ s'.straps = st ∧ s'.hubTime = 0
      ∧ s'.rc.ringState = .down ∧ s'.tu.tripInLow = low ∧ s'.tu.webBrk = brk ∧ s'.tu.state = .capture
      ∧ s'.tu.causes = (if low then [⟨.tripIn, none⟩] else []) ++ (if brk then [⟨.webBreak, none⟩] else [])
      ∧ s'.tu.records = [r] ∧ r.number = 1 ∧ s'.tu.current = some 1 ∧ r.entryClass = .quick ∧ r.highest = .quick
      ∧ r.first = (if low then ⟨.tripIn, none⟩ else ⟨.webBreak, none⟩)
      ∧ r.secondary = (if low && brk then [⟨.webBreak, none⟩] else []) ∧ s'.tripOut = true
      ∧ ∀ p, s'.port p = { Port.reset (st.roleOf p) with
                           pending := if st.roleOf p = .desk ∨ st.roleOf p = .panel then 8#11 else 0#11 }

/-- CENSUS_TIMER_EXPIRY at a master in DOWN, or in LOST with the re-formation conditions holding, when the timer has come:
the census number goes up by one, the census with count 0 and OVERFLOW clear and the present hub time as its stamp is
due and is outstanding, any outstanding roster is dropped, the timer restarts one 10 ms period on from its expiry, and
nothing else changes. That the census made due carries the hub time of its making until it starts is the model's
deduction (notes/assumptions/14.md), and that the period counts from the expiry, not from a late service of it, is the
model's choice (notes/assumptions/27.md), and so are that a census still due gives way to it (notes/assumptions/56.md)
and that the outstanding census and roster give way at its making, not at its sending (notes/assumptions/65.md).
RETURNED_CENSUS, intact and equal to the outstanding census, at a master in DOWN or LOST: the state stays and the
outstanding census is dropped; with OVERFLOW the reason TOO MANY is recorded and notice RING set; without it the hub
count is the returned count plus one, a roster with it, the strapped period and the present Dpub is due and
outstanding, the returned and the carried trip word and mask are cleared and TOO MANY with them, and with the re-
forming flag set the flag is cleared, every export is dropped and every imported view is GONE and ready. That these
are cleared and the re-formation effects applied at the making of the roster, before its start on RING OUT, is the
model's choice (notes/assumptions/36.md), and so is the hub count from a returned count above 31
(notes/assumptions/48.md). (section 1.3; section 1.6; section 5.2; section 9.3.) -/
def Obligations.CensusRound : Prop :=
  (∀ (s : State) (t x : HubTime), s.isMaster = true → s.rc.censusTimer = some x → isDue x t = true →
    (s.rc.ringState = .down ∨ (s.rc.ringState = .lost ∧ s.reformationHolds = true)) →
    ∃ s', exec (.censusTimerExpiry t) s = .next s' ∧ s.frame s' t [.rc]
      ∧ s'.rc = { s.rc with
          outLeft := s.rc.outLeft - (t - s.hubTime).toNat
          censusNumber := s.rc.censusNumber + 1
          outstandingCensus := some (s.rc.censusNumber + 1, t)
          outstandingRoster := none
          ringFrameDue := some (.census ⟨s.rc.censusNumber + 1, t, 0, false⟩)
          censusTimer := some (later x 500000) })
    ∧ ∀ (s : State) (t : HubTime) (f : CensusFields) (d : Nat), s.isMaster = true →
    (s.rc.ringState = .down ∨ s.rc.ringState = .lost) →
    s.rc.outstandingCensus = some (f.number, f.stamp) → s.rc.dpub = some d →
    ∃ s', exec (.returnedCensus t ⟨f, 13, true⟩) s = .next s' ∧ s'.rc.ringState = s.rc.ringState
      ∧ s'.rc.outstandingCensus = none ∧ s'.su = s.su ∧ s'.se = s.se ∧ s'.is = s.is ∧ s'.im = s.im
      ∧ (if f.overflow then
          s'.rc.tooMany = true ∧ s'.rc.hubCount = s.rc.hubCount ∧ s'.rc.ringFrameDue = s.rc.ringFrameDue
            ∧ ∀ p : PortNo, s.cp.routes.ring.getLsbD p = true → (s'.port p).pending = (s.port p).pending ||| 128#11
        else
          s'.rc.tooMany = false ∧ s'.rc.hubCount = some (f.count + 1)
            ∧ s'.rc.ringFrameDue = some (.roster ⟨f.number, f.stamp, f.count + 1, s.straps.period, d⟩)
            ∧ s'.rc.outstandingRoster = some ⟨f.number, f.stamp, f.count + 1, s.straps.period, d⟩
            ∧ s'.rc.returnedClass = ⟨false, false, false⟩ ∧ s'.rc.returnedMask = 0 ∧ s'.rc.reforming = false
            ∧ (s.rc.reforming = false → s'.cp = s.cp)
            ∧ s'.tu.carried = .noClass ∧ s'.tu.carriedMask = 0
            ∧ (s.rc.reforming = true → s.viewsReformed s'))

/-- CENSUS, intact, at a follower, whatever its ring state: with OVERFLOW clear and a count of 0 to 30 it takes the count
plus one as its address, records number and stamp, and enters ADDRESSED with a fresh 50 ms timer; with OVERFLOW set,
or a count above 30, it is in DOWN with no address. In both cases it has dropped roster and last record. From another
state than RUNNING its sections, mover and causes are as they were. From RUNNING it has first lost the ring: RING LOST
is latched; the Trip Unit is in CAPTURE with it as first cause, when it was in NORMAL or RELEASING without it and the
matrix gives it SYNC or above, in LOCKOUT with every section RELEASED or VACANT, when it was in CAPTURE or STOPPING,
or stays in STOPPED or LOCKOUT; in these four RING LOST, in the last two one not latched before, is in the current
record's secondary list, where that has room and it is not the first cause, and the record's highest class is no lower
(the model's choice, notes/assumptions/66.md); the re-forming flag is set, the own-frame queues are empty, no change
is posted, no request waits, and the Image Mover and the View Unit have taken the loss as in statement O12. A corrupt
CENSUS changes nothing but RING OUT and the transit buffer. Where FRAME_FORWARD has not given a frame's passage, RING
OUT is free in time and nothing is held, it leaves 32 ticks after it came, an intact one with the count one up or with
OVERFLOW set, a corrupt one as it came; else RING OUT and the transit buffer are as FRAME_FORWARD left them.
FRAME_FORWARD of an intact one, RING OUT free in time and nothing held: it leaves so 32 ticks after its first byte,
and nothing else changes but the record of the arrival. How the two rows share one arrival is the model's choice
(notes/assumptions/3.md), and so is that a count above 31 is one of 31 (notes/assumptions/48.md); that RING LOST is
raised here is its deduction (notes/assumptions/9.md). (section 1.3; section 1.1; section 1.6; section 5.3; section
7.6; section 9.3.) -/
def Obligations.FollowerTakesAnAddress : Prop :=
  ∀ (s : State) (t : HubTime) (f : CensusFields), s.isMaster = false →
    (∃ s', exec (.census t ⟨f, 13, true⟩) s = .next s'
      ∧ (if f.overflow = false ∧ f.count ≤ 30 then
          s'.rc.ringState = .addressed ∧ s'.rc.hubAddress = some (f.count + 1)
            ∧ s'.rc.joinedCensus = some (f.number, f.stamp) ∧ s'.rc.rosterTimer = some (later t 2500000)
        else s'.rc.ringState = .down ∧ s'.rc.hubAddress = none)
      ∧ s'.rc.rosterHeld = false ∧ s'.rc.hubCount = none ∧ s'.rc.lastCycle = none ∧ s'.su.tracker.history = []
      ∧ s'.su.tracker.flags = ⟨true, false, false⟩ ∧ s'.rc.deadline = none
      ∧ (if s.rc.ringState = .running then
          s.ringLostTaken s' ∧ s'.rc.reforming = true ∧ s'.rc.controlQueue = [] ∧ s'.rc.viewQueue = []
            ∧ s'.rc.imagePending = none ∧ s'.se.waiting = [] ∧ s.moverLost s' ∧ s.viewsLost s' ∧ ∀ i, (s'.slot i).posted = []
        else s'.se = s.se ∧ s'.im = s.im ∧ s'.tu.causes = s.tu.causes)
      ∧ (if s.rc.arrivalAt (t - 26) = none then
          s.rc.transit = [] → s.rc.outLeft - (t - s.hubTime).toNat ≤ 6 →
            s'.rc.ringOut = some ⟨⟨.census (if f.overflow then f else if f.count ≤ 30 then { f with count := f.count + 1 }
              else { f with overflow := true }), 13, true⟩, later (t - 26) 32⟩ ∧ s'.rc.outLeft = 32
        else s'.rc.ringOut = s.rc.ringOut ∧ s'.rc.transit = s.rc.transit))
    ∧ (∀ (length : Nat) (good : Bool), good = false ∨ length ≠ 13 →
      ∃ s', exec (.census t ⟨f, length, good⟩) s = .next s' ∧ s.frame s' t [.rc]
        ∧ s'.rc = { s.rc with
            ringOut := s'.rc.ringOut, outLeft := s'.rc.outLeft, outHeld := s'.rc.outHeld, transit := s'.rc.transit
            passing := s'.rc.passing }
        ∧ (if s.rc.arrivalAt (t - BitVec.ofNat 32 (2 * length)) = none then
            s.rc.transit = [] → length ≤ 1049 → s.rc.outLeft - (t - s.hubTime).toNat ≤ 32 - 2 * length →
              s'.rc.ringOut = some ⟨⟨.census f, length, good⟩, later (t - BitVec.ofNat 32 (2 * length)) 32⟩ ∧ s'.rc.outLeft = 32
          else s'.rc.ringOut = s.rc.ringOut ∧ s'.rc.transit = s.rc.transit))
    ∧ (s.rc.transit = [] → s.rc.outLeft - (t - s.hubTime).toNat ≤ 32 →
      ∃ s', exec (.frameForward t ⟨.census f, 13, true⟩) s = .next s' ∧ s.frame s' t [.rc]
        ∧ s'.rc = { s.rc with
            ringOut := some ⟨⟨.census (if f.overflow then f else if f.count ≤ 30 then { f with count := f.count + 1 }
              else { f with overflow := true }), 13, true⟩, later t 32⟩
            outLeft := 58, outHeld := false, passing := s'.rc.passing
            inbound := some ⟨t, decide (s.rc.ringState = .running), s.rc.cableComp⟩ })

/-- An intact CENSUS that does not match the outstanding census, or an intact ROSTER that does not match the outstanding
roster, at a master not in CONFLICT: it enters CONFLICT with its census timer stopped, no origination scheduled, its
own-frame queues and its transit buffer empty, every posted change list empty and no request waiting for a cycle step,
and the Image Mover and the View Unit as an entry to LOST leaves them (statement O12); from RUNNING the Trip Unit has
taken RING LOST, as at an entry to LOST (statement O12; that the current record's highest class is then no lower is
the model's choice, notes/assumptions/66.md). That an own census or roster which returns while the next census waits
is one that does not match is the model's choice (notes/assumptions/65.md). A corrupt CENSUS or ROSTER that the master
removes adds one to the corrupt count, at most 65,535, in every ring state, and an intact one in CONFLICT changes
nothing but hub time. So does a frame of unknown kind in every ring state, which is counted when its first byte comes;
that moment is the model's choice (notes/assumptions/29.md). (section 1.3; section 1.1; section 1.7; section 3.3;
section 5.3; section 7.6; section 9.3.) -/
def Obligations.ForeignCensusIsConflict : Prop :=
  ∀ (s : State) (t : HubTime), s.isMaster = true →
    (∀ c : Instr, s.rc.ringState ≠ .conflict →
      ((∃ f : CensusFields, c = .returnedCensus t ⟨f, 13, true⟩ ∧ s.rc.outstandingCensus ≠ some (f.number, f.stamp))
        ∨ (∃ f : RosterFields, c = .returnedRoster t ⟨f, 17, true⟩ ∧ s.rc.outstandingRoster ≠ some f)) →
      ∃ s', exec c s = .next s' ∧ s'.rc.ringState = .conflict ∧ s'.rc.censusTimer = none
        ∧ s'.rc.nextOrigination = none ∧ s'.rc.controlQueue = [] ∧ s'.rc.viewQueue = [] ∧ s'.rc.imagePending = none
        ∧ s'.rc.transit = [] ∧ (s.rc.ringState = .running → s.ringLostTaken s') ∧ s'.se.waiting = []
        ∧ s.moverLost s' ∧ s.viewsLost s' ∧ ∀ i, (s'.slot i).posted = [])
    ∧ ∀ (f : CensusFields) (r : RosterFields) (kind : Byte) (length : Nat) (good : Bool),
      (∀ c : Instr, (c = .returnedCensus t ⟨f, length, good⟩ ∧ (good = false ∨ length ≠ 13))
          ∨ (c = .returnedRoster t ⟨r, length, good⟩ ∧ (good = false ∨ length ≠ 17)) →
        ∃ s', exec c s = .next s' ∧ s.frame s' t [.rc] ∧ s'.rc = { s.rc with
          outLeft := s.rc.outLeft - (t - s.hubTime).toNat, corruptCount := satInc s.rc.corruptCount })
      ∧ (s.rc.ringState = .conflict → ∀ c ∈ [Instr.returnedCensus t ⟨f, 13, true⟩, .returnedRoster t ⟨r, 17, true⟩],
        ∃ s', exec c s = .next s' ∧ s.frame s' t [])
      ∧ ∃ s', exec (.frameForward t ⟨.unknown kind, length, good⟩) s = .next s' ∧ s.frame s' t [.rc] ∧ s'.rc = { s.rc with
          outLeft := s.rc.outLeft - (t - s.hubTime).toNat, corruptCount := satInc s.rc.corruptCount
          inbound := some ⟨t, decide (s.rc.ringState = .running), s.rc.cableComp⟩ }

/-- ROSTER, intact, at a follower in ADDRESSED that holds none, with the number and stamp of the census that gave the
address: hub count, period code and Dpub are those of the roster, the last record is cleared, the carried class and
mask with it, the ring state stays, and the re-forming flag is clear after it; where it was set, every export is
dropped, and every import that was not GONE is GONE and ready, with notice VIEWS at its owner; where it was clear,
views, exports and ports are as they were, but that a view or export which watches what changed may be DIRTY. In every
other case an intact roster, and in every case a corrupt one, changes nothing but RING OUT and the transit buffer. The
frame, intact or corrupt, is forwarded as it came: where FRAME_FORWARD has not given its passage, RING OUT is free in
time and nothing is held, it leaves 32 ticks after it came; where FRAME_FORWARD has given it, RING OUT and the transit
buffer are as they were (the model's choice of rows, notes/assumptions/3.md). ROSTER_TIMER_EXPIRY when the timer has
come: the hub is in DOWN, and its address, its held roster and its last record are dropped, the carried class and mask
with them; the sections, the mover and the cause set are as they were. When no timer runs, or it has not come, it
changes nothing but hub time (the model's choice, notes/assumptions/2.md). That a roster's values are held whatever
they are is the model's choice (notes/assumptions/60.md). (section 1.3; section 1.1; section 1.6; section 5.2; section
9.3.) -/
def Obligations.FollowerTakesTheRoster : Prop :=
  ∀ (s : State) (t : HubTime) (f : RosterFields),
    (s.isMaster = false →
      ∃ s', exec (.roster t ⟨f, 17, true⟩) s = .next s'
        ∧ (if s.rc.ringState = .addressed ∧ s.rc.rosterHeld = false ∧ s.rc.joinedCensus = some (f.number, f.stamp) then
            s'.rc.rosterHeld = true ∧ s'.rc.hubCount = some f.hubCount ∧ s'.rc.period = some f.period
              ∧ s'.rc.dpub = some f.dpub ∧ s'.rc.lastCycle = none ∧ s'.rc.ringState = .addressed
              ∧ s'.rc.hubAddress = s.rc.hubAddress ∧ s'.rc.reforming = false ∧ s'.su = s.su ∧ s'.se = s.se ∧ s'.im = s.im ∧ s'.is = s.is
              ∧ s'.tu = { s.tu with carried := .noClass, carriedMask := 0 }
              ∧ (if s.rc.reforming = true then s.viewsReformed s' else s.vu.kept s'.vu ∧ s'.cp = s.cp)
          else
            s.frame s' t [.rc]
              ∧ s'.rc = { s.rc with
                  ringOut := s'.rc.ringOut, outLeft := s'.rc.outLeft, outHeld := s'.rc.outHeld, transit := s'.rc.transit
                  passing := s'.rc.passing })
        ∧ (if s.rc.arrivalAt (t - 34) = none then
            s.rc.transit = [] → s.rc.outLeft - (t - s.hubTime).toNat = 0 →
              s'.rc.ringOut = some ⟨⟨.roster f, 17, true⟩, later (t - 34) 32⟩ ∧ s'.rc.outLeft = 32
          else s'.rc.ringOut = s.rc.ringOut ∧ s'.rc.transit = s.rc.transit))
    ∧ (∀ (length : Nat) (good : Bool), s.isMaster = false → good = false ∨ length ≠ 17 →
      ∃ s', exec (.roster t ⟨f, length, good⟩) s = .next s' ∧ s.frame s' t [.rc]
        ∧ s'.rc = { s.rc with
            ringOut := s'.rc.ringOut, outLeft := s'.rc.outLeft, outHeld := s'.rc.outHeld, transit := s'.rc.transit
            passing := s'.rc.passing }
        ∧ (if s.rc.arrivalAt (t - BitVec.ofNat 32 (2 * length)) = none then
            s.rc.transit = [] → length ≤ 1049 → s.rc.outLeft - (t - s.hubTime).toNat ≤ 32 - 2 * length →
              s'.rc.ringOut = some ⟨⟨.roster f, length, good⟩, later (t - BitVec.ofNat 32 (2 * length)) 32⟩ ∧ s'.rc.outLeft = 32
          else s'.rc.ringOut = s.rc.ringOut ∧ s'.rc.transit = s.rc.transit))
    ∧ ∃ s', exec (.rosterTimerExpiry t) s = .next s'
      ∧ (match s.rc.rosterTimer with
        | some x =>
          if isDue x t = true then
            s'.rc.ringState = .down ∧ s'.rc.hubAddress = none ∧ s'.rc.rosterHeld = false ∧ s'.rc.hubCount = none
              ∧ s'.rc.period = none ∧ s'.rc.dpub = none ∧ s'.rc.lastCycle = none ∧ s'.rc.rosterTimer = none
              ∧ s'.tu.carried = .noClass ∧ s'.tu.carriedMask = 0
              ∧ s'.se = s.se ∧ s'.im = s.im ∧ s'.tu.causes = s.tu.causes
          else s.frame s' t []
        | none => s.frame s' t [])

/-- RETURNED_ROSTER, intact and equal to the outstanding roster, at a master in DOWN or LOST: it is in RUNNING, its census
timer is stopped and no roster is outstanding. From DOWN it originates at once: the cycle number is one up and the
next origination one period on. From LOST the cycle number and the schedule stand, and the failed-return count is 0.
For every command: when a master's census timer is stopped in RUNNING, and in LOST runs exactly while the re-formation
conditions hold, AT REST and a Trip Unit in STOPPED or RELEASING, this holds after it. At a master in LOST or RUNNING
whose timer is stopped, a command that leaves it LOST leaves the timer stopped, and from LOST the census number as it
was, where the conditions do not hold after it; where they do, as they may come to after CYCLE_ORIGINATION,
FREEZE_WALK_COMPLETION or TRIP_RESET, a census is made at once: its number is one up, with hub time as its stamp it is
due and outstanding, no roster is outstanding, and the timer stands one 10 ms period on. That it carries the hub time
of its making until it starts is the model's deduction (notes/assumptions/14.md), and that what is outstanding gives
way at the making is its choice (notes/assumptions/65.md). Every command but HARDWARE_RESET that changes the ring
state has set notice RING at the ports of its route. (section 1.2; section 1.3; section 1.6.) -/
def Obligations.ReturnedRosterStartsTheRing : Prop :=
  (∀ (s : State) (t : HubTime) (f : RosterFields), s.isMaster = true → s.rc.outstandingRoster = some f →
    (s.rc.ringState = .down ∨ s.rc.ringState = .lost) →
    ∃ s', exec (.returnedRoster t ⟨f, 17, true⟩) s = .next s' ∧ s'.rc.ringState = .running ∧ s'.rc.censusTimer = none
      ∧ s'.rc.outstandingRoster = none
      ∧ (if s.rc.ringState = .down then
          s'.rc.cycleNumber = s.rc.cycleNumber + 1 ∧ s'.rc.nextOrigination = some (later t s.periodTicks)
        else
          s'.rc.cycleNumber = s.rc.cycleNumber ∧ s'.rc.nextOrigination = s.rc.nextOrigination
            ∧ s'.rc.failedReturns = 0))
    ∧ ∀ (c : Instr) (s s' : State), exec c s = .next s' →
      (s.censusLaw = true → s'.censusLaw = true)
      ∧ (s.censusLaw = true → s.isMaster = true → (s.rc.ringState = .lost ∨ s.rc.ringState = .running) →
          s.rc.censusTimer = none → s'.rc.ringState = .lost →
          if s'.su.tracker.flags.atRest = true ∧ (s'.tu.state = .stopped ∨ s'.tu.state = .releasing) then
            s'.rc.censusNumber = s.rc.censusNumber + 1
              ∧ s'.rc.outstandingCensus = some (s.rc.censusNumber + 1, s'.hubTime) ∧ s'.rc.outstandingRoster = none
              ∧ s'.rc.ringFrameDue = some (.census ⟨s.rc.censusNumber + 1, s'.hubTime, 0, false⟩)
              ∧ s'.rc.censusTimer = some (later s'.hubTime 500000)
          else s'.rc.censusTimer = none ∧ (s.rc.ringState = .lost → s'.rc.censusNumber = s.rc.censusNumber))
      ∧ ((∀ st a b, c ≠ .hardwareReset st a b) → s'.rc.ringState ≠ s.rc.ringState →
          ∀ p : PortNo, s.cp.routes.ring.getLsbD p = true → (s'.port p).pending.getLsbD 7 = true)

/-- CYCLE_ORIGINATION in RUNNING or LOST whose scheduled instant has come: one cycle frame starts as soon as RING OUT is
free, ahead of a forwarded frame not begun to leave, with the cycle number one up, the strapped period, the hub count,
the present Dpub, age 0, and the generator's angle, V and shaft flags after its step; the next origination is one
period after the scheduled instant; the tracker's newest entry has that cycle number, the frame's angle and the
origination instant plus Dpub as P, and is neither LATE nor EXTRAPOLATED; the RESET REQUEST owed has gone with the
frame, and the frame's trip word is the carried class and mask and acts as at a follower (statement O11), with no
reset, where no ring is lost and the step raises no new cause. The carried group is the returned trip word. When the
master is in LOST, no frame was originated before, that frame returned, or it is the first to fail, the ring state
stays, the failed-return count is 0 after a return in RUNNING, one up after a failure there and as it was in LOST, the
gathered group is the bit of the own class, and the mask is the returned mask with bit 0 by the own class and every
bit from the hub count upward cleared. At a second failure in RUNNING the count is one up and the master is in LOST
with RING LOST latched and taken by the Trip Unit, the Image Mover and the View Unit (statement O12), its re-forming
flag set and its own-frame queues empty. Held frames stay held, behind the frames that had not begun to leave, when
all together fit the buffer; what the buffer holds when the cycle frame has left is at most 1,049 bytes, when the
frames before the newest are. The model's choices: a frame is in the buffer whole, with the time of its first byte
(notes/assumptions/15.md); a class below a record's highest leaves it (notes/assumptions/66.md). Its deductions: the
start behind a leaving frame (notes/assumptions/28.md), the step before the trip word (notes/assumptions/8.md).
(section 1.4; section 1.5; section 1.6; section 1.7; section 2.2; section 2.4; section 5.2; section 5.3; section 5.4;
section 7.6; section 9.3.) -/
def Obligations.CycleOrigination : Prop :=
  ∀ (s : State) (t x : HubTime), (s.rc.ringState = .running ∨ s.rc.ringState = .lost) → s.rc.nextOrigination = some x →
    isDue x t = true →
    let back := (s.advance t).rc.unsent t
    let left := match back with
      | [] => s.rc.outLeft - (t - s.hubTime).toNat
      | p :: _ => (sdiff p.free t).toNat
    let seen := s.rc.ringState = .lost ∨ s.rc.lastCycle = none ∨ s.rc.returnSeen = true ∨ s.rc.failedReturns = 0
    ∃ s' f e, exec (.cycleOrigination t) s = .next s'
      ∧ s'.rc.ringOut = some ⟨⟨.cycle f, 27, true⟩, later t left⟩ ∧ s'.rc.outLeft = left + 54
      ∧ s'.rc.cycleNumber = s.rc.cycleNumber + 1 ∧ s'.rc.nextOrigination = some (later x s.periodTicks)
      ∧ s'.rc.returnSeen = false
      ∧ f.number = s.rc.cycleNumber + 1 ∧ f.period = s.straps.period ∧ f.age = 0 ∧ f.resetRequest = s.tu.resetRequest
      ∧ (∀ n ∈ s.rc.hubCount, f.hubCount = n) ∧ (∀ d ∈ s.rc.dpub, f.dpub = d)
      ∧ f.angle = s'.su.gen.angle ∧ f.v = s'.su.gen.v ∧ s'.su.gen.angle = s.su.gen.angle + BitVec.ofInt 36 s'.su.gen.v
      ∧ f.flags = ⟨decide (s'.su.gen.v = 0 ∧ (if s'.su.gen.tripDecel then 0 else if s'.su.gen.inching then s'.su.gen.vi
          else s'.su.gen.vt) = 0), s'.su.gen.inching, s'.su.gen.tripDecel⟩
      ∧ s'.su.tracker.history.getLast? = some e ∧ e.cycle = f.number ∧ e.theta = f.angle.extractLsb' 12 24
      ∧ e.p = later t (left + f.dpub) ∧ e.late = false ∧ e.extrapolated = false
      ∧ s'.tu.resetRequest = false ∧ s'.tu.carried = TripClasses.cls f.classes ∧ s'.tu.carriedMask = f.mask
      ∧ f.classes.carried = s.rc.returnedClass
      ∧ (seen → s'.rc.ringState = s.rc.ringState ∧ f.classes.gathered = addClassBit .empty s.ownClass
          ∧ (∀ n ∈ s.rc.hubCount, f.mask = (if s.ownClass.stops then s.rc.returnedMask ||| 1#32
              else s.rc.returnedMask &&& ~~~1#32) &&& BitVec.ofNat 32 (2 ^ n - 1))
          ∧ s'.rc.failedReturns = (if s.rc.ringState = .lost ∨ s.rc.lastCycle = none then s.rc.failedReturns
              else if s.rc.returnSeen then 0 else s.rc.failedReturns + 1)
          ∧ (s.quietStep False → s.tripWordTaken s' (TripClasses.cls f.classes) f.flags.atRest false))
      ∧ (¬ seen → s'.rc.ringState = .lost ∧ s'.rc.failedReturns = s.rc.failedReturns + 1
          ∧ s.ringLostTaken s' ∧ s.moverLost s' ∧ s.viewsLost s' ∧ s'.rc.reforming = true ∧ s'.rc.controlQueue = [] ∧ s'.rc.viewQueue = []
          ∧ s'.rc.imagePending = none)
      ∧ ((((back.map (fun p => p.held) ++ s.rc.transit).map (fun h => h.frame.length)).sum ≤ 1049) →
          s'.rc.transit = back.map (fun p => p.held) ++ s.rc.transit)
      ∧ (((back.map (fun p => p.held) ++ s.rc.transit).dropLast.map (fun h => h.frame.length)).sum ≤ 1049 →
          s'.rc.bytesBy (later (later t left) 54) ≤ 1049)

/-- RETURNED_CYCLE_FRAME at a master: when the master is not in CONFLICT and the frame is intact and carries the cycle
number last originated, its gathered group becomes the returned trip word and its mask the returned mask, and the
return is marked; an intact frame with another number, or when none was originated, or in CONFLICT, changes nothing; a
corrupt frame adds one to the corrupt count, at most 65,535, in every ring state. Nothing else changes. (section 1.5;
section 1.1; section 1.3.) -/
def Obligations.ReturnedTripWord : Prop :=
  ∀ (s : State) (t : HubTime) (f : Inbound CycleFields), s.isMaster = true →
    ∃ s', exec (.returnedCycleFrame t f) s = .next s' ∧ s.frame s' t [.rc]
      ∧ s'.rc =
        (if f.crcGood = true ∧ f.length = 27 then
          if f.fields.number = s.rc.cycleNumber ∧ s.rc.lastCycle.isSome = true ∧ s.rc.ringState ≠ .conflict then
            { s.rc with
              outLeft := s.rc.outLeft - (t - s.hubTime).toNat, returnedClass := f.fields.classes.gathered
              returnedMask := f.fields.mask, returnSeen := true }
          else { s.rc with outLeft := s.rc.outLeft - (t - s.hubTime).toNat }
        else
          { s.rc with
            outLeft := s.rc.outLeft - (t - s.hubTime).toNat, corruptCount := satInc s.rc.corruptCount })

/-- CYCLE_FRAME, intact and fitting the held roster, at a follower in ADDRESSED, RUNNING or LOST. With a number later than
the last step's, or no step taken since the roster: ADDRESSED has become RUNNING with the roster timer stopped, and
RUNNING and LOST stay; in ADDRESSED and RUNNING the missed-deadline count is 0, the deadline one and a half periods
and the expected next frame one period after the arrival, in LOST all three as they were; the record is the frame's,
and the tracker's newest entry has its number and angle and P as arrival time plus Dpub less the arrival age, or the
arrival time and LATE when the age exceeds Dpub or is 65,535. The arrival age counts the cable compensation in force
at the frame's first byte. With a number not later no step is taken, ring state, deadline and missed-deadline count
stay, and the record is the frame's. In both cases the frame's trip word is the carried class and mask, and acts at
the Trip Unit, where the step raises no new cause: from NORMAL a class of SYNC or above, from RELEASING one above the
release level, enters CAPTURE with first cause REMOTE and a new record; a clean frame in RELEASING gives NORMAL, every
HELD or RELEASED section IDLE where it stood, a RELEASED one with a drive report at its position, the COUPLED still
COUPLED (but as a waiting request at the step has it), and a class up to the level leaves RELEASING; in CAPTURE,
STOPPING, STOPPED and LOCKOUT a class above the effective class is the highest of the current record, unless a higher
one is (the model's choice, notes/assumptions/66.md), and appends REMOTE, with the section actions of the class. A
step that shows AT REST ends STOPPING in STOPPED. RESET REQUEST in a new frame clears the causes whose condition is
gone in NORMAL, RELEASING and STOPPED, and from STOPPED goes to RELEASING when none of SYNC or above is left. The
order step, trip word, reset is the model's deduction (notes/assumptions/8.md). A corrupt frame changes nothing but
hub time. (section 1.4; section 2.4; section 1.2; section 1.6; section 5.2; section 5.3; section 5.4.) -/
def Obligations.NewCycleFrameAtAFollower : Prop :=
  ∀ (s : State) (t : HubTime) (f : CycleFields), s.isMaster = false →
    (s.rc.ringState = .addressed ∨ s.rc.ringState = .running ∨ s.rc.ringState = .lost) → s.rc.rosterHeld = true →
    s.rc.period = some f.period → s.rc.hubCount = some f.hubCount →
    let age := min 65535 (f.age + s.compAt (t - 54))
    (∃ s', exec (.cycleFrame t ⟨f, 27, true⟩) s = .next s' ∧ s'.su.gen = s.su.gen
      ∧ (∃ r, s'.rc.lastCycle = some r ∧ r.number = f.number ∧ r.angle = f.angle ∧ r.v = f.v ∧ r.dpub = f.dpub
          ∧ r.flags = f.flags ∧ r.hubCount = f.hubCount ∧ r.classes = f.classes ∧ r.mask = f.mask
          ∧ r.arrivalTime = t - 54 ∧ r.arrivalAge = age)
      ∧ s'.tu.carried = TripClasses.cls f.classes ∧ s'.tu.carriedMask = f.mask
      ∧ (if s.rc.lastCycle = none ∨ 0 < sdiff f.number s.su.tracker.lastCycle then
          (if s.rc.ringState = .lost then
            s'.rc.ringState = .lost ∧ s'.rc.missedDeadlines = s.rc.missedDeadlines ∧ s'.rc.deadline = s.rc.deadline
              ∧ s'.rc.expectedNext = s.rc.expectedNext
          else
            s'.rc.ringState = .running ∧ s'.rc.missedDeadlines = 0
              ∧ s'.rc.deadline = some (later (t - 54) (s.periodTicks * 3 / 2))
              ∧ s'.rc.expectedNext = some (later (t - 54) s.periodTicks))
            ∧ s'.rc.rosterTimer = (if s.rc.ringState = .addressed then none else s.rc.rosterTimer)
            ∧ s'.su.tracker.angle = f.angle ∧ s'.su.tracker.lastV = f.v ∧ s'.su.tracker.flags = f.flags
            ∧ s'.su.tracker.lastCycle = f.number
            ∧ ∃ e, s'.su.tracker.history.getLast? = some e ∧ e.cycle = f.number ∧ e.theta = f.angle.extractLsb' 12 24
              ∧ e.extrapolated = false
              ∧ (if f.dpub < age ∨ age = 65535 then e.p = t - 54 ∧ e.late = true
                else e.p = t - 54 + BitVec.ofNat 32 (f.dpub - age) ∧ e.late = false)
        else
          s'.su = s.su ∧ s'.rc.ringState = s.rc.ringState ∧ s'.rc.missedDeadlines = s.rc.missedDeadlines
            ∧ s'.rc.deadline = s.rc.deadline ∧ s'.rc.expectedNext = s.rc.expectedNext
            ∧ s'.rc.rosterTimer = s.rc.rosterTimer)
      ∧ let new := decide (s.rc.lastCycle = none ∨ 0 < sdiff f.number s.su.tracker.lastCycle)
        (new = true → s.quietStep (f.dpub < age ∨ age = 65535)) →
          s.tripWordTaken s' (TripClasses.cls f.classes) (new && f.flags.atRest) (new && f.resetRequest))
    ∧ ∃ s', exec (.cycleFrame t ⟨f, 27, false⟩) s = .next s' ∧ s.frame s' t []

/-- DEADLINE_EXPIRY at a RUNNING follower with a record and a deadline that has come. With no deadline missed the count is
1, the deadline and the expected next frame are one period on, and the tracker has taken an extrapolated step: the
last V added to the angle, the cycle number one up, and a newest entry, EXTRAPOLATED, of these, with the difference to
the entry before (0 without one) and as P the deadline plus the record's Dpub less its arrival age, or the deadline
and LATE where the age exceeds Dpub or is 65,535. Else it is in LOST, RING LOST latched, its re-forming flag set, no
deadline, its own-frame queues empty, no step taken; posted lists and correction sums are discarded, the sections else
as before but for what the trip orders, waiting FENCEs are answered DISCARDED, waiting requests NOT RUNNING, and no
EDIT REPLY waits. The Image Mover is idle and empty, each pair and the transfer counted as dropped, with IMAGE DROPPED
if there was one, and the pairs' SENDING pins, strips in reception and their reservations are gone. Imports in
INITIAL, CLEAN or DIRTY are STALE and ready, with VIEWS at the owner, the control list is empty, waiting nudges are
answered NOT RUNNING, and exports keep their entries. The Trip Unit has taken RING LOST. In NORMAL and RELEASING, when
it was not latched and is SYNC or above, the state is CAPTURE, a new record, current and CAPTURING, has it as first
cause and the effective class as entry and highest class, and the sections have taken its order. In CAPTURE and
STOPPING the state is LOCKOUT, every section not VACANT is RELEASED, and the current record has RING LOST in its
secondary list, within its limits, and reaches the effective class. In STOPPED and LOCKOUT the state stays; a RING
LOST not latched before is secondary in the current record, which reaches a risen effective class, and a rise gives
the section actions. That a class below a record's highest leaves it is the model's choice (notes/assumptions/66.md).
(section 1.6; section 2.4; section 3.3; section 5.1; section 5.3; section 7.6; section 9.3; section 9.4.) -/
def Obligations.MissedDeadline : Prop :=
  ∀ (s : State) (t d : HubTime) (r : LastCycle), s.isMaster = false → s.rc.ringState = .running → s.rc.deadline = some d →
    isDue d t = true → s.rc.lastCycle = some r →
    ∃ s', exec (.deadlineExpiry t) s = .next s'
      ∧ (if s.rc.missedDeadlines = 0 then
          s'.rc.ringState = .running ∧ s'.rc.missedDeadlines = 1 ∧ s'.rc.deadline = some (later d s.periodTicks)
            ∧ s'.rc.expectedNext = s.rc.expectedNext.map (fun x => later x s.periodTicks)
            ∧ (∃ e, s'.su.tracker.history.getLast? = some e ∧ e.cycle = s.su.tracker.lastCycle + 1
              ∧ e.theta = (s.su.tracker.angle + BitVec.ofInt 36 s.su.tracker.lastV).extractLsb' 12 24 ∧ e.extrapolated = true
              ∧ e.delta = (match s.su.tracker.history.getLast? with
                | some x => Machine.sdiff e.theta x.theta
                | none => 0)
              ∧ (if r.dpub < r.arrivalAge ∨ r.arrivalAge = 65535 then e.p = d ∧ e.late = true
                else e.p = d + BitVec.ofNat 32 (r.dpub - r.arrivalAge) ∧ e.late = false))
            ∧ s'.su.tracker.angle = s.su.tracker.angle + BitVec.ofInt 36 s.su.tracker.lastV
            ∧ s'.su.tracker.lastCycle = s.su.tracker.lastCycle + 1 ∧ s'.su.tracker.lastV = s.su.tracker.lastV
            ∧ s'.su.tracker.flags = s.su.tracker.flags
        else
          s'.rc.ringState = .lost ∧ s'.rc.reforming = true ∧ s'.rc.deadline = none ∧ s'.rc.controlQueue = []
            ∧ s'.rc.viewQueue = [] ∧ s'.rc.imagePending = none ∧ s.ringLostTaken s' ∧ s.moverLost s' ∧ s.viewsLost s'
            ∧ s'.su = s.su ∧ s'.rc.hubAddress = s.rc.hubAddress ∧ s'.rc.rosterHeld = s.rc.rosterHeld
            ∧ (∀ i, s'.slot i = { s.slot i with
                state := (s'.slot i).state, posted := [], corrSum := 0, corrHeld := false })
            ∧ s'.se.waiting = [] ∧ s'.se.replies = [] ∧ (∀ f ∈ s'.se.fences, f.slots = [])
            ∧ (∀ f ∈ s.se.fences, f.slots ≠ [] → ⟨f.tag, .discarded, []⟩ ∈ (s'.port f.port).responses)
            ∧ (∀ w ∈ s.se.waiting, ⟨w.tag, .notRunning, []⟩ ∈ (s'.port w.port).responses)
            ∧ (if s.tu.state = .normal ∨ s.tu.state = .releasing then
                ⟨.ringLost, none⟩ ∉ s.tu.causes → 2 ≤ (s.tu.matrix.get .ringLost).rank →
                  s.tripOpened s' ⟨.ringLost, none⟩ (fun r =>
                    r.secondary = [] ∧ r.entryClass = s'.effectiveClass ∧ r.highest = s'.effectiveClass)
                  ∧ ∀ i, (s'.slot i).state = SectionState.under s'.effectiveClass (s.slot i).state
              else if s.tu.state = .capture ∨ s.tu.state = .stopping then
                s.currentBecomes s' (fun r => r.noted ⟨.ringLost, none⟩ s'.effectiveClass)
              else
                let rise := s.effectiveClass.rank < s'.effectiveClass.rank
                s.currentBecomes s' (fun r => if ⟨.ringLost, none⟩ ∈ s.tu.causes then r
                  else r.noted ⟨.ringLost, none⟩ (if rise then s'.effectiveClass else .noClass))
                ∧ ∀ i, (s'.slot i).state =
                    if rise then SectionState.under s'.effectiveClass (s.slot i).state else (s.slot i).state))

/-- FRAME_FORWARD of any frame whose first byte arrives. A frame that the hub removes - at a master every CENSUS, ROSTER,
cycle frame and unknown kind; a data frame in RUNNING when it is to or from this hub, has equal addresses or one not
below the hub count; at a master not in RUNNING every data frame - is not forwarded; only an unknown kind is counted,
corrupt. Every other frame is cut at 1,049 bytes with a wrong CRC. With nothing held and RING OUT free within 32 ticks
it leaves 32 ticks after its first byte: a cycle frame with the arrival age plus 32, at most 65,535, the bit of the
own class ORed into the gathered group and the mask bit of the own address set or cleared by that class; an intact
CENSUS with its count one up or OVERFLOW; every other frame, and a CRC good or bad, as it came. Otherwise it joins the
transit buffer behind the held frames: whole when it fits the room that is left of 1,049 bytes or RING OUT is taken
from the buffer before it fills, cut with a wrong CRC at that room when it does not, and not at all without room
(notes/assumptions/15.md). HELD_FRAME_RELEASE of the oldest held frame, RING OUT free: it leaves at once with the same
changes, the time it waited beyond 32 ticks added to a cycle frame's age, which counts the cable compensation in force
when it arrived; with RING OUT busy or nothing held nothing happens. The model's choices: a cut frame is as long as
the bytes kept (notes/assumptions/62.md), a held frame may leave less than 32 ticks after its first byte
(notes/assumptions/63.md), a CENSUS count above 31 (notes/assumptions/48.md), an unknown kind is counted at its first
byte (notes/assumptions/29.md). Nothing else changes but the records of the arrival and of the frame that passes
(notes/assumptions/3.md, notes/assumptions/28.md). (section 1.1; section 1.2; section 1.4; section 1.5; section 1.7.) -/
def Obligations.CycleFrameIsForwarded : Prop :=
  ∀ (s : State) (t : HubTime) (f : Frame),
    let left := s.rc.outLeft - (t - s.hubTime).toNat
    let room := s.rc.roomAt left
    let cut := fun (n : Nat) (x : Frame) => if x.length ≤ n then x else { x with length := n, crcGood := false }
    let g := cut 1049 f
    let noted : RC := { s.rc with outLeft := left, inbound := some ⟨t, decide (s.rc.ringState = .running), s.rc.cableComp⟩ }
    (∃ s', exec (.frameForward t f) s = .next s' ∧ s.frame s' t [.rc]
      ∧ (s.removes f.body → s'.rc = { noted with
          corruptCount := match f.body with
            | .unknown _ => satInc s.rc.corruptCount
            | _ => s.rc.corruptCount })
      ∧ (¬ s.removes f.body →
          if s.rc.transit = [] ∧ left ≤ 32 then
            ∃ before, (left = 0 → before = []) ∧ s'.rc = { noted with
              ringOut := some ⟨s.leaving g s.rc.cableComp 0, later t 32⟩, outLeft := 32 + 2 * g.length, outHeld := false
              passing := before ++ [⟨⟨g, t, s.rc.cableComp⟩, later t left⟩] }
          else s'.rc = { noted with
            transit := s.rc.transit ++ (if room = 0 then []
              else if s.rc.outHeld = true ∨ left ≤ 2 * room then [⟨g, t, s.rc.cableComp⟩]
              else [⟨cut room g, t, s.rc.cableComp⟩]) }))
    ∧ ∃ s', exec (.heldFrameRelease t) s = .next s' ∧ s.frame s' t [.rc]
      ∧ s'.rc = (match s.rc.transit with
        | [] => { s.rc with outLeft := left }
        | h :: rest =>
          if left = 0 then { s.rc with
            transit := rest, ringOut := some ⟨s.leaving h.frame h.comp ((t - h.arrival).toNat - 32), t⟩
            outLeft := 2 * h.frame.length, outHeld := true }
          else { s.rc with outLeft := left })

/-- OWN_FRAME_START with RING OUT free and nothing held. The window is open for a frame of n bytes when the expected next
cycle frame (the next origination at the master, the arrival of the last new frame plus a period at a follower) is at
least 2n + 200 ticks away, and always at a master in DOWN. The master's due CENSUS starts with the present hub time as
its stamp, which becomes the outstanding one, and its due ROSTER starts as it was made, in any ring state, when the
window is open for it. In RUNNING with none due, the head f of the control queue starts, from the hub's address: with
no block waiting, the queue is left without it; with a block waiting and seven frames behind f, the oldest frame of
that block's store takes the freed place, the block waits on behind the others if it keeps another, and nothing of any
block but that store has changed. With the control queue empty, no view update offered and no export due, the head of
the view queue starts; with both queues empty the image pending frame, and, when the mover offers no other frame, an
IMAGE BEGIN of the transfer in hand, in BEGIN SENT, starts the sender's timer at 0 with the limit 4; an IMAGE SEGMENT
of it, in SENDING, makes the next segment number one up, and either that segment is the image pending frame, or after
the last one the sender is in AWAIT COMPLETE with its timer at 0 of 8; any other BEGIN or SEGMENT empties the place
alone. A frame that starts goes out whole from this instant. When the window is not open for the first candidate, no
frame starts. Nothing else changes. That a census takes its stamp at its start (notes/assumptions/14.md) and that the
block waits on behind the others (notes/assumptions/21.md) are the model's deductions; that a roster goes as it was
made (notes/assumptions/36.md) and that a census due at a LOST master still starts when the re-formation conditions
have ceased (notes/assumptions/37.md) are its choices. (section 1.7; section 1.3; section 7.3; section 9.3.) -/
def Obligations.OwnFrameStarts : Prop :=
  ∀ (s : State) (t : HubTime), s.rc.transit = [] → s.rc.outLeft - (t - s.hubTime).toNat = 0 →
    (∀ c : CensusFields, s.isMaster = true → s.rc.ringFrameDue = some (.census c) →
      ∃ s', exec (.ownFrameStart t) s = .next s' ∧ s.frame s' t [.rc]
        ∧ (s.opensFor t 13 → s'.rc = { s.rc with
            ringOut := some ⟨⟨.census { c with stamp := t }, 13, true⟩, t⟩, outLeft := 26, outHeld := false
            ringFrameDue := none, outstandingCensus := some (c.number, t) })
        ∧ (¬ s.opensFor t 13 → s.frame s' t []))
    ∧ (∀ r : RosterFields, s.isMaster = true → s.rc.ringFrameDue = some (.roster r) →
      ∃ s', exec (.ownFrameStart t) s = .next s' ∧ s.frame s' t [.rc]
        ∧ (s.opensFor t 17 → s'.rc = { s.rc with
            ringOut := some ⟨⟨.roster r, 17, true⟩, t⟩, outLeft := 34, outHeld := false, ringFrameDue := none })
        ∧ (¬ s.opensFor t 17 → s.frame s' t []))
    ∧ ∀ (f : OwnFrame), s.rc.ringState = .running → s.rc.ringFrameDue = none →
      let n := 9 + f.payload.bytes.length
      let out := some (Sent.mk ⟨.data (f.fields (s.rc.hubAddress.getD 0)), n, true⟩ t)
      (∀ q, s.rc.controlQueue = f :: q →
        ∃ s', exec (.ownFrameStart t) s = .next s'
          ∧ (s.opensFor t n →
            (s.rc.controlWaiters = [] → s.frame s' t [.rc] ∧ s'.rc = { s.rc with
              ringOut := out, outLeft := 2 * n, outHeld := false, controlQueue := q })
            ∧ ∀ b w g gs, s.rc.controlWaiters = b :: w → b ∉ w → s.storeOf b = g :: gs → q.length = 7 →
              s.frame s' t [.rc, .se, .im, .vu] ∧ s'.storeOf b = gs
              ∧ s'.se = (if b = .sectionEngine then { s.se with replies := gs } else s.se)
              ∧ s'.im = (if b = .imageMover then { s.im with store := s.im.store.tail } else s.im)
              ∧ VU.kept (if b = .viewUnit then { s.vu with controlList := gs } else s.vu) s'.vu
              ∧ s'.rc = { s.rc with
                ringOut := out, outLeft := 2 * n, outHeld := false, controlQueue := q ++ [g]
                controlWaiters := if gs = [] then w else w ++ [b] })
          ∧ (¬ s.opensFor t n → s.frame s' t []))
      ∧ (∀ q, s.rc.controlQueue = [] → s.rc.viewQueue = f :: q → s.vu.offered = none →
        (∀ i, ∀ e ∈ s.vu.exports.get i, e.due = .none) →
        ∃ s', exec (.ownFrameStart t) s = .next s' ∧ s.frame s' t [.rc]
          ∧ (s.opensFor t n → s'.rc = { s.rc with
              ringOut := out, outLeft := 2 * n, outHeld := false, viewQueue := q })
          ∧ (¬ s.opensFor t n → s.frame s' t []))
      ∧ (s.rc.controlQueue = [] → s.rc.viewQueue = [] → s.rc.imagePending = some f →
        ∃ s', exec (.ownFrameStart t) s = .next s' ∧ s.frame s' t [.rc, .im]
          ∧ (s.opensFor t n → s'.rc.ringOut = out ∧ s'.rc.outLeft = 2 * n
            ∧ ∀ b, f.payload = .imageBegin b → s.im.offered = [] →
              s'.rc = { s.rc with ringOut := out, outLeft := 2 * n, outHeld := false, imagePending := none }
                ∧ s'.im = (if s.im.sender = .beginSent ∧ s.im.transfer.any (fun k => decide (b.number = k.number)) = true
                    then { s.im with timer := some ⟨0, 4⟩ } else s.im))
          ∧ (s.opensFor t n → ∀ strip nb sg ct bs, f.payload = .imageSegment strip nb sg ct bs → s.im.offered = [] →
            (∀ k x, s.im.sender = .sending → s.im.transfer = some k → k.number = nb → s.strip k.strip = some x →
              let len := if k.nextSeg + 2 < k.segCount then 1024 else x.byteSize - (k.segCount - 1) * 1024
              s'.rc = { s.rc with
                  ringOut := out, outLeft := 2 * n, outHeld := false
                  imagePending := if k.nextSeg + 1 = k.segCount then none else
                    some ⟨k.dst, .imageSegment k.strip k.number (k.nextSeg + 1) len ((List.range len).map (fun j =>
                      memRead s.is.mem (tileAddr x.tiles ((k.nextSeg + 1) * 1024 + j))))⟩ }
                ∧ s'.im = (if k.nextSeg + 1 = k.segCount then
                    { s.im with
                      transfer := some { k with nextSeg := k.nextSeg + 1 }
                      sender := .awaitComplete, timer := some ⟨0, 8⟩ }
                  else { s.im with transfer := some { k with nextSeg := k.nextSeg + 1 } }))
            ∧ (s.im.sender ≠ .sending ∨ s.im.transfer.all (fun k => decide (k.number ≠ nb)) = true →
              s'.im = s.im ∧ s'.rc = { s.rc with
                ringOut := out, outLeft := 2 * n, outHeld := false, imagePending := none }))
          ∧ (¬ s.opensFor t n → s.frame s' t []))

/-- At a hub that is in RUNNING, or was when the frame's first byte came, since removal is decided on the header: an
intact data frame for the hub from another known hub, carrying the bytes of any well-formed payload, acts exactly as
the delivery command of that payload with the same source, and at a hub that has left RUNNING by its last byte it
changes nothing but hub time. DATA_FRAME_REMOVAL at such a hub with address h below its hub count n: a frame with a
destination or source not below n, or with equal ones, adds one to the corrupt count (that it does so even where one
of them is h is the model's choice, notes/assumptions/35.md); a frame of the hub's own for another hub adds one to the
undeliverable count when its CRC is good, and one to the corrupt count when it is corrupt; a frame for the hub that is
corrupt, or whose payload length does not fit its kind, adds one to the corrupt count. Counts stay at 65,535. Nothing
else changes. That an IMAGE SEGMENT fits by 8 plus its byte count alone is the model's choice
(notes/assumptions/59.md). That a hub which was in RUNNING at the first byte still removes the frame rests on the row
of that byte having come, and that it then delivers nothing is the model's deduction (notes/assumptions/3.md). At a
hub that was in RUNNING at neither byte, a master that discards every data frame or a follower that has forwarded it,
nothing is counted or delivered, and the same of a frame between two other hubs, which RUNNING forwards: only hub time
changes. (section 1.1; section 7.4; section 11.3.) -/
def Obligations.DataFrameRemoval : Prop :=
  (∀ (s : State) (t : HubTime) (f : Inbound DataFields), ¬ s.takesData t f.length →
      ∃ s', exec (.dataFrameRemoval t f) s = .next s' ∧ s.frame s' t [])
    ∧ (∀ (s : State) (t : HubTime) (src h n : Nat) (p : DataPayload), p.wellFormed = true → p.bytes.length ≤ 1040 →
    s.takesData t (9 + p.bytes.length) → s.rc.hubCount = some n → s.rc.hubAddress = some h → h < n → src < n → src ≠ h →
    exec (.dataFrameRemoval t ⟨⟨p.kind, h, src, p.bytes.length, p.bytes⟩, 9 + p.bytes.length, true⟩) s
      = exec (deliveryRow t src p) s)
    ∧ ∀ (s : State) (t : HubTime) (f : Inbound DataFields) (n h : Nat), s.takesData t f.length → s.rc.hubCount = some n →
    s.rc.hubAddress = some h → h < n →
    ∃ s', exec (.dataFrameRemoval t f) s = .next s'
      ∧ ((n ≤ f.fields.dst ∨ n ≤ f.fields.src ∨ f.fields.dst = f.fields.src) →
          s.frame s' t [.rc] ∧ s'.rc = { s.rc with
            outLeft := s.rc.outLeft - (t - s.hubTime).toNat, corruptCount := satInc s.rc.corruptCount })
      ∧ (f.fields.src = h → f.fields.dst < n → f.fields.dst ≠ h →
          s.frame s' t [.rc] ∧ s'.rc = { s.rc with
            outLeft := s.rc.outLeft - (t - s.hubTime).toNat
            undeliverableCount := if f.crcGood then satInc s.rc.undeliverableCount else s.rc.undeliverableCount
            corruptCount := if dataCorrupt f then satInc s.rc.corruptCount else s.rc.corruptCount })
      ∧ (f.fields.dst = h → f.fields.src < n → f.fields.src ≠ h →
          (dataCorrupt f = true ∨ payloadFits f.fields.kind f.fields.payload = false) →
          s.frame s' t [.rc] ∧ s'.rc = { s.rc with
            outLeft := s.rc.outLeft - (t - s.hubTime).toNat, corruptCount := satInc s.rc.corruptCount })
      ∧ (f.fields.dst = h → f.fields.src < n → f.fields.src ≠ h → dataCorrupt f = false →
          payloadFits f.fields.kind f.fields.payload = true → s.rc.ringState ≠ .running → s.frame s' t [])
      ∧ (f.fields.dst < n → f.fields.src < n → f.fields.dst ≠ f.fields.src → f.fields.dst ≠ h → f.fields.src ≠ h →
          s.frame s' t [])

/-- For every data frame payload whose fields fit their places, the bytes that the hub sends have the length that the kind
asks for and read back as the same payload, every field included. A status or reason code that its table does not list
is among the fields. (section 11.2; section 11.3.) -/
def Obligations.DataPayloadRoundTrip : Prop :=
  ∀ p : DataPayload, p.wellFormed = true → payloadFits p.kind p.bytes = true ∧ readPayload p.kind p.bytes = some p

/-- A permitted SET CABLE COMP stores the value clamped to 0 to 4,095 ticks; a permitted SET PUBLICATION OFFSET at the
master stores the value clamped to 0 to one period; at a follower it is answered NOT MASTER and stores nothing. The
response is CLAMPED when the value was clamped and DONE otherwise, and nothing else changes. (section 1.8.) -/
def Obligations.RingSettings : Prop :=
  ∀ (s : State) (t : HubTime) (p : PortNo) (g : Tag) (v : Nat), s.takes p g [.desk] →
    (∃ s', exec (.setCableComp t p g (some v)) s = .next s' ∧ s.frame s' t [.rc, .cp]
      ∧ s'.rc = { s.rc with outLeft := s.rc.outLeft - (t - s.hubTime).toNat, cableComp := min v 4095 }
      ∧ s'.cp = s.cp.answered p g (if v ≤ 4095 then .done else .clamped) [])
    ∧ ∃ s', exec (.setPublicationOffset t p g (some v)) s = .next s' ∧ s.frame s' t [.rc, .cp]
      ∧ (if s.isMaster then
          s'.rc = { s.rc with outLeft := s.rc.outLeft - (t - s.hubTime).toNat, dpub := some (min v s.periodTicks) }
            ∧ s'.cp = s.cp.answered p g (if v ≤ s.periodTicks then .done else .clamped) []
        else RC.kept s t s'.rc ∧ s'.cp = s.cp.answered p g .notMaster [])

/-- At the master, in every ring state: a permitted SET SPEED is refused BUSY while inching is on and stores nothing;
otherwise it stores its value clamped to 0 to Vmax as Vt. A permitted SET RAMP stores A, Dn and De, each clamped to 1
to 1,048,575, together. A permitted SET VMAX is refused NOT AT REST, and stores nothing, unless the generator is at
rest; otherwise Vmax takes the value clamped to 0 to 2,147,479,552, Vt above it is lowered to it, and Vi of greater
magnitude is brought to it with its sign kept. The response is CLAMPED when a value was clamped and DONE otherwise.
Nothing else changes. (R33; R34; R35.) -/
def Obligations.GeneratorSettings : Prop :=
  ∀ (s : State) (t : HubTime) (p : PortNo) (g : Tag) (v : Int) (a dn de m : Nat), s.takes p g [.desk] →
    s.isMaster = true →
    (∃ s', exec (.setSpeed t p g (some v)) s = .next s' ∧ s.frame s' t [.su, .cp]
      ∧ (if s.su.gen.inching then s'.su = s.su ∧ s'.cp = s.cp.answered p g .busy []
        else
          s'.su = { s.su with gen := { s.su.gen with vt := if v < 0 then 0 else min v s.su.gen.vmax } }
            ∧ s'.cp = s.cp.answered p g (if 0 ≤ v ∧ v ≤ s.su.gen.vmax then .done else .clamped) []))
    ∧ (∃ s', exec (.setRamp t p g (some a) (some dn) (some de)) s = .next s' ∧ s.frame s' t [.su, .cp]
      ∧ s'.su = { s.su with gen := { s.su.gen with
          a := max 1 (min a 1048575), dn := max 1 (min dn 1048575), de := max 1 (min de 1048575) } }
      ∧ s'.cp = s.cp.answered p g
          (if (1 ≤ a ∧ a ≤ 1048575) ∧ (1 ≤ dn ∧ dn ≤ 1048575) ∧ (1 ≤ de ∧ de ≤ 1048575) then .done else .clamped) [])
    ∧ ∃ s', exec (.setVmax t p g (some m)) s = .next s' ∧ s.frame s' t [.su, .cp]
      ∧ (if s.genAtRest then
          s'.su = { s.su with gen := { s.su.gen with
              vmax := min m 2147479552
              vt := min s.su.gen.vt (min m 2147479552 : Nat)
              vi := if s.su.gen.vi.natAbs ≤ min m 2147479552 then s.su.gen.vi
                else if s.su.gen.vi < 0 then -(min m 2147479552 : Nat) else (min m 2147479552 : Nat) } }
            ∧ s'.cp = s.cp.answered p g
                (if m ≤ 2147479552 ∧ s.su.gen.vt ≤ (min m 2147479552 : Nat) ∧ s.su.gen.vi.natAbs ≤ min m 2147479552 then .done
                else .clamped) []
        else s'.su = s.su ∧ s'.cp = s.cp.answered p g .notAtRest [])

/-- At the master a permitted INCH START is checked in the order RUNNING, LOCKOUT, effective class below SYNC, at rest,
with the responses NOT RUNNING, LOCKED OUT, BAD STATE and NOT AT REST; when all pass, Vi is the value clamped to -Vmax
to Vmax and inching is on. A permitted INCH STOP turns inching off, sets Vt to 0, leaves Vi and is answered DONE, in
every ring state. At a follower a permitted SET SPEED, SET RAMP, SET VMAX, INCH START or INCH STOP is answered NOT
MASTER, whatever values it carries. Nothing else changes. (section 2.3.) -/
def Obligations.InchRequests : Prop :=
  ∀ (s : State) (t : HubTime) (p : PortNo) (g : Tag) (v : Int) (x : Option Int) (a dn de m : Option Nat),
    s.takes p g [.desk] →
    (s.isMaster = true → ∃ s', exec (.inchStart t p g (some v)) s = .next s' ∧ s.frame s' t [.su, .cp]
      ∧ (if s.rc.ringState ≠ .running then s'.su = s.su ∧ s'.cp = s.cp.answered p g .notRunning []
        else if s.tu.state = .lockout then s'.su = s.su ∧ s'.cp = s.cp.answered p g .lockedOut []
        else if s.effectiveClass.stops then s'.su = s.su ∧ s'.cp = s.cp.answered p g .badState []
        else if s.genAtRest = false then s'.su = s.su ∧ s'.cp = s.cp.answered p g .notAtRest []
        else
          s'.su = { s.su with gen := { s.su.gen with
              vi := if v < -(s.su.gen.vmax : Int) then -(s.su.gen.vmax : Int) else min v s.su.gen.vmax
              inching := true } }
            ∧ s'.cp = s.cp.answered p g (if v.natAbs ≤ s.su.gen.vmax then .done else .clamped) []))
    ∧ (s.isMaster = true → ∃ s', exec (.inchStop t p g) s = .next s' ∧ s.frame s' t [.su, .cp]
      ∧ s'.su = { s.su with gen := { s.su.gen with inching := false, vt := 0 } }
      ∧ s'.cp = s.cp.answered p g .done [])
    ∧ (s.isMaster = false →
      ∀ c ∈ [Instr.setSpeed t p g x, .setRamp t p g a dn de, .setVmax t p g m, .inchStart t p g x, .inchStop t p g],
        ∃ s', exec c s = .next s' ∧ s.frame s' t [.cp] ∧ s'.cp = s.cp.answered p g .notMaster [])

/-- For every command: when 0 ≤ Vt ≤ Vmax, |Vi| ≤ Vmax, |V| ≤ Vmax, Vmax ≤ 2,147,479,552 and the ramp rates lie in 1 to
1,048,575 before it, they do so after it. For every command: a history of at most 16 entries has at most 16 after it.
The entries that a step appends to come through unchanged, but that the oldest is dropped from a full history.
(section 2.2; section 2.4.) -/
def Obligations.ShaftLaw : Prop :=
  (∀ (c : Instr) (s s' : State), s.su.gen.lawful = true → s.su.gen.ratesInRange = true → exec c s = .next s' →
    s'.su.gen.lawful = true ∧ s'.su.gen.ratesInRange = true)
    ∧ (∀ (c : Instr) (s s' : State), s.su.tracker.bounded = true → exec c s = .next s' → s'.su.tracker.bounded = true)
    ∧ ∀ (h : List HistEntry) (e : HistEntry), h.length ≤ 16 →
      appendEntry h e = (if h.length = 16 then h.tail else h) ++ [e]

/-- One step of the generator toward target T from V: V equal to T stays; on opposite sides of zero V moves toward zero by
Dn and stops there; otherwise it moves toward T by A when |T| is greater, by De when it falls to 0 for a trip and by
Dn when it falls otherwise, never past T; in LOCKOUT it becomes 0. The angle then goes on by the new V modulo 2^36,
and TRIP DECEL is set exactly when the target is 0 for a trip. The step keeps |V| within Vmax when |V| and |T| are
within it before. CYCLE_ORIGINATION with its instant come, in RUNNING or LOST, makes such a step of the generator, in
LOCKOUT as it then is, and for a trip exactly when the Trip Unit is in LOCKOUT or its effective class or the returned
trip word is SYNC or above. Where the frame originated before has failed to return a second time in RUNNING, that is
so after the loss of the ring: in CAPTURE, STOPPING and LOCKOUT always; in STOPPED when RING LOST or a latched cause
is SYNC or above; in NORMAL and RELEASING when RING LOST was not latched and is SYNC or above; and in these three when
the carried class or the returned trip word is. (section 2.2; section 1.5.) -/
def Obligations.GeneratorStep : Prop :=
  (∀ (g : Generator) (forTrip lockout : Bool),
    let g1 := g.step forTrip lockout
    let target : Int := if forTrip then 0 else if g.inching then g.vi else g.vt
    g1.tripDecel = forTrip ∧ g1.angle = g.angle + BitVec.ofInt 36 g1.v ∧ g1.vmax = g.vmax
      ∧ (if lockout then g1.v = 0
        else if (0 < g.v ∧ target < 0) ∨ (g.v < 0 ∧ 0 < target) then
          g1.v.natAbs = g.v.natAbs - g.dn ∧ 0 ≤ g1.v * g.v
        else if g.v.natAbs < target.natAbs then
          g1.v.natAbs = min target.natAbs (g.v.natAbs + g.a) ∧ 0 ≤ g1.v * target
        else if target.natAbs < g.v.natAbs then
          g1.v.natAbs = max target.natAbs (g.v.natAbs - (if forTrip then g.de else g.dn)) ∧ 0 ≤ g1.v * g.v
        else g1.v = g.v)
      ∧ (if forTrip = true ∧ g.tripDecel = false then g1.vt = 0 ∧ g1.inching = false
        else g1.vt = g.vt ∧ g1.inching = g.inching)
      ∧ (g.v.natAbs ≤ g.vmax → target.natAbs ≤ g.vmax → g1.v.natAbs ≤ g.vmax))
    ∧ ∀ (s : State) (t x : HubTime), (s.rc.ringState = .running ∨ s.rc.ringState = .lost) →
      s.rc.nextOrigination = some x → isDue x t = true →
      ∃ s' forTrip, exec (.cycleOrigination t) s = .next s'
        ∧ s'.su.gen = s.su.gen.step forTrip (decide (s'.tu.state = .lockout))
        ∧ (if s.rc.ringState = .running ∧ s.rc.lastCycle.isSome = true ∧ s.rc.returnSeen = false ∧ 1 ≤ s.rc.failedReturns then
            let lost := 2 ≤ (s.tu.matrix.get .ringLost).rank
            (forTrip = true ↔ 2 ≤ s.tu.carried.rank ∨ 2 ≤ (ClassGroup.cls s.rc.returnedClass).rank
              ∨ (match s.tu.state with
                | .capture | .stopping | .lockout => True
                | .stopped => lost ∨ ∃ c ∈ s.tu.causes, 2 ≤ (s.tu.matrix.get c.cause).rank
                | .normal | .releasing => lost ∧ ⟨.ringLost, none⟩ ∉ s.tu.causes))
          else forTrip = (decide (s.tu.state = .lockout) || decide (2 ≤ s.effectiveClass.rank)
            || decide (2 ≤ (ClassGroup.cls s.rc.returnedClass).rank)))

/-- The tracker asked for time t: UNKNOWN for an empty history or a time before every entry; PENDING when the newest
entry's P is not later than t; otherwise, for the newest entry k not later than t and the entry after it, θ_k plus the
next entry's Δ times the elapsed part of the interval, rounded to nearest with halves away from zero, modulo 2^24.
(R42; R43.) -/
def Obligations.Interpolation : Prop :=
  ∀ (k : Tracker) (t : HubTime),
    ((∀ e ∈ k.history, 0 < sdiff e.p t) → k.angleAt t = .unknown)
    ∧ (∀ e, k.history.getLast? = some e → sdiff e.p t ≤ 0 → k.angleAt t = .pending)
    ∧ ∀ (older newer : List HistEntry) (e next : HistEntry), k.history = older ++ e :: next :: newer →
      sdiff e.p t ≤ 0 → (∀ x ∈ next :: newer, 0 < sdiff x.p t) →
      k.angleAt t = .angle (e.theta + BitVec.ofInt 24 (roundDiv (next.delta * sdiff t e.p) (sdiff next.p e.p)))
        ∧ ∀ (a b : Int), 0 < b → 2 * (roundDiv a b * b - a).natAbs ≤ b.natAbs
            ∧ (2 * (roundDiv a b * b - a).natAbs = b.natAbs → a.natAbs ≤ (roundDiv a b).natAbs * b.natAbs)

/-- A permitted SECTION SET of an existing slot with 1 to 8 pairs of distinct known keys, in a ring state other than
CONFLICT, that names drive port, N and D when the slot is VACANT with an empty list: refused values give BAD ARGUMENT,
an expected serial that is not the edit serial plus the number of posted changes gives STALE SERIAL with both, a full
list gives FULL, and otherwise one change joins the list and the answer is POSTED, or CLAMPED when a value was
clamped. Nothing else changes. A value is refused exactly when the drive port is not the number of a port whose role
is DRIVE, or when N or D is named and, each as it will stand (the value named, else the latest), N or D is not 1 to
65,535 or N exceeds 4 × D. The group that passes holds every value named and no other: Os clamped to
-8,388,608..8,388,607, Tmax to 0..1,048,575, Tt to ± the Tmax that will stand, slew and nudge limit to 0..65,535, the
pickup tolerance to 0..7; and a value was clamped exactly when one of these lay outside its range. (section 3.3.) -/
def Obligations.SectionSetIsPosted : Prop :=
  ∀ (s : State) (t : HubTime) (p : PortNo) (g : Tag) (i : SlotNo) (expected : Option Nat) (pairs : List (Nat × Int)),
    (s.takes p g [.desk] → 1 ≤ pairs.length → pairs.length ≤ 8 → (∀ q ∈ pairs, 1 ≤ q.1 ∧ q.1 ≤ 9) →
      (pairs.map (fun q => q.1)).Nodup → s.rc.ringState ≠ .conflict →
      ((s.slot i).state = .vacant → (s.slot i).posted = [] → ∀ k ∈ [1, 2, 3], k ∈ pairs.map (fun q => q.1)) →
      ∃ s', exec (.sectionSet t p g (some i.val) expected pairs) s = .next s' ∧ s.frame s' t [.se, .cp]
        ∧ (match s.checkFields (s.slot i).latest pairs with
          | none => s'.se = s.se ∧ s'.cp = s.cp.answered p g .badArgument []
          | some (f, clamped) =>
            if (s.slot i).serialFits expected = false then
              s'.se = s.se ∧ s'.cp = s.cp.answered p g .staleSerial
                (valuesBytes [vbits 2 (s.slot i).serial, val 1 (s.slot i).posted.length])
            else if 8 ≤ (s.slot i).posted.length then s'.se = s.se ∧ s'.cp = s.cp.answered p g .full []
            else
              s'.se = { s.se with
                  slots := s.se.slots.set i
                    { s.slot i with posted := (s.slot i).posted ++ [⟨some p, .set f⟩] } }
                ∧ s'.cp = s.cp.answered p g (if clamped then .clamped else .posted) []))
    ∧ let v := fun k : Nat => (pairs.find? (fun q => q.1 == k)).map (fun q => q.2)
      let n : Int := (v 2).getD (s.slot i).latest.n
      let d : Int := (v 3).getD (s.slot i).latest.d
      (s.checkFields (s.slot i).latest pairs = none ↔
        (∃ x ∈ v 1, ¬ ∃ k : PortNo, (k.val : Int) = x ∧ (s.port k).role = .drive)
          ∨ (((v 2).isSome ∨ (v 3).isSome) ∧ ¬ (1 ≤ n ∧ n ≤ 65535 ∧ 1 ≤ d ∧ d ≤ 65535 ∧ n ≤ 4 * d)))
      ∧ ∀ r ∈ s.checkFields (s.slot i).latest pairs,
        let limit : Int := ((v 5).map (fun x => max 0 (min x 1048575))).getD (s.slot i).latest.tmax
        r.1.port.map (fun k => (k.val : Int)) = v 1 ∧ r.1.n = (v 2).map Int.toNat ∧ r.1.d = (v 3).map Int.toNat
        ∧ r.1.os = (v 4).map (fun x => max (-8388608) (min x 8388607))
        ∧ r.1.tmax = (v 5).map (fun x => (max 0 (min x 1048575)).toNat)
        ∧ r.1.tt = (v 6).map (fun x => max (-limit) (min x limit))
        ∧ r.1.slew = (v 7).map (fun x => (max 0 (min x 65535)).toNat)
        ∧ r.1.nudgeLimit = (v 8).map (fun x => (max 0 (min x 65535)).toNat)
        ∧ r.1.tol = (v 9).map (fun x => (max 0 (min x 7)).toNat)
        ∧ (r.2 = true ↔ (∃ x ∈ v 4, x < -8388608 ∨ 8388607 < x) ∨ (∃ x ∈ v 5, x < 0 ∨ 1048575 < x)
          ∨ (∃ x ∈ v 6, x < -limit ∨ limit < x) ∨ (∃ x ∈ v 7, x < 0 ∨ 65535 < x) ∨ (∃ x ∈ v 8, x < 0 ∨ 65535 < x)
          ∨ ∃ x ∈ v 9, x < 0 ∨ 7 < x)

/-- A permitted COUPLE, DECOUPLE or SET POSITION of an existing slot (and a position of 24 bits) outside RUNNING is
answered NOT RUNNING, a COUPLE in LOCKOUT is answered LOCKED OUT, and every other one joins the end of the waiting
list with no answer yet. A permitted FENCE is answered DONE at once when no list holds a change that its port posted,
and otherwise waits with the slots that hold one (slots and not changes: the model's deduction,
notes/assumptions/23.md). Nothing else changes. At a step, of CYCLE_FRAME, CYCLE_ORIGINATION or DEADLINE_EXPIRY: a
waiting FENCE whose noted slots all hold changes waits no longer and is answered DONE (at a discard it is DISCARDED:
TripEntry, MissedDeadline). When one request waits for a slot, it waits no longer, is checked against the section
after its posted changes and its correction, with the tracker's flags of that step, its response joins its port's, and
the step's record has the state that the check left, POSITION SET exactly when a SET POSITION was carried out, and
then its position. The check: COUPLE is answered, in this order, LOCKED OUT in LOCKOUT, BAD STATE when the section is
not IDLE or the effective class is QUICK or COAST, NOT AT REST when the flag AT REST is clear, else DONE, the section
COUPLED and its remainder 0; DECOUPLE BAD STATE when it is not COUPLED, NOT AT REST when the flag is clear, else DONE
and IDLE; SET POSITION is DONE, the position stored, in IDLE and HELD, else BAD STATE. A refused request leaves the
section as it was. That a request waiting for a VACANT slot is answered at the step (notes/assumptions/24.md) and is
checked with the class before the frame's trip word acts (notes/assumptions/8.md) are the model's deductions; that a
section leaving VACANT in LOCKOUT is RELEASED before the check is its choice (notes/assumptions/41.md), as is that the
same check serves one which left VACANT during a trip (notes/assumptions/64.md). (section 3.2; section 3.3; section
3.4.) -/
def Obligations.SectionRequests : Prop :=
  ∀ (s : State) (t : HubTime) (p : PortNo) (g : Tag) (i : SlotNo) (a : Angle),
    (s.takes p g [.desk] → ∀ c ∈ [(Instr.couple t p g (some i.val), WaitKind.couple),
        (Instr.decouple t p g (some i.val), WaitKind.decouple),
        (Instr.setPosition t p g (some i.val) (some a.toNat), WaitKind.setPosition a)],
      ∃ s', exec c.1 s = .next s' ∧ s.frame s' t [.se, .cp]
        ∧ (if s.rc.ringState ≠ .running then s'.se = s.se ∧ s'.cp = s.cp.answered p g .notRunning []
          else if c.2 = .couple ∧ s.tu.state = .lockout then s'.se = s.se ∧ s'.cp = s.cp.answered p g .lockedOut []
          else s'.se = { s.se with waiting := s.se.waiting ++ [⟨p, g, i, c.2⟩] } ∧ s'.cp = s.cp.waiting p g))
    ∧ (s.takes p g [.drive, .vision, .panel, .desk] →
      ∃ s', exec (.fence t p g) s = .next s' ∧ s.frame s' t [.se, .cp]
        ∧ (if ∀ j, ∀ c ∈ (s.slot j).posted, c.poster ≠ some p then
            s'.se = s.se ∧ s'.cp = s.cp.answered p g .done []
          else
            s'.se = { s.se with fences := s.se.fences ++
                [⟨p, g, (List.finRange 16).filter (fun j => (s.slot j).posted.any (fun c => decide (c.poster = some p)))⟩] }
              ∧ s'.cp = s.cp.waiting p g))
    ∧ (∀ (c : Instr) (w : Waiting), s.takesStep c → s.se.waiting.filter (fun v => v.slot == w.slot) = [w] →
      ∃ s', exec c s = .next s' ∧ w ∉ s'.se.waiting
        ∧ let y := ({ s with su := s'.su } : State).checkWaiting
            ((s.slot w.slot).readied (decide (s.tu.state = TripState.lockout))) w.kind
          ⟨w.tag, y.2, []⟩ ∈ (s'.port w.port).responses
          ∧ ((s.slot w.slot).state ≠ .vacant ∨ (s.slot w.slot).posted ≠ [] →
            ∃ r : SetpointRecord, r.slot = w.slot ∧ r.state = y.1.state
              ∧ (r.positionSet = true ↔ (∃ b, w.kind = .setPosition b) ∧ y.2 = .done)
              ∧ (∀ b, w.kind = .setPosition b → y.2 = .done → r.position = b)
              ∧ ((∃ k ∈ (s'.slot w.slot).armed, k.record = r) ∨ (s'.slot w.slot).published = some ⟨r, false⟩)))
    ∧ (∀ (c : Instr) (f : Fence), s.takesStep c → f ∈ s.se.fences → f.slots ≠ [] → (∀ j ∈ f.slots, (s.slot j).posted ≠ []) →
      ∃ s', exec c s = .next s' ∧ f ∉ s'.se.fences ∧ ⟨f.tag, .done, []⟩ ∈ (s'.port f.port).responses)
    ∧ ∀ (x : Section),
    (s.checkWaiting x .couple =
      if s.tu.state = .lockout then (x, .lockedOut)
      else if x.state ≠ .idle ∨ s.effectiveClass = .quick ∨ s.effectiveClass = .coast then (x, .badState)
      else if s.su.tracker.flags.atRest = false then (x, .notAtRest)
      else ({ x with state := .coupled, r := 0 }, .done))
    ∧ (s.checkWaiting x .decouple =
      if x.state ≠ .coupled then (x, .badState)
      else if s.su.tracker.flags.atRest = false then (x, .notAtRest)
      else ({ x with state := .idle }, .done))
    ∧ (s.checkWaiting x (.setPosition a) =
      if x.state = .idle ∨ x.state = .held then ({ x with position := a }, .done) else (x, .badState))

/-- CYCLE_FRAME, intact, new, fitting the held roster and not LATE, at a follower in RUNNING, for every COUPLED section
with D above 0, an empty posted change list, no correction delivered since the last step and no request waiting: with
Δm the signed difference of the frame's angle and the newest entry of the history (0 when it is empty), the new
remainder R' is below D and q satisfies Δm·N + R = q·D + R'; Ca goes toward Ct by at most the slew limit; the position
moves by q plus the step of Ca modulo 2^24; and the record of this step, with the frame's cycle number, that position
and that increment, is armed or already published. The arrival age counts the cable compensation that was in force
when the first byte came. That the sections move before the frame's trip word acts on them is the model's deduction
(notes/assumptions/8.md). And at every step that CYCLE_FRAME, CYCLE_ORIGINATION or DEADLINE_EXPIRY takes, for every
slot with no waiting request that is not VACANT or has a posted change: stages 1 and 2, spelled out in
Section.readied, come first. The posted changes are applied oldest first, each whole: out of VACANT the section is
IDLE with position, remainder and Ca 0; a nudge adds to Tt; each named field is stored, the remainder is 0 where N or
D is named; Tt, where it, Tmax or a nudge changes it, is clamped to Tmax with AT LIMIT telling so; the edit serial is
one up. The list is empty. The correction sum is added to the Tt of a COUPLED section, clamped, and dropped in any
other. (In LOCKOUT a section out of VACANT is RELEASED when its whole list has been applied: notes/assumptions/41.md.)
Then a COUPLED section moves by gear and slew with the Δm, cycle and flags of the new history entry, any other holds,
and the record says so, CORRECTING exactly when Ca is not Os + Tt. (section 3.1; section 3.2; section 3.3; section
3.5; section 1.4.) -/
def Obligations.CoupledSectionFollowsTheShaft : Prop :=
  (∀ (s : State) (t : HubTime) (f : CycleFields) (i : SlotNo) (dm : Int), s.isMaster = false → s.rc.ringState = .running →
    dm = (match s.su.tracker.history.getLast? with
      | some e => Machine.sdiff (f.angle.extractLsb' 12 24) e.theta
      | none => (0 : Int)) →
    s.rc.rosterHeld = true → s.rc.period = some f.period → s.rc.hubCount = some f.hubCount →
    (s.rc.lastCycle = none ∨ 0 < Machine.sdiff f.number s.su.tracker.lastCycle) →
    min 65535 (f.age + s.compAt (t - 54)) ≤ f.dpub → min 65535 (f.age + s.compAt (t - 54)) < 65535 →
    (s.slot i).state = .coupled → 1 ≤ (s.slot i).d → (s.slot i).posted = [] → (s.slot i).corrHeld = false →
    (∀ w ∈ s.se.waiting, w.slot ≠ i) →
    ∃ s' q step, exec (.cycleFrame t ⟨f, 27, true⟩) s = .next s'
      ∧ dm * (s.slot i).n + (s.slot i).r = q * (s.slot i).d + (s'.slot i).r
      ∧ (s'.slot i).r < (s.slot i).d
      ∧ step = max (-((s.slot i).slew : Int)) (min ((s.slot i).os + (s.slot i).tt - (s.slot i).ca) (s.slot i).slew)
      ∧ (s'.slot i).ca = (s.slot i).ca + step
      ∧ (s'.slot i).position = (s.slot i).position + BitVec.ofInt 24 (q + step)
      ∧ (s'.slot i).n = (s.slot i).n ∧ (s'.slot i).d = (s.slot i).d ∧ (s'.slot i).tt = (s.slot i).tt
      ∧ ∃ r : SetpointRecord, r.slot = i ∧ r.cycle = f.number ∧ r.position = (s'.slot i).position ∧ r.delta = q + step
        ∧ r.state = .coupled ∧ r.late = false ∧ r.extrapolated = false
        ∧ ((∃ a ∈ (s'.slot i).armed, a.record = r) ∨ (s'.slot i).published = some ⟨r, false⟩))
    ∧ ∀ (s : State) (c : Instr) (i : SlotNo), s.takesStep c → (∀ w ∈ s.se.waiting, w.slot ≠ i) →
      (s.slot i).state ≠ .vacant ∨ (s.slot i).posted ≠ [] →
      let x := (s.slot i).readied (decide (s.tu.state = .lockout))
      (x.state = .coupled → 1 ≤ x.d) →
      ∃ s' e q step, exec c s = .next s' ∧ s'.su.tracker.history.getLast? = some e
        ∧ let y := s'.slot i
          (if x.state = .coupled then
            e.delta * x.n + x.r = q * x.d + y.r ∧ y.r < x.d
              ∧ step = max (-(x.slew : Int)) (min (x.os + x.tt - x.ca) x.slew)
          else q = 0 ∧ step = 0 ∧ y.r = x.r)
          ∧ y.ca = x.ca + step
          ∧ y.posted = [] ∧ y.serial = x.serial ∧ y.port = x.port ∧ y.n = x.n ∧ y.d = x.d ∧ y.os = x.os ∧ y.tmax = x.tmax
          ∧ y.tt = x.tt ∧ y.atLimit = x.atLimit ∧ y.slew = x.slew ∧ y.nudgeLimit = x.nudgeLimit ∧ y.tol = x.tol
          ∧ y.report = x.report ∧ y.late = e.late ∧ y.extrapolated = e.extrapolated
          ∧ ((s.loop i).enable = false → y.corrSum = 0 ∧ y.corrHeld = false)
          ∧ ∃ r : SetpointRecord, r = ⟨i, e.cycle, x.position + BitVec.ofInt 24 (q + step), q + step, x.state, e.late,
              e.extrapolated, decide (y.ca ≠ y.os + y.tt), false⟩
            ∧ (x.state ≠ .released → y.position = r.position)
            ∧ ((∃ a ∈ y.armed, a.record = r) ∨ y.published = some ⟨r, false⟩)

/-- For every command: when for every section |Tt| ≤ Tmax, the posted change list holds at most 8 changes, every posted D
is above 0, a VACANT section's list is empty or begins with a change that names D, and every other section has R below
D, all of this holds after it. (section 3.1; section 3.2; section 3.3.) -/
def Obligations.TrimAndGearLaw : Prop :=
  ∀ (c : Instr) (s s' : State), s.trimLaw = true → s.listsBounded = true → s.gearLaw = true → exec c s = .next s' →
    s'.trimLaw = true ∧ s'.listsBounded = true ∧ s'.gearLaw = true

/-- SETPOINT_PUBLICATION of a slot whose armed record's instant has come: the record is the published record, not picked,
nothing is armed, and SETPOINT is pending at the drive port. When the record's state is neither VACANT nor RELEASED
and the tolerance is above 0, the miss count is 0 after a first record, a picked one or one of state RELEASED, and one
up, at most 255, after any other; above the tolerance DRIVE SILENT is latched for the section, and otherwise the Trip
Unit and every other section are as they were. With nothing armed or its instant still to come the command changes
nothing but hub time. That the command changes nothing else when it is not due is the model's choice
(notes/assumptions/2.md). (section 3.5; section 5.1.) -/
def Obligations.SetpointPublication : Prop :=
  ∀ (s : State) (t : HubTime) (i : SlotNo),
    ∃ s', exec (.setpointPublication t i) s = .next s'
      ∧ (match (s.slot i).armed with
        | none => s.frame s' t []
        | some a =>
          if isDue a.due t = false then s.frame s' t []
          else
            (s'.slot i).armed = none ∧ (s'.slot i).published = some ⟨a.record, false⟩
            ∧ (s'.port (s.slot i).port).pending.getLsbD 0 = true
            ∧ (if a.record.state = .vacant ∨ a.record.state = .released ∨ (s.slot i).tol = 0 then
                (s'.slot i).miss = (s.slot i).miss
              else
                (s'.slot i).miss = (match (s.slot i).published with
                  | none => 0
                  | some old =>
                    if old.picked = true ∨ old.record.state = .released then 0 else min 255 ((s.slot i).miss + 1)))
            ∧ (if (s'.slot i).miss ≤ (s.slot i).tol ∨ a.record.state = .vacant ∨ a.record.state = .released
                  ∨ (s.slot i).tol = 0 then
                s.frame s' t [.se, .cp]
                  ∧ s'.se = { s.se with
                      slots := s.se.slots.set i
                        { s.slot i with armed := none, published := some ⟨a.record, false⟩, miss := (s'.slot i).miss } }
              else ⟨.driveSilent, some i⟩ ∈ s'.tu.causes))

/-- SETPOINT PICKUP from a port that is not DRIVE is answered NOT PERMITTED, and from a DRIVE port with a slot number
beyond 15 BAD ARGUMENT; neither changes anything else. A permitted SETPOINT PICKUP of an existing slot: BAD STATE
while the slot is VACANT or has no published record, NOT YOURS from another port than the section's drive port, and
otherwise DONE with the 12 bytes of the published record, which is picked; nothing else changes. A permitted DRIVE
STATUS with every value in range: BAD STATE while the slot is VACANT, NOT YOURS from another port; otherwise the
report is held and the answer is DONE, FAULT latches DRIVE FAULT and FOLLOWING ERROR latches FOLLOWING ERROR for the
section, and without them nothing else changes. That the port of the present drive port value alone may pick up, from
the application of a change on, is the model's choice (notes/assumptions/40.md). That a DRIVE STATUS is answered after
the FENCEs that its cause discards is its choice too (notes/assumptions/49.md). (section 3.5; section 10.1.) -/
def Obligations.PickupAndDriveStatus : Prop :=
  ∀ (s : State) (t : HubTime) (p : PortNo) (g : Tag) (i : SlotNo) (ready fault following : Bool) (a : Angle)
    (n : Nat) (role : Role),
    (s.takes p g [role] → role ≠ .drive →
      ∃ s', exec (.setpointPickup t p g (some n)) s = .next s' ∧ s.frame s' t [.cp]
        ∧ s'.cp = s.cp.answered p g .notPermitted [])
    ∧ (s.takes p g [.drive] → 16 ≤ n →
      ∃ s', exec (.setpointPickup t p g (some n)) s = .next s' ∧ s.frame s' t [.cp]
        ∧ s'.cp = s.cp.answered p g .badArgument [])
    ∧ (s.takes p g [.drive] →
    (∃ s', exec (.setpointPickup t p g (some i.val)) s = .next s' ∧ s.frame s' t [.se, .cp]
      ∧ (match (s.slot i).published with
        | some r =>
          if (s.slot i).state = .vacant then s'.se = s.se ∧ s'.cp = s.cp.answered p g .badState []
          else if p ≠ (s.slot i).port then s'.se = s.se ∧ s'.cp = s.cp.answered p g .notYours []
          else
            s'.se = { s.se with
                slots := s.se.slots.set i
                  { s.slot i with published := some { r with picked := true } } }
              ∧ s'.cp = s.cp.answered p g .done r.record.bytes
        | none => s'.se = s.se ∧ s'.cp = s.cp.answered p g .badState []))
    ∧ ∃ s', exec (.driveStatus t p g (some i.val) (some ready) (some fault) (some following) (some a.toNat)) s = .next s'
      ∧ (if (s.slot i).state = .vacant then s.frame s' t [.cp] ∧ s'.cp = s.cp.answered p g .badState []
        else if p ≠ (s.slot i).port then s.frame s' t [.cp] ∧ s'.cp = s.cp.answered p g .notYours []
        else
          (s'.slot i).report = some ⟨ready, fault, following, a⟩
            ∧ (s'.port p).responses.getLast? = some ⟨g, .done, []⟩
            ∧ (fault = true → ⟨.driveFault, some i⟩ ∈ s'.tu.causes)
            ∧ (following = true → ⟨.followingError, some i⟩ ∈ s'.tu.causes)
            ∧ (fault = false → following = false → s.frame s' t [.se, .cp]
              ∧ s'.se = { s.se with
                  slots := s.se.slots.set i
                    { s.slot i with report := some ⟨ready, false, false, a⟩ } }
              ∧ s'.cp = s.cp.answered p g .done [])))

/-- MARK_EDGE of the selected kind, with no pending capture and no hold-off running, is captured with hub time as its mark
time and starts the hold-off when it is not 0. Where the tracker answers PENDING the capture is pending and nothing
but the input changes; where it answers UNKNOWN the capture is dropped, counted up to 65,535 and UNKNOWN; where it
answers an angle the capture has that angle, none is pending, and every active loop in the input's map whose source
the input is has judged the mark, its section with it, and no other loop or section changes. At a cycle step, which
CYCLE_FRAME, CYCLE_ORIGINATION and DEADLINE_EXPIRY take, a pending capture is asked about again, with the same three
answers: PENDING leaves it, UNKNOWN drops it, and a mark angle goes to the same loops, active by the tracker's V of
that step; where no change is posted and no request waits for the section and the new entry's P has not come, each of
them has judged the mark, its correction standing in the section while that is COUPLED, and every other loop of the
input is as it was; and a CLEAN local view of a loop whose content the mark changes is DIRTY after the step, also
where P has come, no section has a tolerance or a posted change, and a pass at once changes the loop back, which the
model counts as an event of its own (notes/assumptions/55.md, its deduction). Any other edge changes nothing but hub
time. HOLD_OFF_EXPIRY of a hold-off whose time has come ends it, and changes nothing else. That HOLD_OFF_EXPIRY with
no hold-off running, or before its time, changes nothing but hub time is the model's choice (notes/assumptions/2.md).
That a mark is judged in the step, before the frame's trip word acts, is its deduction (notes/assumptions/8.md).
(section 4.1; section 2.5; section 4.3; section 9.2.) -/
def Obligations.MarkEdgeAndHoldOff : Prop :=
  ∀ (s : State) (t : HubTime) (i : Fin 8) (edge : Edge),
    (∃ s', exec (.markEdge t i edge) s = .next s'
      ∧ (if (s.ru.inputs.get i).edge = edge ∧ (s.ru.inputs.get i).pending = none
            ∧ (s.ru.inputs.get i).holdOffUntil = none then
          (s'.ru.inputs.get i).holdOffUntil =
              (if (s.ru.inputs.get i).holdOff = 0 then none else some (t + BitVec.ofNat 32 (s.ru.inputs.get i).holdOff))
            ∧ (s'.ru.inputs.get i).edge = edge ∧ (s'.ru.inputs.get i).holdOff = (s.ru.inputs.get i).holdOff
            ∧ (s'.ru.inputs.get i).map = (s.ru.inputs.get i).map
            ∧ (match s.su.tracker.angleAt t with
              | .pending =>
                s.frame s' t [.ru] ∧ s'.ru = { s.ru with inputs := s'.ru.inputs }
                  ∧ (∀ j, j ≠ i → s'.ru.inputs.get j = s.ru.inputs.get j)
                  ∧ (s'.ru.inputs.get i).pending = some t
                  ∧ (s'.ru.inputs.get i).lastCapture = some ⟨t, .unresolved⟩
                  ∧ (s'.ru.inputs.get i).dropped = (s.ru.inputs.get i).dropped
              | .unknown =>
                s.frame s' t [.ru] ∧ s'.ru = { s.ru with inputs := s'.ru.inputs }
                  ∧ (∀ j, j ≠ i → s'.ru.inputs.get j = s.ru.inputs.get j)
                  ∧ (s'.ru.inputs.get i).pending = none ∧ (s'.ru.inputs.get i).lastCapture = some ⟨t, .unknown⟩
                  ∧ (s'.ru.inputs.get i).dropped = satInc (s.ru.inputs.get i).dropped
              | .angle a =>
                (s'.ru.inputs.get i).pending = none ∧ (s'.ru.inputs.get i).lastCapture = some ⟨t, .angle a⟩
                  ∧ (s'.ru.inputs.get i).dropped = (s.ru.inputs.get i).dropped
                  ∧ ∀ j : SlotNo, if (s.loop j).source = .sensor i ∧ (s.ru.inputs.get i).map.getLsbD j.val = true
                        ∧ s.loopActive j = true then
                      s'.loop j = (s.judgeMark j a).loop j ∧ s'.slot j = (s.judgeMark j a).slot j
                    else s'.loop j = s.loop j ∧ s'.slot j = s.slot j)
        else s.frame s' t []))
    ∧ (∀ (cmd : Instr), s.takesStep cmd → ∃ s' e, exec cmd s = .next s' ∧ s'.su.tracker.history.getLast? = some e
      ∧ (let m := s.ru.inputs.get i
        s'.ru.inputs.get i = (match m.pending with
          | none => m
          | some x => match s'.su.tracker.angleAt x with
            | .pending => m
            | .unknown => { m with pending := none, lastCapture := some ⟨x, .unknown⟩, dropped := satInc m.dropped }
            | .angle a => { m with pending := none, lastCapture := some ⟨x, .angle a⟩ }))
      ∧ ∀ j : SlotNo, (∀ w ∈ s.se.waiting, w.slot ≠ j) → (s.slot j).posted = [] →
        let b := ({ s with su := s'.su } : State).onSlot j (fun x => { x with corrSum := 0, corrHeld := false })
        ((isDue e.p s'.hubTime = false ∨ ∀ n : SlotNo, (s.slot n).tol = 0 ∧ (s.slot n).posted = []) →
          ∀ a x k v, (s.loop j).source = .sensor i → (s.ru.inputs.get i).map.getLsbD j.val = true → b.loopActive j = true →
          (s.ru.inputs.get i).pending = some x → s'.su.tracker.angleAt x = .angle a →
          items ((b.judgeMark j a).loop j).values ≠ items (s.loop j).values → s.vu.views.get k = some v →
          v.target = none → v.kind = .register j → v.state = .clean →
          ∃ v', s'.vu.views.get k = some v' ∧ v'.state = .dirty)
        ∧ (isDue e.p s'.hubTime = false →
        (∀ a x, (s.loop j).source = .sensor i → (s.ru.inputs.get i).map.getLsbD j.val = true → b.loopActive j = true →
          (s.ru.inputs.get i).pending = some x → s'.su.tracker.angleAt x = .angle a →
          s'.loop j = (b.judgeMark j a).loop j
            ∧ ((s'.slot j).state = .coupled → (s'.slot j).corrSum = ((b.judgeMark j a).slot j).corrSum
              ∧ (s'.slot j).corrHeld = ((b.judgeMark j a).slot j).corrHeld))
        ∧ ((s.loop j).source = .sensor i → ((s.ru.inputs.get i).map.getLsbD j.val = false ∨ b.loopActive j = false
            ∨ ∀ x ∈ (s.ru.inputs.get i).pending, ∀ a, s'.su.tracker.angleAt x ≠ .angle a) → s'.loop j = s.loop j)))
    ∧ ∃ s', exec (.holdOffExpiry t i) s = .next s'
      ∧ (match (s.ru.inputs.get i).holdOffUntil with
        | none => s.frame s' t []
        | some h =>
          if isDue h t = false then s.frame s' t []
          else s.frame s' t [.ru] ∧ s'.ru = { s.ru with
            inputs := s.ru.inputs.set i { s.ru.inputs.get i with holdOffUntil := none } })

/-- For the mark error E, the signed difference of the mark and Mexp: beyond the window the mark is a stray, counted up to
65,535 with its error, and nothing else changes. Within it Es is E·N/D rounded to nearest; beyond the deadband C is
Es·gain/256 rounded to nearest, and is delivered into the section's correction sum, else C is 0 and none is delivered;
the loop holds E, Es and C, has no misses, has seen a mark and is LOCKED. No other loop, no other section and no other
field of the section changes, and notice REGISTER is given exactly when the loop was not LOCKED before. (section 4.3;
section 3.2.) -/
def Obligations.JudgedMark : Prop :=
  ∀ (s : State) (i : SlotNo) (mark : Angle) (e es c : Int), e = (mark - (s.loop i).mexp).toInt →
    es = roundDiv (e * (s.slot i).n) (s.slot i).d →
    c = (if (s.loop i).deadband < es.natAbs then roundDiv (es * (s.loop i).gain) 256 else 0) →
    (if (s.loop i).window < e.natAbs then
      s.judgeMark i mark = { s with ru := { s.ru with
        loops := s.ru.loops.set i
          { s.loop i with strays := satInc (s.loop i).strays, lastStrayE := some e } } }
    else
      s.judgeMark i mark = { s with
        ru := { s.ru with
          loops := s.ru.loops.set i
            { s.loop i with
            lastE := some e, lastEs := some es, lastC := some c, misses := 0, markSeen := true, state := .locked } }
        se := (s.judgeMark i mark).se
        cp := (s.judgeMark i mark).cp }
      ∧ (s.judgeMark i mark).se = { s.se with
          slots := s.se.slots.set i
            { s.slot i with
              corrSum := (s.slot i).corrSum + c
              corrHeld := (s.slot i).corrHeld || decide ((s.loop i).deadband < es.natAbs) } }
      ∧ (s.judgeMark i mark).cp = (if (s.loop i).state = .locked then s.cp else (s.notify .register).cp))

/-- At a cycle step, which CYCLE_FRAME, CYCLE_ORIGINATION and DEADLINE_EXPIRY take, the compare is armed at the new
entry's P with its angle, in place of one still armed; when that P has come it acts at once, and the angle is the
judged one. PASS_COMPARE when the armed compare has come, with an angle already judged: a loop is passed when it is
enabled and its pass point, Mexp plus twice its window, lies beyond the judged angle and not beyond the compare's. A
passed SENSOR loop that is active and has seen no mark has one miss more, at most 15, and from SEEKING or LOCKED
enters LOST when its misses reach its limit; a passed loop's mark seen is clear; every other loop is as it was. A loop
that enters LOST has REGISTER LOST latched for its section. The judged angle is then the compare's and no compare is
armed. With none armed, or before its time, the command changes nothing but hub time. That the loops passed in one
compare are judged before any of their causes is raised is the model's deduction (notes/assumptions/13.md), and that
the command out of time changes nothing its choice (notes/assumptions/2.md). (section 4.4; section 5.1; section 2.4.) -/
def Obligations.PassCompare : Prop :=
  ∀ (s : State) (t : HubTime),
    (∀ (cmd : Instr), s.takesStep cmd → ∃ s' e, exec cmd s = .next s' ∧ s'.su.tracker.history.getLast? = some e
      ∧ (if isDue e.p s'.hubTime then s'.ru.judged = some e.theta ∧ s'.ru.passCompare = none
        else s'.ru.judged = s.ru.judged ∧ s'.ru.passCompare = some ⟨e.p, e.theta⟩))
    ∧ ∃ s', exec (.passCompare t) s = .next s'
      ∧ (match s.ru.passCompare with
        | none => s.frame s' t []
        | some k =>
          if isDue k.due t = false then s.frame s' t []
          else
            s'.ru.judged = some k.theta ∧ s'.ru.passCompare = none ∧ s'.ru.inputs = s.ru.inputs
            ∧ ∀ i : SlotNo,
              (if ∃ j ∈ s.ru.judged, (s.loop i).enable = true
                  ∧ 1 ≤ ((s.loop i).mexp + BitVec.ofNat 24 (2 * (s.loop i).window) - j).toInt
                  ∧ ((s.loop i).mexp + BitVec.ofNat 24 (2 * (s.loop i).window) - j).toInt ≤ (k.theta - j).toInt then
                if (∃ n, (s.loop i).source = .sensor n) ∧ s.loopActive i = true ∧ (s.loop i).markSeen = false then
                  s'.loop i = { s.loop i with
                      misses := min 15 ((s.loop i).misses + 1)
                      markSeen := false
                      state := if (s.loop i).missLimit ≤ min 15 ((s.loop i).misses + 1)
                          ∧ ((s.loop i).state = .seeking ∨ (s.loop i).state = .locked) then .lost else (s.loop i).state }
                    ∧ ((s.loop i).missLimit ≤ min 15 ((s.loop i).misses + 1) →
                        ((s.loop i).state = .seeking ∨ (s.loop i).state = .locked) →
                        ⟨.registerLost, some i⟩ ∈ s'.tu.causes)
                else s'.loop i = { s.loop i with markSeen := false }
              else s'.loop i = s.loop i))

/-- A permitted REGISTER SET in its input form, of an existing input, with some item and a known edge: the named items are
stored, the hold-off clamped to 65,535, and nothing else changes. In its loop form, of an existing loop, with some
item and source, direction and Mexp in range: the named items are stored, each clamped to its range. Enabling a
disabled loop, or naming a new source, Mexp or window of an enabled one that it does not disable, makes it SEEKING
with no misses and no mark seen; disabling an enabled one makes it OFF with the same; otherwise the three stay. The
answer is CLAMPED when a value was clamped and DONE otherwise, and nothing else changes, but that a change of state
sets notice REGISTER at the ports it is routed to. (section 4.1; section 4.2; section 10.3.) -/
def Obligations.RegisterSets : Prop :=
  ∀ (s : State) (t : HubTime) (p : PortNo) (g : Tag) (i : Fin 8) (a : InputItems) (j : SlotNo) (b : LoopItems),
    s.takes p g [.desk] →
    (a ≠ {} → (∀ e ∈ a.edge, e ≤ 1) →
      ∃ s', exec (.registerSetInputForm t p g (some i.val) a) s = .next s' ∧ s.frame s' t [.ru, .cp]
        ∧ s'.ru = { s.ru with inputs := s.ru.inputs.set i { s.ru.inputs.get i with
            edge := match a.edge with
              | some 0 => .rising
              | some _ => .falling
              | none => (s.ru.inputs.get i).edge
            holdOff := (a.holdOff.map (fun v => min v 65535)).getD (s.ru.inputs.get i).holdOff
            map := a.map.getD (s.ru.inputs.get i).map } }
        ∧ s'.cp = s.cp.answered p g (if ∀ v ∈ a.holdOff, v ≤ 65535 then .done else .clamped) [])
    ∧ (b ≠ {} → (∀ x ∈ b.source, (x.code = 0 ∧ x.index < 8) ∨ (x.code = 1 ∧ x.index < 4)) → (∀ d ∈ b.direction, d ≤ 1) →
      (∀ m ∈ b.mexp, m < 16777216) →
      ∃ s', exec (.registerSetLoopForm t p g (some j.val) b) s = .next s' ∧ s.frame s' t [.ru, .cp]
        ∧ s'.ru = { s.ru with loops := s.ru.loops.set j (s'.loop j) }
        ∧ (s'.loop j).mexp = (b.mexp.map (BitVec.ofNat 24)).getD (s.loop j).mexp
        ∧ (s'.loop j).window = (b.window.map (fun v => min v 4194304)).getD (s.loop j).window
        ∧ (s'.loop j).deadband = (b.deadband.map (fun v => min v 65535)).getD (s.loop j).deadband
        ∧ (s'.loop j).gain = (b.gain.map (fun v => min v 255)).getD (s.loop j).gain
        ∧ (s'.loop j).missLimit = (b.missLimit.map (fun v => max 1 (min v 15))).getD (s.loop j).missLimit
        ∧ (s'.loop j).minSpeed = (b.minSpeed.map (fun v => min v 2147479552)).getD (s.loop j).minSpeed
        ∧ (s'.loop j).search.channel = (b.channel.map (fun v => min v 3)).getD (s.loop j).search.channel
        ∧ (s'.loop j).search.startColumn = (b.startColumn.map (fun v => min v 4095)).getD (s.loop j).search.startColumn
        ∧ (s'.loop j).search.threshold = (b.threshold.map (fun v => min v 255)).getD (s.loop j).search.threshold
        ∧ (s'.loop j).search.runLength = (b.runLength.map (fun v => max 1 (min v 16))).getD (s.loop j).search.runLength
        ∧ (s'.loop j).search.direction = (match b.direction with
            | some 0 => .right
            | some _ => .left
            | none => (s.loop j).search.direction)
        ∧ (match b.source with
          | some x => (s'.loop j).source = (if x.code = 0 then .sensor (Fin.ofNat 8 x.index) else .image (Fin.ofNat 4 x.index))
          | none => (s'.loop j).source = (s.loop j).source)
        ∧ (s'.loop j).enable = b.enable.getD (s.loop j).enable
        ∧ ((s'.loop j).strays, (s'.loop j).lastE, (s'.loop j).lastEs, (s'.loop j).lastC, (s'.loop j).lastStrayE)
            = ((s.loop j).strays, (s.loop j).lastE, (s.loop j).lastEs, (s.loop j).lastC, (s.loop j).lastStrayE)
        ∧ (if (s.loop j).enable = true ∧ (s'.loop j).enable = false then
            (s'.loop j).state = .off ∧ (s'.loop j).misses = 0 ∧ (s'.loop j).markSeen = false
          else if ((s.loop j).enable = false ∧ (s'.loop j).enable = true) ∨ ((s.loop j).enable = true
              ∧ ((s'.loop j).source ≠ (s.loop j).source ∨ (s'.loop j).mexp ≠ (s.loop j).mexp
                ∨ (s'.loop j).window ≠ (s.loop j).window)) then
            (s'.loop j).state = .seeking ∧ (s'.loop j).misses = 0 ∧ (s'.loop j).markSeen = false
          else
            (s'.loop j).state = (s.loop j).state ∧ (s'.loop j).misses = (s.loop j).misses
              ∧ (s'.loop j).markSeen = (s.loop j).markSeen)
        ∧ s'.cp = (if (s'.loop j).state = (s.loop j).state then s.cp
            else s.cp.notified s.cp.routes.register 32#11).answered p g
            (if (∀ v ∈ b.window, v ≤ 4194304) ∧ (∀ v ∈ b.deadband, v ≤ 65535) ∧ (∀ v ∈ b.gain, v ≤ 255)
              ∧ (∀ v ∈ b.missLimit, 1 ≤ v ∧ v ≤ 15) ∧ (∀ v ∈ b.minSpeed, v ≤ 2147479552) ∧ (∀ v ∈ b.channel, v ≤ 3)
              ∧ (∀ v ∈ b.startColumn, v ≤ 4095) ∧ (∀ v ∈ b.threshold, v ≤ 255)
              ∧ (∀ v ∈ b.runLength, 1 ≤ v ∧ v ≤ 16) then .done else .clamped) [])

/-- A fall of TRIP IN, a rise of WEB BRK, or a permitted STOP PRESS (answered DONE), when its cause is not latched. In
NORMAL or RELEASING, when the matrix gives it SYNC or above: the cause is latched, the state is CAPTURE, and a record
numbered one above the count is opened, current and CAPTURING, with it as first cause, the effective class at entry,
the tracker's cycle number, angle and V and hub time, the carried mask with the bit of the own address where the own
class is SYNC or above, a snapshot of every section not VACANT, nothing secondary and nothing frozen; the oldest of
four records goes. With no other cause latched and nothing carried, under SYNC no section changes state, under QUICK
the COUPLED and IDLE are HELD, under COAST all not VACANT are RELEASED. At every entry the sections have taken the
effective class's order: one that it changes has an empty posted list and no correction sum, and is else as before;
any other is untouched; a waiting FENCE that noted a changed one is answered DISCARDED, the others wait on, as do
waiting requests. A freeze walk for the record is in progress, its candidates the strips with a KNOWN or PENDING
stamp, not RECEIVING, exposed 0 to the span less one cycles before the record's, least first, of equals the latest
created first. Shaft, loops and mover are as they were. Under NOTIFY in NORMAL or RELEASING it is latched and no
record, section or state changes. In CAPTURE, STOPPING, STOPPED and LOCKOUT it is latched, the trip state stays, and
the pair joins the secondary list of the current record, within its limits; when the effective class has risen, it is
the record's highest class reached, unless a higher one is (the model's choice, notes/assumptions/66.md), and the
sections have taken that class's order so, and else the Section Engine is untouched. Class NOTIFY sets notice NOTIFY
at the ports of its route. That STOP PRESS is answered after the FENCEs that it discards is the model's choice
(notes/assumptions/49.md). (section 5.1; section 5.2; section 5.3; section 5.5; section 6.5.) -/
def Obligations.TripEntry : Prop :=
  ∀ (s : State) (t : HubTime) (p : PortNo) (g : Tag),
    let calm := s.tu.state = .normal ∨ s.tu.state = .releasing
    ∀ c ∈ [(Instr.tripIn t, Cause.tripIn), (Instr.webBrk t, Cause.webBreak), (Instr.stopPress t p g, Cause.operatorStop)],
    (c.2 = .tripIn → s.tu.tripInLow = false) → (c.2 = .webBreak → s.tu.webBrk = false) →
    (c.2 = .operatorStop → s.takes p g [.desk, .panel]) → ⟨c.2, none⟩ ∉ s.tu.causes →
    (calm → 2 ≤ (s.tu.matrix.get c.2).rank → ∃ s' r, exec c.1 s = .next s' ∧ s'.su = s.su ∧ s'.ru = s.ru ∧ s'.im = s.im
      ∧ ⟨c.2, none⟩ ∈ s'.tu.causes ∧ (∀ d ∈ s.tu.causes, d ∈ s'.tu.causes) ∧ s'.tu.state = .capture
      ∧ s'.tu.recordCount = s.tu.recordCount + 1 ∧ s'.tu.current = some (s.tu.recordCount + 1)
      ∧ s'.tu.records = (if 4 ≤ s.tu.records.length then s.tu.records.tail else s.tu.records) ++ [r]
      ∧ r.number = s.tu.recordCount + 1 ∧ r.first = ⟨c.2, none⟩ ∧ r.entryClass = s'.effectiveClass
      ∧ r.highest = s'.effectiveClass ∧ r.cycle = s.su.tracker.lastCycle ∧ r.time = t ∧ r.angle = s.su.tracker.angle
      ∧ r.v = s.su.tracker.lastV ∧ r.secondary = [] ∧ r.frozen = [] ∧ r.capturing = true
      ∧ r.snapshots = ((List.finRange 16).filter (fun i => decide ((s.slot i).state ≠ .vacant))).map (fun i =>
          ⟨i, (s.slot i).state, (s.slot i).position, (s.slot i).ca, (s.slot i).os + (s.slot i).tt⟩)
      ∧ r.mask = s.maskAtEntry s'
      ∧ (∃ w ∈ s'.is.walk, w.record = r.number ∧ w.frozen = [] ∧ s.walkOrder r.cycle w.candidates)
      ∧ (s.tu.causes = [] → s.tu.carried = .noClass → ∀ i,
          (s'.slot i).state = (match s.tu.matrix.get c.2, (s.slot i).state with
            | .quick, .coupled | .quick, .idle => .held
            | .coast, .vacant => .vacant
            | .coast, _ => .released
            | _, st => st)
          ∧ (s'.slot i).position = (s.slot i).position)
      ∧ s.orderTaken s' s'.effectiveClass
      ∧ (c.2 = .operatorStop → (s'.port p).responses.getLast? = some ⟨g, .done, []⟩))
    ∧ ((calm → (s.tu.matrix.get c.2).rank < 2) → ∃ s', exec c.1 s = .next s' ∧ s'.su = s.su ∧ s'.ru = s.ru ∧ s'.im = s.im
      ∧ s'.is = s.is ∧ ⟨c.2, none⟩ ∈ s'.tu.causes ∧ (∀ d ∈ s.tu.causes, d ∈ s'.tu.causes) ∧ s'.tu.state = s.tu.state
      ∧ s'.tu.recordCount = s.tu.recordCount ∧ s'.tu.current = s.tu.current
      ∧ (s.tu.matrix.get c.2 = .notify →
          ∀ q : PortNo, s.cp.routes.notify.getLsbD q = true → (s'.port q).pending.getLsbD 4 = true)
      ∧ (if calm then s'.tu.records = s.tu.records ∧ s'.se = s.se
        else
          let rise := s.effectiveClass.rank < s'.effectiveClass.rank
          s.currentBecomes s' (fun r => r.noted ⟨c.2, none⟩ (if rise then s'.effectiveClass else .noClass))
            ∧ (if rise then s.orderTaken s' s'.effectiveClass else s'.se = s.se))
      ∧ (c.2 = .operatorStop → (s'.port p).responses.getLast? = some ⟨g, .done, []⟩))

/-- A line that returns to its inactive level is no longer active, and no cause is cleared; TRIP IN at a line already low
and WEB BRK at a line already asserted change nothing but hub time; a permitted STOP PRESS whose cause is latched is
answered DONE and changes nothing else. A permitted MATRIX SET of 1 to 9 distinct causes in range is answered NOT AT
REST and stores nothing unless the tracker's flag AT REST is set; otherwise every named cause has its class, TRIP IN
and RING LOST at least QUICK, every other cause keeps its class, and the answer is CLAMPED when one was raised and
DONE otherwise. When no latched cause is then SYNC or above in NORMAL or RELEASING, or the effective class has not
risen in another trip state, nothing else changes. When a latched cause of SYNC or above stands in NORMAL or
RELEASING, the state is CAPTURE with a new record, whose first cause is the first such cause of the set, the lowest by
cause number and section (the set is in that order, statement O37), and whose secondary list holds the next ones, at
most 8; when the effective class has risen in another trip state, that state stays and the class is the current
record's highest, unless a higher one is (the model's choice, notes/assumptions/66.md). In both cases every section
has taken that class's order and the cause set is as it was. With no FENCE waiting the only other change at the ports
is notice TRIP at the entry to CAPTURE, which a latched cause of SYNC or above makes in NORMAL and RELEASING. That a
line event at a line already at its level changes nothing is the model's choice (notes/assumptions/2.md). That MATRIX
SET is answered after the FENCEs that it discards is its choice too (notes/assumptions/49.md). (section 5.1; section
5.3; section 10.3.) -/
def Obligations.LinesAndMatrix : Prop :=
  ∀ (s : State) (t : HubTime) (p : PortNo) (g : Tag) (pairs : List (Nat × Nat)),
    (∃ s', exec (.lineReturnsToInactive t .tripIn) s = .next s' ∧ s.frame s' t [.tu]
      ∧ s'.tu = { s.tu with tripInLow := false })
    ∧ (∃ s', exec (.lineReturnsToInactive t .webBrk) s = .next s' ∧ s.frame s' t [.tu]
      ∧ s'.tu = { s.tu with webBrk := false })
    ∧ (s.tu.tripInLow = true → ∃ s', exec (.tripIn t) s = .next s' ∧ s.frame s' t [])
    ∧ (s.tu.webBrk = true → ∃ s', exec (.webBrk t) s = .next s' ∧ s.frame s' t [])
    ∧ (s.takes p g [.desk, .panel] → ⟨.operatorStop, none⟩ ∈ s.tu.causes →
      ∃ s', exec (.stopPress t p g) s = .next s' ∧ s.frame s' t [.cp] ∧ s'.cp = s.cp.answered p g .done [])
    ∧ (s.takes p g [.desk] → 1 ≤ pairs.length → pairs.length ≤ 9 → (∀ q ∈ pairs, q.1 ≤ 8 ∧ q.2 ≤ 3) →
      (pairs.map (fun q => q.1)).Nodup →
      ∃ s', exec (.matrixSet t p g pairs) s = .next s'
        ∧ (if s.su.tracker.flags.atRest = false then
            s.frame s' t [.cp] ∧ s'.cp = s.cp.answered p g .notAtRest []
          else
            (∀ c ∈ [Cause.tripIn, .webBreak, .ringLost, .driveFault, .driveSilent, .registerLost, .operatorStop,
                .publicationLate, .followingError],
              s'.tu.matrix.get c = (match pairs.find? (fun q => q.1 == c.number) with
                | some q =>
                  if (c = .tripIn ∨ c = .ringLost) ∧ q.2 < 2 then .quick
                  else if q.2 = 0 then .notify else if q.2 = 1 then .sync else if q.2 = 2 then .quick else .coast
                | none => s.tu.matrix.get c))
            ∧ let st := if ∃ q ∈ pairs, (q.1 = 0 ∨ q.1 = 2) ∧ q.2 < 2 then Status.clamped else .done
              let stop := ∃ c ∈ s.tu.causes, 2 ≤ (s'.tu.matrix.get c.cause).rank
              let calm := if s.tu.state = .normal ∨ s.tu.state = .releasing then ¬ stop
                else ({ s with tu := { s.tu with matrix := s'.tu.matrix } } : State).effectiveClass.rank ≤ s.effectiveClass.rank
              (s'.port p).responses.getLast? = some ⟨g, st, []⟩
              ∧ (calm → s.frame s' t [.tu, .cp] ∧ s'.tu = { s.tu with matrix := s'.tu.matrix }
                ∧ s'.cp = s.cp.answered p g st [])
              ∧ (stop → s.tu.state = .normal ∨ s.tu.state = .releasing → s.causesLaw = true →
                s.tripOpened s' (((s'.stopping).head?).getD ⟨.remote, none⟩) (fun r =>
                  r.secondary = (s'.stopping.drop 1).take 8 ∧ r.entryClass = s'.effectiveClass ∧ r.highest = s'.effectiveClass)
                ∧ s'.tu.causes = s.tu.causes
                ∧ ∀ i, (s'.slot i).state = SectionState.under s'.effectiveClass (s.slot i).state)
              ∧ (¬ calm → ¬ (s.tu.state = .normal ∨ s.tu.state = .releasing) →
                s'.tu.state = s.tu.state ∧ s'.tu.causes = s.tu.causes
                ∧ s.currentBecomes s' (fun r => { r with highest := r.highest.max s'.effectiveClass })
                ∧ ∀ i, (s'.slot i).state = SectionState.under s'.effectiveClass (s.slot i).state)
              ∧ (s.se.fences = [] →
                s'.cp = (if (s.tu.state = .normal ∨ s.tu.state = .releasing) ∧ stop then
                  s.cp.notified s.cp.routes.trip 8#11 else s.cp).answered p g st [])))

/-- A permitted TRIP RESET is refused BAD STATE in CAPTURE and STOPPING and LOCKED OUT in LOCKOUT, and changes nothing
else there. In NORMAL and RELEASING it clears the causes whose condition is gone, and is answered DONE when none is
left and STILL ACTIVE with the rest, cause number and section of each, otherwise (in the order of the cause set, the
model's choice, notes/assumptions/17.md). In STOPPED it clears them too; while one of SYNC or above is left the hub
stays STOPPED and the answer is STILL ACTIVE, else it is RELEASING with the highest class of the current record as
release level, the answer is DONE, and notice TRIP is set. Taken at a RUNNING or LOST master in NORMAL, STOPPED or
RELEASING it sets RESET REQUEST. A permitted RECORD RELEASE of a number that no record has is answered GONE, of a
CAPTURING one BUSY, with nothing else changed; otherwise DONE, with the record gone from the store and the others and
every strip but its freeze marks as they were. Where two kept records have the number, the older one is meant, which
is the model's choice (notes/assumptions/44.md). The condition of a cause is gone as follows: TRIP IN when the line is
not low, WEB BREAK when it is not asserted, RING LOST when the ring is RUNNING, DRIVE FAULT when the section's last
drive report does not show FAULT, REGISTER LOST when its loop is not LOST, and DRIVE SILENT, OPERATOR STOP,
PUBLICATION LATE and FOLLOWING ERROR always. (section 5.3; section 5.4; section 5.5; section 6.5.) -/
def Obligations.TripResetAndRecordRelease : Prop :=
  ∀ (s : State) (t : HubTime) (p : PortNo) (g : Tag) (n : BitVec 16), s.takes p g [.desk] →
    let rest := fun l : List CausePair => valuesBytes [vlist (l.map (fun c =>
      valuesBytes [val 1 c.cause.number, c.slot.map (fun i => beBytes 1 i.val)]))]
    (∀ (i : SlotNo) (o : Option SlotNo),
      s.conditionGone ⟨.tripIn, o⟩ = !s.tu.tripInLow ∧ s.conditionGone ⟨.webBreak, o⟩ = !s.tu.webBrk
      ∧ s.conditionGone ⟨.ringLost, o⟩ = decide (s.rc.ringState = .running)
      ∧ s.conditionGone ⟨.driveFault, some i⟩ = (match (s.slot i).report with
        | some r => !r.fault
        | none => false)
      ∧ s.conditionGone ⟨.registerLost, some i⟩ = decide ((s.loop i).state ≠ .lost)
      ∧ ∀ c ∈ [Cause.driveSilent, .operatorStop, .publicationLate, .followingError], s.conditionGone ⟨c, o⟩ = true)
    ∧
    (∃ s', exec (.tripReset t p g) s = .next s'
      ∧ (match s.tu.state with
        | .capture | .stopping => s.frame s' t [.cp] ∧ s'.cp = s.cp.answered p g .badState []
        | .lockout => s.frame s' t [.cp] ∧ s'.cp = s.cp.answered p g .lockedOut []
        | .normal | .releasing =>
          s.frame s' t [.tu, .cp]
            ∧ s'.tu = { s.tu with
                causes := s.tu.causes.filter (fun c => !s.conditionGone c)
                resetRequest := s.tu.resetRequest
                  || (s.isMaster && (decide (s.rc.ringState = .running) || decide (s.rc.ringState = .lost))) }
            ∧ s'.cp = (if s'.tu.causes = [] then s.cp.answered p g .done []
              else s.cp.answered p g .stillActive (rest s'.tu.causes))
        | .stopped =>
          s'.tu.causes = s.tu.causes.filter (fun c => !s.conditionGone c)
            ∧ s'.tu.resetRequest = (s.tu.resetRequest
                || (s.isMaster && (decide (s.rc.ringState = .running) || decide (s.rc.ringState = .lost))))
            ∧ s'.tu.records = s.tu.records ∧ s'.se = s.se ∧ s'.is = s.is ∧ s'.su = s.su
            ∧ (if ∃ c ∈ s'.tu.causes, 2 ≤ (s.tu.matrix.get c.cause).rank then
                s'.tu.state = .stopped ∧ s'.cp = s.cp.answered p g .stillActive (rest s'.tu.causes)
              else
                s'.tu.state = .releasing ∧ s'.tu.current = none
                  ∧ s'.cp = (s.cp.notified s.cp.routes.trip 8#11).answered p g .done []
                  ∧ ∀ r ∈ s.tu.records.reverse.find? (fun r => decide (s.tu.current = some r.number)),
                      s'.tu.releaseLevel = some r.highest)))
    ∧ ∃ s', exec (.recordRelease t p g (some n)) s = .next s'
      ∧ (match s.tu.records.find? (fun r => r.number == n) with
        | none => s.frame s' t [.cp] ∧ s'.cp = s.cp.answered p g .gone []
        | some r =>
          if r.capturing then s.frame s' t [.cp] ∧ s'.cp = s.cp.answered p g .busy []
          else
            s.frame s' t [.tu, .is, .cp] ∧ s'.cp = s.cp.answered p g .done []
              ∧ s'.tu = { s.tu with
                  records := s.tu.records.erase r
                  current := if s.tu.current = some n ∧ ∀ x ∈ s.tu.records.erase r, x.number ≠ n then none else s.tu.current }
              ∧ s'.is = { s.is with strips := s.is.strips.map (fun x =>
                  if r.frozen.contains x.id then { x with freezeSet := x.freezeSet.erase n } else x) })

/-- FREEZE_WALK_EXAMINATION with a candidate left and fewer than 16 strips frozen: the candidate leaves the list; when it
has not left the directory since the walk began, is not RECEIVING, and is frozen already or fits with its tiles within
256 frozen tiles, it is frozen for the record and joins the walk's list; nothing else changes, and frozen tiles of at
most 256 are at most 256 after it. FREEZE_WALK_COMPLETION with no candidate left or 16 strips frozen: no walk is in
progress, and the newest record with the walk's number has the walk's list and is no longer CAPTURING, the others
staying as they were; in CAPTURE the state becomes STOPPED when the tracker's flag AT REST is set or the ring is LOST,
else STOPPING, and in every other trip state it stays. Otherwise either command changes nothing but hub time, which is
the model's choice (notes/assumptions/2.md), as is that neither has a guard on time (notes/assumptions/19.md).
(section 5.3; section 6.5.) -/
def Obligations.FreezeWalk : Prop :=
  ∀ (s : State) (t : HubTime),
    (∃ s', exec (.freezeWalkExamination t) s = .next s'
      ∧ ((s.is.strips.map (fun x => x.id)).Nodup → s.freezeLaw = true → s'.freezeLaw = true)
      ∧ (match s.is.walk with
        | some ⟨rec, c :: rest, frozen⟩ =>
          if frozen.length < 16 then
            s.frame s' t [.is]
              ∧ (match c with
                | some id =>
                  if ∃ x ∈ s.strip id, x.receiving = false ∧ (x.freezeSet ≠ [] ∨ s.frozenTiles + x.tiles.length ≤ 256) then
                    s'.is = { s.is with
                      walk := some ⟨rec, rest, frozen ++ [id]⟩
                      strips := s.is.strips.map (fun x =>
                        if x.id = id then { x with freezeSet := x.freezeSet ++ [rec] } else x) }
                  else s'.is = { s.is with walk := some ⟨rec, rest, frozen⟩ }
                | none => s'.is = { s.is with walk := some ⟨rec, rest, frozen⟩ })
          else s.frame s' t []
        | some ⟨_, [], _⟩ | none => s.frame s' t []))
    ∧ ∃ s', exec (.freezeWalkCompletion t) s = .next s'
      ∧ (match s.is.walk with
        | some w =>
          if w.candidates = [] ∨ 16 ≤ w.frozen.length then
            s'.is = { s.is with walk := none } ∧ s'.su = s.su ∧ s'.se = s.se ∧ s'.ru = s.ru ∧ s'.im = s.im
              ∧ s'.ms = s.ms
              ∧ (∀ before r after, s.tu.records = before ++ r :: after → r.number = w.record →
                  (∀ q ∈ after, q.number ≠ w.record) →
                  s'.tu.records = before ++ { r with frozen := w.frozen, capturing := false } :: after)
              ∧ ((∀ q ∈ s.tu.records, q.number ≠ w.record) → s'.tu.records = s.tu.records)
              ∧ s'.tu.causes = s.tu.causes ∧ s'.tu.current = s.tu.current
              ∧ s'.tu.state = (if s.tu.state ≠ .capture then s.tu.state
                  else if s.su.tracker.flags.atRest = true ∨ s.rc.ringState = .lost then .stopped else .stopping)
              ∧ ∀ q : PortNo, s.cp.routes.trip.getLsbD q = true → (s'.port q).pending = (s.port q).pending ||| 8#11
          else s.frame s' t []
        | none => s.frame s' t [])

/-- For every command but HARDWARE_RESET: a hub in LOCKOUT stays in it, and a master in CONFLICT with no roster timer
stays in it. For every command: when no section is COUPLED in CAPTURE, STOPPING, STOPPED or LOCKOUT under an effective
class of QUICK or COAST, and in LOCKOUT every section is VACANT or RELEASED, this holds after it. For every command:
when the cause set stands in order of cause number and then section, with no pair twice, it does so after it. In
LOCKOUT TRIP OUT is asserted. That the law is meant for these four trip states, and not for RELEASING, where the
section actions have no rise to act on, is the model's deduction (notes/assumptions/34.md). (section 1.3; section 5.1;
section 5.2; section 5.3; section 5.4; section 5.5.) -/
def Obligations.TripLaw : Prop :=
  (∀ (c : Instr) (s s' : State), (∀ st a b, c ≠ .hardwareReset st a b) → exec c s = .next s' →
      (s.tu.state = .lockout → s'.tu.state = .lockout)
      ∧ (s.isMaster = true → s.rc.rosterTimer = none → s.rc.ringState = .conflict →
          s'.isMaster = true ∧ s'.rc.rosterTimer = none ∧ s'.rc.ringState = .conflict))
    ∧ (∀ (c : Instr) (s s' : State), s.tripLaw = true → exec c s = .next s' → s'.tripLaw = true)
    ∧ (∀ (c : Instr) (s s' : State), s.causesLaw = true → exec c s = .next s' → s'.causesLaw = true)
    ∧ ∀ s : State, s.tu.state = .lockout → s.tripOut = true

/-- A permitted CAMERA SET of a camera with some item, a row pitch of 1 to 65,535 and a known mode stores the named items,
the minimum speed clamped to 2,147,479,552. A permitted TRIGGER SET is answered BAD ARGUMENT for an angle beyond 24
bits or two equal ones, FULL for more than 8, and otherwise replaces the table by the list sorted ascending. A
permitted FREEZE SPAN SET stores the value clamped to 1 to 255. The answer is CLAMPED when a value was clamped, else
DONE. TRIGGER_FIRE with a firing due: a due firing is no longer armed, the line is high until 500 ticks on, the
trigger number is one up, its entry with the fire time and the stamp that the tracker gives joins the log, which keeps
its last 8, and notice TRIGGER reaches its ports. At a cycle step, which CYCLE_FRAME, CYCLE_ORIGINATION and
DEADLINE_EXPIRY take, every PENDING stamp of the trigger logs and the strips takes the tracker's answer about its fire
time, and a camera whose minimum speed V exceeds, for an increment above 0, arms a firing with the new entry's cycle
number for every table angle beyond its scheduled angle (θ when absent), up to θ plus the increment, at P plus the
angle's distance from θ times the period over the increment, rounded; that end is the scheduled angle where the
interval has length. Else nothing is armed and no angle is scheduled. A firing whose time has come fires at once, into
a log of at most 8 entries. TRIGGER_PULSE_END when the pulse has ended returns the line low. Nothing else changes at a
request, a firing or a pulse end. That a firing or a pulse end not due changes nothing but hub time
(notes/assumptions/2.md), that the pulse runs from when the row of the firing comes (notes/assumptions/27.md) and that
BAD ARGUMENT comes before FULL (notes/assumptions/16.md) are the model's choices. The order of firings due together is
the model's choice (notes/assumptions/61.md). (section 6.3; section 6.5; section 10.3; section 2.5.) -/
def Obligations.CamerasAndTriggers : Prop :=
  ∀ (s : State) (t : HubTime) (p : PortNo) (g : Tag) (c : Fin 4) (x : CameraItems) (l : List Nat) (v : Nat),
    (s.takes p g [.desk] → x ≠ {} → (∀ n ∈ x.pitch, 1 ≤ n ∧ n ≤ 65535) → (∀ m ∈ x.mode, m ≤ 1) →
      ∃ s', exec (.cameraSet t p g (some c.val) x) s = .next s' ∧ s.frame s' t [.is, .cp]
        ∧ s'.is = { s.is with cameras := s.is.cameras.set c { s.camera c with
            mode := match x.mode with
              | some 0 => .grey
              | some _ => .cmyk
              | none => (s.camera c).mode
            pitch := x.pitch.getD (s.camera c).pitch
            mask := x.mask.getD (s.camera c).mask
            minSpeed := (x.minSpeed.map (fun n => min n 2147479552)).getD (s.camera c).minSpeed } }
        ∧ s'.cp = s.cp.answered p g (if ∀ n ∈ x.minSpeed, n ≤ 2147479552 then .done else .clamped) [])
    ∧ (s.takes p g [.desk] →
      ∃ s', exec (.triggerSet t p g (some c.val) (some l)) s = .next s' ∧ s.frame s' t [.is, .cp]
        ∧ (if (∃ a ∈ l, 16777215 < a) ∨ ¬ l.Nodup then s'.is = s.is ∧ s'.cp = s.cp.answered p g .badArgument []
          else if 8 < l.length then s'.is = s.is ∧ s'.cp = s.cp.answered p g .full []
          else
            s'.is = { s.is with cameras := s.is.cameras.set c { s.camera c with table := (s'.camera c).table } }
              ∧ ((s'.camera c).table.map BitVec.toNat).Perm l
              ∧ ((s'.camera c).table.map BitVec.toNat).Pairwise (fun a b => a < b)
              ∧ s'.cp = s.cp.answered p g .done []))
    ∧ (s.takes p g [.desk] →
      ∃ s', exec (.freezeSpanSet t p g (some v)) s = .next s' ∧ s.frame s' t [.is, .cp]
        ∧ s'.is = { s.is with span := max 1 (min v 255) }
        ∧ s'.cp = s.cp.answered p g (if 1 ≤ v ∧ v ≤ 255 then .done else .clamped) [])
    ∧ (∃ s', exec (.triggerFire t c) s = .next s'
      ∧ (if ∀ f ∈ (s.camera c).armed, isDue f.time t = false then s.frame s' t []
        else
          s.frame s' t [.is, .cp]
          ∧ s'.cp = s.cp.notified s.cp.routes.trigger 2#11
          ∧ ∃ f ∈ (s.camera c).armed, isDue f.time t = true
            ∧ s'.is = { s.is with cameras := s.is.cameras.set c { s.camera c with
                armed := (s.camera c).armed.erase f
                pulseEnd := some (t + 500)
                trigNumber := (s.camera c).trigNumber + 1
                log := (s.camera c).log.drop ((s.camera c).log.length - 7) ++ [⟨(s.camera c).trigNumber + 1, f.time,
                  match s.su.tracker.angleAt f.time with
                  | .angle a => .known a f.cycle
                  | .unknown => .unknown
                  | .pending => .pending f.time f.cycle⟩] } }))
    ∧ (∀ (cmd : Instr), s.takesStep cmd → ∃ (s' : State) (e : HistEntry) (fs : List Firing), exec cmd s = .next s' ∧ s'.su.tracker.history.getLast? = some e
      ∧ let asked := fun st : Stamp => match st with
          | .pending fire cycle => (match s'.su.tracker.angleAt fire with
            | .angle a => .known a cycle
            | .unknown => .unknown
            | .pending => st)
          | .known _ _ | .unknown => st
        let cam := s.camera c
        let start := cam.scheduled.getD e.theta
        let stop := e.theta + BitVec.ofInt 24 e.delta
        let runs := 0 < e.delta ∧ (cam.minSpeed : Int) < s'.su.tracker.lastV
        let now := fs.filter (fun f => isDue f.time s'.hubTime)
        fs.Perm (if runs then
            (cam.table.filter (fun a => decide (1 ≤ sdiff a start) && decide (sdiff a start ≤ sdiff stop start))).map (fun a =>
              ⟨e.p + BitVec.ofInt 32 (roundDiv (sdiff a e.theta * s.periodTicks) e.delta), e.cycle⟩)
          else [])
        ∧ (cam.log.length ≤ 8 →
          let log := cam.log.map (fun x => { x with stamp := asked x.stamp })
            ++ now.mapIdx (fun j f => ⟨cam.trigNumber + 1 + BitVec.ofNat 16 j, f.time, asked (.pending f.time f.cycle)⟩)
          s'.camera c = { cam with
            armed := cam.armed ++ fs.filter (fun f => !isDue f.time s'.hubTime)
            scheduled := if runs then (if 0 < sdiff stop start then some stop else cam.scheduled) else none
            trigNumber := cam.trigNumber + BitVec.ofNat 16 now.length
            pulseEnd := if now = [] then cam.pulseEnd else some (s'.hubTime + 500)
            log := log.drop (log.length - 8) })
        ∧ (now ≠ [] → ∀ q : PortNo, s.cp.routes.trigger.getLsbD q = true → (s'.port q).pending.getLsbD 1 = true)
        ∧ s'.is.strips.map (fun x => (x.id, x.stamp)) = s.is.strips.map (fun x => (x.id, asked x.stamp)))
    ∧ ∃ s', exec (.triggerPulseEnd t c) s = .next s'
      ∧ (match (s.camera c).pulseEnd with
        | none => s.frame s' t []
        | some e =>
          if isDue e t = false then s.frame s' t []
          else s.frame s' t [.is]
            ∧ s'.is = { s.is with cameras := s.is.cameras.set c { s.camera c with pulseEnd := none } })

/-- A permitted STRIP OPEN with a camera below 4, a width of 1 to 4,096, 1 to 64 rows and at most 524,288 bytes. With 256
strips in the directory the answer is FULL and nothing else changes. With fewer, of distinct ids: when the free list
holds the tiles needed, the byte size divided by 2,048 and rounded up, the strip stands last in the directory under an
id of 1 to 65,535 that no strip has, FILLING, empty, unpinned, with the tiles from the head of the free list and the
stamp of the log entry of its trigger number, UNKNOWN when there is none; the answer is DONE with that id and that
stamp, and nothing else changes. When the free list does not hold them, and the Trip Unit is in CAPTURE, or the
COMPLETE unpinned strips of the age list would not free enough, the answer is NO ROOM and nothing else changes.
Otherwise, the age list naming no strip twice, as many of those strips as are needed and no more are reclaimed, oldest
first: each leaves the directory and the age list and is no longer a candidate of a freeze walk, its tiles join the
tail of the free list in turn and the queued searches that name it are removed and counted; then the strip is created
in the same way. In every case every pinned strip and every strip that is not COMPLETE stays as it is. How the stamp
is sent is the model's choice (notes/assumptions/17.md). (section 6.1; section 6.2; section 6.4; section 8.1.) -/
def Obligations.StripOpen : Prop :=
  ∀ (s : State) (t : HubTime) (p : PortNo) (g : Tag) (c : Fin 4) (trig w h n : Nat), s.takes p g [.vision] →
    1 ≤ w → w ≤ 4096 → 1 ≤ h → h ≤ 64 → w * (if (s.camera c).mode = .grey then 1 else 4) * h ≤ 524288 →
    n = (w * (if (s.camera c).mode = .grey then 1 else 4) * h + 2047) / 2048 →
    let stamp : Stamp := match (s.camera c).log.find? (fun e => e.number.toNat == trig) with
      | some e => e.stamp
      | none => .unknown
    let made := fun (id : Nat) (tiles : List Nat) => ({
      id := id, origin := .here p, camera := c, mode := (s.camera c).mode, width := w, rows := h,
      byteSize := w * (if (s.camera c).mode = .grey then 1 else 4) * h, tiles := tiles, fill := 0,
      complete := false, sending := [], receiving := false, scanning := false, freezeSet := [],
      holds := .const 4 0, results := .const 16 none, stamp := stamp } : Strip)
    let old : List Strip := s.is.age.filterMap (fun id =>
      (s.is.strips.find? (fun x => x.id == id)).filter (fun x => x.complete && !x.pinned))
    let freed := fun k : Nat => (old.take k).flatMap (fun x => x.tiles)
    ∃ s', exec (.stripOpen t p g (some c.val) (some trig) (some w) (some h)) s = .next s'
      ∧ (256 ≤ s.is.strips.length → s.frame s' t [.cp] ∧ s'.cp = s.cp.answered p g .full [])
      ∧ (s.is.strips.length < 256 → (s.is.strips.map (fun x => x.id)).Nodup →
        (∀ x ∈ s.is.strips, (x.pinned = true ∨ x.complete = false) → x ∈ s'.is.strips)
        ∧ (s.is.free.length < n → (s.tu.state = .capture ∨ s.is.free.length + (freed old.length).length < n) →
            s.frame s' t [.cp] ∧ s'.cp = s.cp.answered p g .noRoom [])
        ∧ (n ≤ s.is.free.length →
            s.frame s' t [.is, .cp]
            ∧ 1 ≤ s'.is.idCount ∧ s'.is.idCount ≤ 65535 ∧ s'.is.idCount ∉ s.is.strips.map (fun x => x.id)
            ∧ s'.is = { s.is with
                free := s.is.free.drop n
                idCount := s'.is.idCount
                strips := s.is.strips ++ [made s'.is.idCount (s.is.free.take n)] }
            ∧ s'.cp = s.cp.answered p g .done (valuesBytes [val 2 s'.is.idCount, some stamp.bytes]))
        ∧ (s.is.free.length < n → s.tu.state ≠ .capture → n ≤ s.is.free.length + (freed old.length).length →
            s.is.age.Nodup →
            ∃ k, k ≤ old.length ∧ n ≤ s.is.free.length + (freed k).length
              ∧ (∀ j < k, s.is.free.length + (freed j).length < n)
              ∧ s.frame s' t [.is, .ms, .cp]
              ∧ 1 ≤ s'.is.idCount ∧ s'.is.idCount ≤ 65535
              ∧ s'.is = { s.is with
                  free := (s.is.free ++ freed k).drop n
                  idCount := s'.is.idCount
                  age := s.is.age.filter (fun a => decide (a ∉ (old.take k).map (fun x => x.id)))
                  walk := s.is.walk.map (fun w => { w with
                    candidates := w.candidates.map (fun c =>
                      if ∃ x ∈ old.take k, c = some x.id then none else c) })
                  strips := s.is.strips.filter (fun x : Strip => decide (x.id ∉ (old.take k).map (fun x => x.id)))
                    ++ [made s'.is.idCount ((s.is.free ++ freed k).take n)] }
              ∧ s'.is.idCount ∉ (s.is.strips.filter (fun x : Strip =>
                  decide (x.id ∉ (old.take k).map (fun x => x.id)))).map (fun x => x.id)
              ∧ s'.ms = { s.ms with
                  queue := s.ms.queue.filter (fun q => decide (q.strip ∉ (old.take k).map (fun x => x.id)))
                  removed := min 65535 (s.ms.removed
                    + (s.ms.queue.filter (fun q => decide (q.strip ∈ (old.take k).map (fun x => x.id)))).length) }
              ∧ s'.cp = s.cp.answered p g .done (valuesBytes [val 2 s'.is.idCount, some stamp.bytes])))

/-- A permitted STRIP DATA of 1 to 1,024 bytes is answered GONE when no strip has the id, NOT YOURS when another port
opened the strip, BAD STATE when it is COMPLETE, OUT OF ORDER when the offset is not the fill level, and BAD ARGUMENT
when it would pass the byte size, with nothing else changed. Otherwise the answer is DONE, the fill level goes up by
the count, byte j of the request is read back at the strip's byte offset + j where the strip's tiles do not repeat,
and every address that holds none of these bytes reads as before. (section 6.1; section 6.2; section 6.4.) -/
def Obligations.StripDataIsStored : Prop :=
  ∀ (s : State) (t : HubTime) (p : PortNo) (g : Tag) (id off : Nat) (bytes : List Byte), s.takes p g [.vision] →
    1 ≤ bytes.length → bytes.length ≤ 1024 → Memory.wf s.is.mem = true →
    ∃ s', exec (.stripData t p g (some id) (some off) bytes) s = .next s'
      ∧ (match s.is.strips.find? (fun x => x.id == id) with
        | none => s.frame s' t [.cp] ∧ s'.cp = s.cp.answered p g .gone []
        | some x =>
          if x.origin ≠ .here p then s.frame s' t [.cp] ∧ s'.cp = s.cp.answered p g .notYours []
          else if x.complete then s.frame s' t [.cp] ∧ s'.cp = s.cp.answered p g .badState []
          else if off ≠ x.fill then s.frame s' t [.cp] ∧ s'.cp = s.cp.answered p g .outOfOrder []
          else if x.byteSize < off + bytes.length then s.frame s' t [.cp] ∧ s'.cp = s.cp.answered p g .badArgument []
          else
            s.frame s' t [.is, .cp] ∧ s'.cp = s.cp.answered p g .done []
            ∧ s'.is = { s.is with
                mem := s'.is.mem
                strips := s.is.strips.map (fun y => if y.id = id then { y with fill := y.fill + bytes.length } else y) }
            ∧ (∀ k : Nat, (∀ j < bytes.length, tileAddr x.tiles (off + j) ≠ k) → memRead s'.is.mem k = memRead s.is.mem k)
            ∧ (((List.range bytes.length).map (fun j => tileAddr x.tiles (off + j))).Nodup →
                (List.range bytes.length).map (fun j => memRead s'.is.mem (tileAddr x.tiles (off + j))) = bytes))

/-- A permitted STRIP CLOSE of a FILLING strip that its own port opened is answered DONE. With no whole row written the
strip leaves the directory, a freeze walk and the age list and its tiles join the tail of the free list. Otherwise the
strip is COMPLETE, last on the age list, with the whole rows written, at most its rows; when they are fewer, its size
and fill level are theirs, it keeps the first tiles that they need and the rest join the tail of the free list. At a
RUNNING hub the pairs with every hub of the camera's mask that is below the hub count and not itself, when none of
them is there already, join the send queue in order of address as far as it has room for 32, and the strip is pinned
for each. Notice IMAGE DROPPED is set at the ports of its route, and no other notice, when one finds no room, and, at
a hub that is not RUNNING, where no pair is queued, when the mask names any hub but itself. A kept strip whose stamp
is not KNOWN offers no search. One with a KNOWN stamp offers a job for each register loop, in slot order, whose source
is IMAGE with its camera and whose window holds the angle of one of its rows. With a scan of another strip in progress
and no job of the strip queued, the jobs join the queue as far as it has room for 16, and each of the others is
counted as skipped. With no scan in progress and an empty queue, the first job is taken up at once, its scan planned
for all the rows in the window, and the others are queued. (section 6.4; section 6.5; section 7.2; section 8.1;
section 8.2.) -/
def Obligations.StripClose : Prop :=
  ∀ (s : State) (t : HubTime) (p : PortNo) (g : Tag) (id rows : Nat) (x : Strip), s.takes p g [.vision] →
    s.is.strips.find? (fun x => x.id == id) = some x → x.origin = .here p → x.complete = false →
    rows = min x.rows (x.fill / (x.width * (if x.mode = .grey then 1 else 4))) →
    ∃ s', exec (.stripClose t p g (some id)) s = .next s' ∧ s'.su = s.su ∧ s'.se = s.se ∧ s'.tu = s.tu ∧ s'.ru = s.ru
      ∧ (s'.port p).responses = (s.port p).responses ++ [⟨g, .done, valuesBytes [val 1 rows]⟩]
      ∧ (if rows = 0 then
          s.frame s' t [.is, .ms, .cp] ∧ s'.is = { s.is with
            strips := s.is.strips.filter (fun y => y.id != id)
            age := s.is.age.filter (fun a => a != id)
            free := s.is.free ++ x.tiles
            walk := s.is.walk.map (fun w => { w with
              candidates := w.candidates.map (fun c => if c = some id then none else c) }) }
        else
          s'.is.age = s.is.age ++ [id] ∧ s'.is.mem = s.is.mem ∧ s'.is.cameras = s.is.cameras
          ∧ s'.is.free = s.is.free ++ (if rows < x.rows then
              x.tiles.drop ((rows * (x.width * (if x.mode = .grey then 1 else 4)) + 2047) / 2048) else [])
          ∧ (∃ y ∈ s'.is.strips.find? (fun x => x.id == id), y.complete = true ∧ y.rows = rows ∧ y.stamp = x.stamp
            ∧ y.width = x.width ∧ y.mode = x.mode ∧ y.origin = x.origin ∧ y.freezeSet = x.freezeSet ∧ y.holds = x.holds
            ∧ (if rows < x.rows then
                y.byteSize = rows * (x.width * (if x.mode = .grey then 1 else 4)) ∧ y.fill = y.byteSize
                  ∧ y.tiles = x.tiles.take ((y.byteSize + 2047) / 2048)
              else y.byteSize = x.byteSize ∧ y.fill = x.fill ∧ y.tiles = x.tiles)
            ∧ (s.rc.ringState ≠ .running → y.sending = x.sending ∧ s'.im = s.im
              ∧ ∀ q : PortNo, (s'.port q).pending = (s.port q).pending ||| (if s.cp.routes.imageDropped.getLsbD q = true
                  ∧ ∃ d ∈ List.range 32, (s.camera x.camera).mask.getLsbD d = true ∧ s.rc.hubAddress ≠ some d then 256#11 else 0#11))
            ∧ (s.rc.ringState = .running → (∀ d ∈ s.destinations (s.camera x.camera).mask, (id, d) ∉ s.im.sendQueue
                  ∧ s.im.transfer.map (fun k => (k.strip, k.dst)) ≠ some (id, d)) →
                let all := s.destinations (s.camera x.camera).mask
                let room := 32 - s.im.sendQueue.length
                s'.im = { s.im with sendQueue := s.im.sendQueue ++ (all.take room).map (fun d => (id, d)) }
                  ∧ y.sending = x.sending ++ all.take room
                  ∧ ∀ q : PortNo, (s'.port q).pending = (s.port q).pending
                      ||| (if s.cp.routes.imageDropped.getLsbD q = true ∧ room < all.length then 256#11 else 0#11)))
          ∧ (∀ d, d ∈ s.destinations (s.camera x.camera).mask ↔
              (d < 32 ∧ (s.camera x.camera).mask.getLsbD d = true ∧ s.rc.hubAddress ≠ some d
                ∧ ∃ n ∈ s.rc.hubCount, d < n))
          ∧ ((∀ a k, x.stamp ≠ .known a k) → s'.ms = s.ms)
          ∧ ∀ a k, x.stamp = .known a k →
              let seen := fun i : SlotNo => (List.range rows).filter (fun r => decide
                ((Machine.sdiff (a + BitVec.ofNat 24 (r * (s.camera x.camera).pitch)) (s.loop i).mexp).natAbs
                  ≤ (s.loop i).window))
              let jobs := ((List.finRange 16).filter (fun i => decide ((s.loop i).source = .image x.camera ∧ seen i ≠ []))).map
                (fun i => (⟨id, i⟩ : Job))
              (∀ q, s.ms.scan = some q → q.job.strip ≠ id → (∀ j ∈ s.ms.queue, j.strip ≠ id) →
                s'.ms = { s.ms with
                  queue := s.ms.queue ++ jobs.take (16 - s.ms.queue.length)
                  skipped := (jobs.drop (16 - s.ms.queue.length)).foldl (fun n _ => satInc n) s.ms.skipped })
              ∧ (s.ms.scan = none → s.ms.queue = [] →
                (jobs = [] → s'.ms = s.ms)
                ∧ ∀ j rest, jobs = j :: rest → ∃ q, s'.ms = { s.ms with scan := some q, queue := rest }
                  ∧ q.job = j ∧ q.theta = a ∧ q.rows = seen j.slot))

/-- A permitted STRIP DISCARD of an existing strip is answered NOT YOURS for a RECEIVING strip and for a FILLING one that
another port opened, BUSY for a pinned strip, and otherwise DONE, with the strip gone from the directory and the age
list and its tiles at the tail of the free list. A permitted STRIP HOLD of an existing strip is answered BAD STATE
unless it is COMPLETE, FULL when the port has 4 holds in all, and otherwise DONE with one hold of the port more. A
permitted STRIP UNHOLD is answered BAD STATE when the port has no hold on the strip, and otherwise DONE with one less.
An id that names no strip is answered GONE. Nothing else changes but the search queue's jobs on a discarded strip, and
that it is no longer a candidate of a freeze walk. (section 6.4; section 8.1.) -/
def Obligations.StripDiscardAndHolds : Prop :=
  ∀ (s : State) (t : HubTime) (p : PortNo) (g : Tag) (id : Nat),
    (s.takes p g [.vision] → ∃ s', exec (.stripDiscard t p g (some id)) s = .next s' ∧ s.frame s' t [.is, .ms, .cp]
      ∧ (match s.is.strips.find? (fun x => x.id == id) with
        | none => s'.is = s.is ∧ s'.ms = s.ms ∧ s'.cp = s.cp.answered p g .gone []
        | some x =>
          if x.receiving = true ∨ (x.complete = false ∧ x.origin ≠ .here p) then
            s'.is = s.is ∧ s'.ms = s.ms ∧ s'.cp = s.cp.answered p g .notYours []
          else if x.pinned then s'.is = s.is ∧ s'.ms = s.ms ∧ s'.cp = s.cp.answered p g .busy []
          else
            s'.cp = s.cp.answered p g .done []
            ∧ s'.is = { s.is with
                strips := s.is.strips.filter (fun y => y.id != id)
                age := s.is.age.filter (fun a => a != id)
                free := s.is.free ++ x.tiles
                walk := s.is.walk.map (fun w => { w with
                  candidates := w.candidates.map (fun c => if c = some id then none else c) }) }
            ∧ s'.ms = { s.ms with
                queue := s.ms.queue.filter (fun j => j.strip != id)
                removed := min 65535 (s.ms.removed + (s.ms.queue.filter (fun j => j.strip == id)).length) }))
    ∧ (s.takes p g [.desk, .panel] → ∃ s', exec (.stripHold t p g (some id)) s = .next s' ∧ s.frame s' t [.is, .cp]
      ∧ (match s.is.strips.find? (fun x => x.id == id) with
        | none => s'.is = s.is ∧ s'.cp = s.cp.answered p g .gone []
        | some x =>
          if x.complete = false then s'.is = s.is ∧ s'.cp = s.cp.answered p g .badState []
          else if 4 ≤ (s.is.strips.map (fun y => y.holds.get p)).sum then
            s'.is = s.is ∧ s'.cp = s.cp.answered p g .full []
          else
            s'.cp = s.cp.answered p g .done []
              ∧ s'.is = { s.is with strips := s.is.strips.map (fun y =>
                  if y.id = id then { y with holds := y.holds.set p (y.holds.get p + 1) } else y) }))
    ∧ (s.takes p g [.desk, .panel] → ∃ s', exec (.stripUnhold t p g (some id)) s = .next s' ∧ s.frame s' t [.is, .cp]
      ∧ (match s.is.strips.find? (fun x => x.id == id) with
        | none => s'.is = s.is ∧ s'.cp = s.cp.answered p g .gone []
        | some x =>
          if x.holds.get p = 0 then s'.is = s.is ∧ s'.cp = s.cp.answered p g .badState []
          else
            s'.cp = s.cp.answered p g .done []
              ∧ s'.is = { s.is with strips := s.is.strips.map (fun y =>
                  if y.id = id then { y with holds := y.holds.set p (y.holds.get p - 1) } else y) }))

/-- For every command: when the bytes of the tile store stand in canonical form, the free list, the tile lists of the
strips and the reservations hold each of the 1,024 tiles exactly once, no two strips have one id, and every reception
in progress has a strip of its own that is FILLING, RECEIVING, REMOTE and without tiles, all of this holds after it.
For every command: when beside this the strips with a freeze hold at most 256 tiles and no RECEIVING strip has a
freeze, both hold after it. (section 6.1; section 6.2; section 6.4; section 6.5; section 7.4.) -/
def Obligations.StoreLaw : Prop :=
  ∀ (c : Instr) (s s' : State), s.storeLaw = true → exec c s = .next s' →
    s'.storeLaw = true ∧ (s.freezeLaw = true → s'.freezeLaw = true)

/-- SENDER_TAKE_HEAD at a RUNNING hub with the sender IDLE and a strip at the head whose stamp is not PENDING: the pair
leaves the queue and is the transfer in hand, attempt 1, with the next transfer number, in BEGIN SENT with no timer
running, and the IMAGE BEGIN of the strip as it stands is the image pending frame when that place is free.
RETRY_WAIT_EXPIRY at its limit begins the next attempt in the same way. BEGIN_TIMEOUT at its limit fails the attempt:
below 8 the attempt is one up in RETRY WAIT with the timer at 0 of 2, at 8 the transfer is dropped.
AWAIT_COMPLETE_TIMEOUT at its limit drops the transfer, and with a general place, an empty control store and room in
the control queue the IMAGE ABORT TO RECEIVER with reason TIMEOUT is in that queue. A dropped transfer unpins the
strip for its destination, is counted and gives notice IMAGE DROPPED at the ports it is routed to; in the same event
the sender takes the head of its queue where it can, and is IDLE where it cannot. That the transfer keeps the failed
attempt's number in RETRY WAIT and next segment 0 before an ACCEPT is the model's choice (notes/assumptions/42.md), so
is that a timeout with no timer changes nothing (notes/assumptions/2.md), and so is that a timer waits at its limit
and that taking the head is a row of its own at every other time (notes/assumptions/18.md). (section 7.2; section 7.3;
section 7.5.) -/
def Obligations.SenderAttempts : Prop :=
  ∀ (s : State) (t : HubTime) (id dst : Nat) (rest : List (Nat × Nat)) (x : Strip) (k : Transfer) (c : StepTimer),
    (s.im.sender = .idle → s.rc.ringState = .running → s.im.sendQueue = (id, dst) :: rest → s.strip id = some x →
      x.stamp.isPending = false → s.rc.imagePending = none → s.im.offered = [] →
      ∃ s', exec (.senderTakeHead t) s = .next s' ∧ s.frame s' t [.rc, .im]
        ∧ s'.im = { s.im with
            sendQueue := rest
            sender := .beginSent
            timer := none
            transferCount := s.im.transferCount + 1
            transfer := some ⟨id, dst, s.im.transferCount + 1, 1, (x.byteSize + 1023) / 1024, 0, none⟩ }
        ∧ s'.rc = { s.rc with
            outLeft := s.rc.outLeft - (t - s.hubTime).toNat
            imagePending := some (beginFor x dst (s.im.transferCount + 1)) })
    ∧ (s.im.sender = .retryWait → s.im.timer = some c → c.limit ≤ c.count → s.im.transfer = some k →
      s.strip k.strip = some x → s.rc.imagePending = none → s.im.offered = [] →
      ∃ s', exec (.retryWaitExpiry t) s = .next s' ∧ s.frame s' t [.rc, .im]
        ∧ s'.im = { s.im with
            sender := .beginSent
            timer := none
            transferCount := s.im.transferCount + 1
            transfer := some { k with number := s.im.transferCount + 1 } }
        ∧ s'.rc = { s.rc with
            outLeft := s.rc.outLeft - (t - s.hubTime).toNat
            imagePending := some (beginFor x k.dst (s.im.transferCount + 1)) })
    ∧ (s.im.sender = .beginSent → s.im.timer = some c → c.limit ≤ c.count → s.im.transfer = some k → k.attempt < 8 →
      ∃ s', exec (.beginTimeout t) s = .next s' ∧ s.frame s' t [.im]
        ∧ s'.im = { s.im with
            sender := .retryWait, timer := some ⟨0, 2⟩, transfer := some { k with attempt := k.attempt + 1 } })
    ∧ (s.im.timer = some c → c.limit ≤ c.count → s.im.transfer = some k →
      ∀ q ∈ [(Instr.beginTimeout t, SenderState.beginSent), (Instr.awaitCompleteTimeout t, SenderState.awaitComplete)],
        s.im.sender = q.2 → (q.2 = .beginSent → 8 ≤ k.attempt) →
        ∃ s', exec q.1 s = .next s' ∧ s.frame s' t [.rc, .is, .im, .cp]
          ∧ s.newHead s'
          ∧ s'.im.transfersDropped = satInc s.im.transfersDropped ∧ s'.im.transfersDone = s.im.transfersDone
          ∧ s'.im.contexts = s.im.contexts
          ∧ s'.is = { s.is with strips := s.is.strips.map (fun y =>
              if y.id = k.strip then { y with sending := y.sending.filter (fun h => h != k.dst) } else y) }
          ∧ s'.cp = s.cp.notified s.cp.routes.imageDropped 256#11
          ∧ (q.2 = .beginSent → s'.rc = { s.rc with
              outLeft := s.rc.outLeft - (t - s.hubTime).toNat, imagePending := s'.rc.imagePending })
          ∧ (q.2 = .awaitComplete → s.im.generalFree = true → s.im.store = [] → s.rc.controlQueue.length < 8 →
              s'.rc.controlQueue = s.rc.controlQueue ++ [⟨k.dst, .imageAbort true k.strip k.number .timeout⟩])
          ∧ (q.2 = .awaitComplete → s.im.generalFree = false → s'.im.notMade = satInc s.im.notMade))
    ∧ (s.im.timer = none → ∀ i ∈ [Instr.beginTimeout t, .retryWaitExpiry t, .awaitCompleteTimeout t],
        ∃ s', exec i s = .next s' ∧ s.frame s' t [])

/-- At a RUNNING hub, from the destination of the transfer in hand and with its number: ACCEPT in BEGIN SENT records the
receiver's strip, stops the timer, enters SENDING and, the image pending place being free, puts segment 0 there with
the first bytes of the strip; BUSY in BEGIN SENT below attempt 8 fails the attempt; COMPLETE in AWAIT COMPLETE ends
the transfer as done, unpinned, counted and without a notice; an IMAGE ABORT TO SENDER in BEGIN SENT, SENDING or AWAIT
COMPLETE drops it, counts it, records its reason, whatever its code, and gives notice IMAGE DROPPED at the ports it is
routed to. At either end the sender takes the head of its queue in the same event where it can, and is IDLE where it
cannot. A reply whose status code is none of the table changes nothing but hub time. From another hub, or with another
number, a reply changes nothing but hub time and an abort only the count of aborts. That an unlisted status does
nothing and that an abort with an unlisted reason acts and is recorded is the model's choice
(notes/assumptions/17.md). (section 7.3.) -/
def Obligations.SenderAnswers : Prop :=
  ∀ (s : State) (t : HubTime) (k : Transfer) (x : Strip) (src strip rx : Nat) (number : BitVec 16) (st : ReplyStatus)
    (reason : AbortReason), s.rc.ringState = .running → s.goodSource src = true →
    (s.im.transfer = some k → k.dst = src → k.number = number →
      (s.im.sender = .beginSent → s.strip k.strip = some x → s.rc.imagePending = none → s.im.offered = [] →
        ∃ s', exec (.imageReply t src strip number .accept rx) s = .next s' ∧ s.frame s' t [.rc, .im]
          ∧ s'.im = { s.im with
              sender := .sending, timer := none, transfer := some { k with receiverStrip := some rx, nextSeg := 0 } }
          ∧ s'.rc = { s.rc with
              outLeft := s.rc.outLeft - (t - s.hubTime).toNat
              imagePending := some ⟨src, .imageSegment k.strip number 0
                (if 1 < k.segCount then 1024 else x.byteSize - (k.segCount - 1) * 1024)
                ((List.range (if 1 < k.segCount then 1024 else x.byteSize - (k.segCount - 1) * 1024)).map
                  (fun j => memRead s.is.mem (tileAddr x.tiles j)))⟩ })
      ∧ (s.im.sender = .beginSent → k.attempt < 8 →
        ∃ s', exec (.imageReply t src strip number .busy rx) s = .next s' ∧ s.frame s' t [.im]
          ∧ s'.im = { s.im with
              sender := .retryWait, timer := some ⟨0, 2⟩, transfer := some { k with attempt := k.attempt + 1 } })
      ∧ (s.im.sender = .awaitComplete →
        ∃ s', exec (.imageReply t src strip number .complete rx) s = .next s' ∧ s.frame s' t [.rc, .is, .im]
          ∧ s.newHead s'
          ∧ s'.rc = { s.rc with
              outLeft := s.rc.outLeft - (t - s.hubTime).toNat, imagePending := s'.rc.imagePending }
          ∧ s'.im = { s.im with
              sender := s'.im.sender, timer := none, transfer := s'.im.transfer, sendQueue := s'.im.sendQueue
              transferCount := s'.im.transferCount, offered := s'.im.offered
              transfersDone := satInc s.im.transfersDone }
          ∧ s'.is = { s.is with strips := s.is.strips.map (fun y =>
              if y.id = k.strip then { y with sending := y.sending.filter (fun h => h != k.dst) } else y) })
      ∧ ((s.im.sender = .beginSent ∨ s.im.sender = .sending ∨ s.im.sender = .awaitComplete) →
        ∃ s', exec (.imageAbortToSender t src strip number reason) s = .next s' ∧ s.frame s' t [.rc, .is, .im, .cp]
          ∧ s.newHead s'
          ∧ s'.rc = { s.rc with
              outLeft := s.rc.outLeft - (t - s.hubTime).toNat, imagePending := s'.rc.imagePending }
          ∧ s'.im = { s.im with
              sender := s'.im.sender, timer := none, transfer := s'.im.transfer, sendQueue := s'.im.sendQueue
              transferCount := s'.im.transferCount, offered := s'.im.offered
              transfersDropped := satInc s.im.transfersDropped
              abortsToSender := satInc s.im.abortsToSender, lastAbort := some reason }
          ∧ s'.is = { s.is with strips := s.is.strips.map (fun y =>
              if y.id = k.strip then { y with sending := y.sending.filter (fun h => h != k.dst) } else y) }
          ∧ s'.cp = s.cp.notified s.cp.routes.imageDropped 256#11)
      ∧ ∀ c, ∃ s', exec (.imageReply t src strip number (.unlisted c) rx) s = .next s' ∧ s.frame s' t [])
    ∧ (s.im.transfer.all (fun k => decide (k.dst ≠ src) || decide (k.number ≠ number)) = true →
      (∃ s', exec (.imageReply t src strip number st rx) s = .next s' ∧ s.frame s' t [])
      ∧ ∃ s', exec (.imageAbortToSender t src strip number reason) s = .next s' ∧ s.frame s' t [.im]
        ∧ s'.im = { s.im with abortsToSender := satInc s.im.abortsToSender })

/-- IMAGE BEGIN at a RUNNING hub from a known other hub, of which no context holds the same source strip, with the control
store empty and fewer than 8 frames in the control queue. A malformed one puts an IMAGE ABORT TO SENDER with reason
BAD BEGIN into the control queue and changes nothing else; a well-formed one with both contexts RECEIVING puts BUSY
there and changes nothing else. A well-formed one with a FREE context, fewer than 256 strips and the tiles needed on
the free list takes them from its head as the reservation, creates the strip, REMOTE, FILLING, RECEIVING and without
tiles, under a fresh id, makes the lower FREE context RECEIVING with next segment 0 and timer 0, and puts ACCEPT with
the strip's id there. With no general place free (the frames in the control store and the claims of RECEIVING contexts
whose ACCEPT is not in it take all four) the BEGIN is ignored, the control frames not made are one up, and nothing
else changes. (section 7.4; section 7.5; section 6.4.) -/
def Obligations.ImageBeginIsJudged : Prop :=
  ∀ (s : State) (t : HubTime) (src : Nat) (f : BeginFields) (c : Fin 2), s.rc.ringState = .running →
    s.goodSource src = true → (∀ i : Fin 2, ∀ r ∈ s.im.contexts.get i, r.src ≠ src ∨ r.srcStrip ≠ f.strip) →
    (4 ≤ s.im.store.length + ((List.finRange 2).filter (fun c =>
        (s.im.contexts.get c).isSome && !s.im.store.any (fun e => e.place == .accept c))).length →
      ∃ s', exec (.imageBegin t src f) s = .next s' ∧ s.frame s' t [.im]
        ∧ s'.im = { s.im with notMade := satInc s.im.notMade })
    ∧ (s.im.store = [] → s.rc.controlQueue.length < 8 →
    ∃ s', exec (.imageBegin t src f) s = .next s'
      ∧ (if ¬ (f.camera ≤ 3 ∧ f.mode ≤ 1 ∧ 1 ≤ f.width ∧ f.width ≤ 4096 ∧ 1 ≤ f.rows ∧ f.rows ≤ 64
            ∧ f.byteSize = f.width * (if f.mode = 0 then 1 else 4) * f.rows ∧ f.byteSize ≤ 524288
            ∧ f.segCount = (f.byteSize + 1023) / 1024) then
          s.frame s' t [.rc] ∧ s'.rc = { s.rc with
            outLeft := s.rc.outLeft - (t - s.hubTime).toNat
            controlQueue := s.rc.controlQueue ++ [⟨src, .imageAbort false f.strip f.number .badBegin⟩] }
        else if (s.im.contexts.get 0).isSome ∧ (s.im.contexts.get 1).isSome then
          s.frame s' t [.rc] ∧ s'.rc = { s.rc with
            outLeft := s.rc.outLeft - (t - s.hubTime).toNat
            controlQueue := s.rc.controlQueue ++ [⟨src, .imageReply f.strip f.number .busy 0⟩] }
        else
          s.is.strips.length < 256 → (f.byteSize + 2047) / 2048 ≤ s.is.free.length →
          s.im.contexts.get c = none → (c = 1 → (s.im.contexts.get 0).isSome) →
          s.frame s' t [.rc, .is, .im]
          ∧ s'.is.idCount ∉ s.is.strips.map (fun x => x.id) ∧ 1 ≤ s'.is.idCount ∧ s'.is.idCount ≤ 65535
          ∧ s'.rc = { s.rc with
            outLeft := s.rc.outLeft - (t - s.hubTime).toNat
            controlQueue := s.rc.controlQueue ++ [⟨src, .imageReply f.strip f.number .accept s'.is.idCount⟩] }
          ∧ s'.im = { s.im with contexts := s.im.contexts.set c (some
              { src := src, srcStrip := f.strip, number := f.number, strip := s'.is.idCount
                reservation := s.is.free.take ((f.byteSize + 2047) / 2048), segCount := f.segCount
                nextSeg := 0, timer := 0 }) }
          ∧ s'.is = { s.is with
              free := s.is.free.drop ((f.byteSize + 2047) / 2048)
              idCount := s'.is.idCount
              strips := s.is.strips ++ [{
                id := s'.is.idCount, origin := .remote src f.strip, camera := Fin.ofNat 4 f.camera
                mode := if f.mode = 0 then .grey else .cmyk, width := f.width, rows := f.rows, byteSize := f.byteSize
                tiles := [], fill := 0, complete := false, sending := [], receiving := true, scanning := false
                freezeSet := [], holds := .const 4 0, results := .const 16 none
                stamp := match f.stamp with
                  | .known a n => .known a n
                  | .unknown => .unknown }] }))

/-- At a RUNNING hub, for a context RECEIVING, context 1 where context 0 does not match, from the segment's source with
its transfer number: the next segment with the right byte count has its bytes stored from segment number times 1,024
on in the reservation, with the next segment one up and the timer 0; as the last one it completes the reception
instead: the strip takes the reservation as its tiles, is full, COMPLETE, last on the age list and no longer
RECEIVING, the context is FREE and COMPLETE is made. A wrong segment number or byte count abandons the reception with
an abort for SEQUENCE, SEGMENT_TIMEOUT at 8 steps does so with TIMEOUT, and an IMAGE ABORT TO RECEIVER does so with no
frame: the context is FREE, it is counted, the strip leaves the directory and the reservation joins the tail of the
free list. A segment that matches no context, with no frame in the control store and fewer than 8 in the control
queue, is answered by an abort for NO TRANSFER, and an abort to the receiver that matches none changes nothing but hub
time. An ACCEPT that still waits in the control store as its only frame is withdrawn with the aborted reception, and
the Image Mover no longer waits for a place in the control queue. That the mover's wait so ends
(notes/assumptions/67.md), that context 0 comes first where both match (notes/assumptions/57.md) and that
SEGMENT_TIMEOUT below 8 steps changes nothing (notes/assumptions/2.md, notes/assumptions/18.md) are the model's
choices. (section 7.4; section 7.5.) -/
def Obligations.ReceptionGoesOn : Prop :=
  ∀ (s : State) (t : HubTime) (src strip seg : Nat) (number : BitVec 16) (bytes : List Byte) (reason : AbortReason)
    (r : Reception) (x : Strip) (ctx : Fin 2), s.rc.ringState = .running → s.goodSource src = true →
    (s.im.contexts.get ctx = some r → r.src = src → r.number = number →
      (ctx = 1 → ∀ q ∈ s.im.contexts.get 0, q.src ≠ src ∨ q.number ≠ number) → s.strip r.strip = some x →
      (s.im.store = [] → s.rc.controlQueue.length < 8 →
      (∃ s', exec (.imageSegment t src strip number seg bytes.length bytes) s = .next s' ∧ s.frame s' t [.rc, .is, .im, .ms]
        ∧ (if seg = r.nextSeg ∧ bytes.length =
              (if seg + 1 < r.segCount then 1024 else x.byteSize - (r.segCount - 1) * 1024) then
            s'.is.mem = tileStore s.is.mem r.reservation (seg * 1024) bytes
            ∧ (if seg + 1 = r.segCount then
                s'.im.contexts.get ctx = none ∧ s'.im.receptionsDone = satInc s.im.receptionsDone
                  ∧ s'.rc.controlQueue = s.rc.controlQueue ++ [⟨src, .imageReply r.srcStrip number .complete r.strip⟩]
                  ∧ s'.strip r.strip = some { x with
                      tiles := r.reservation, fill := x.byteSize, receiving := false, complete := true }
                  ∧ s'.is.age = s.is.age ++ [r.strip] ∧ s'.is.free = s.is.free
              else
                s.frame s' t [.is, .im] ∧ s'.is = { s.is with mem := s'.is.mem }
                  ∧ s'.im = { s.im with contexts := s.im.contexts.set ctx (some { r with nextSeg := seg + 1, timer := 0 }) })
          else
            s'.im.contexts.get ctx = none ∧ s'.im.receptionsAbandoned = satInc s.im.receptionsAbandoned
              ∧ s'.strip r.strip = none ∧ s'.is.free = s.is.free ++ r.reservation ++ x.tiles
              ∧ s'.rc.controlQueue = s.rc.controlQueue ++ [⟨src, .imageAbort false r.srcStrip number .sequence⟩]))
      ∧ (∃ s', exec (.segmentTimeout t ctx) s = .next s'
        ∧ (if r.timer < 8 then s.frame s' t []
          else
            s.frame s' t [.rc, .is, .im, .ms]
              ∧ s'.im.contexts.get ctx = none ∧ s'.im.receptionsAbandoned = satInc s.im.receptionsAbandoned
              ∧ s'.strip r.strip = none ∧ s'.is.free = s.is.free ++ r.reservation ++ x.tiles
              ∧ s'.rc.controlQueue = s.rc.controlQueue ++ [⟨src, .imageAbort false r.srcStrip number .timeout⟩]))
      ∧ ∃ s', exec (.imageAbortToReceiver t src strip number reason) s = .next s' ∧ s.frame s' t [.is, .im, .ms]
        ∧ s'.im.contexts.get ctx = none ∧ s'.im.receptionsAbandoned = satInc s.im.receptionsAbandoned
        ∧ s'.strip r.strip = none ∧ s'.is.free = s.is.free ++ r.reservation ++ x.tiles)
      ∧ ∀ f, s.im.store = [⟨f, .accept ctx⟩] →
        ∃ s', exec (.imageAbortToReceiver t src strip number reason) s = .next s'
          ∧ s.frame s' t [.rc, .is, .im, .ms] ∧ s'.im.contexts.get ctx = none ∧ s'.im.store = []
          ∧ s'.rc = { s.rc with
            outLeft := s.rc.outLeft - (t - s.hubTime).toNat
            controlWaiters := s.rc.controlWaiters.filter (fun b => b != .imageMover) })
    ∧ ((∀ i : Fin 2, ∀ r ∈ s.im.contexts.get i, r.src ≠ src ∨ r.number ≠ number) →
      (s.im.store = [] → s.rc.controlQueue.length < 8 →
        ∃ s', exec (.imageSegment t src strip number seg bytes.length bytes) s = .next s' ∧ s.frame s' t [.rc]
          ∧ s'.rc = { s.rc with
            outLeft := s.rc.outLeft - (t - s.hubTime).toNat
            controlQueue := s.rc.controlQueue ++ [⟨src, .imageAbort false strip number .noTransfer⟩] })
      ∧ ∃ s', exec (.imageAbortToReceiver t src strip number reason) s = .next s' ∧ s.frame s' t [])

/-- A scan takes the columns of a row from the start column up to the last for RIGHT and down to 0 for LEFT; a pixel's
value is the strip's byte at row times width plus column in GREY, at four times that plus the channel in CMYK, and it
is a hit when it is at least the threshold. For a run length of at least 1 the result is NONE exactly when no selected
row holds a run, that many hits in succession; else it names the first selected row with one and the column of the
first pixel of its first run. The pixels taken are those of the rows up to the end of that run, or all.
SCAN_COMPLETION of a scan that has come to its completion time, no job waiting: the result is stored in the strip for
the section, the strip is no longer SCANNING, no scan is in progress, and hits or NONE results are one up, at most
65,535. When the section's loop has the scan's camera as its source and is active, a hit at a row gives the mark angle
θe plus row times pitch, which within the window makes the loop LOCKED with its error and no misses and beyond it
counts a stray, and NONE adds a miss, at most 15; any other loop stays. With jobs waiting, those at the head whose
strip, of a KNOWN stamp, has no row in their loop's window are void, counted and gone, and the first other is taken
up: its plan has that strip's camera, mode and width, the stamp's angle, the camera's pitch, all rows in the window,
the start column within the width and the loop's search specification, it completes 16 ticks and a quarter of its
pixels later, rounded up, and the strip is SCANNING; where all are void no scan is in progress. With no scan, or
before its time, the command changes nothing but hub time, which is the model's choice (notes/assumptions/2.md).
(section 8.2; section 8.3; section 8.4; section 4.3; section 4.4.) -/
def Obligations.ScanCompletion : Prop :=
  (∀ (hit : Nat → Nat → Bool) (need : Nat) (columns rows : List Nat) (run : Nat → Nat → Prop), 1 ≤ need →
    (∀ r i, run r i ↔ (i + need ≤ columns.length ∧ ∀ j < need, hit r (columns.getD (i + j) 0) = true)) →
    ((scanRows hit need columns rows).1 = .none ↔ ∀ r ∈ rows, ∀ i, ¬ run r i)
    ∧ ((scanRows hit need columns rows).1 = .none → (scanRows hit need columns rows).2 = rows.length * columns.length)
    ∧ ∀ r c, (scanRows hit need columns rows).1 = .hit r c →
      ∃ before after i, rows = before ++ r :: after ∧ (∀ q ∈ before, ∀ i, ¬ run q i) ∧ run r i ∧ columns.getD i 0 = c
        ∧ (∀ k < i, ¬ run r k) ∧ (scanRows hit need columns rows).2 = before.length * columns.length + i + need)
    ∧ (∀ (m : Memory) (x : Strip) (rows : List Nat) (start : Nat) (spec : SearchSpec), start < x.width →
      ∃ columns : List Nat, columns.length = (if spec.direction = .right then x.width - start else start + 1)
        ∧ (∀ i < columns.length, columns.getD i 0 = (if spec.direction = .right then start + i else start - i))
        ∧ runScan m x rows start spec = scanRows (fun r c => decide (spec.threshold ≤ (memRead m (tileAddr x.tiles
            (if x.mode = .grey then r * x.width + c else (r * x.width + c) * 4 + spec.channel))).toNat))
            spec.runLength columns rows)
    ∧ (∀ (s : State) (t : HubTime) (p : Scan) (x : Strip) (e : Int), s.ms.scan = some p → s.strip p.job.strip = some x →
    (isDue p.completeAt t = true → s.ms.queue = [] →
      ∃ s', exec (.scanCompletion t) s = .next s' ∧ s'.ms.scan = none ∧ s'.ms.queue = []
        ∧ s'.su = s.su ∧ s'.im = s.im
        ∧ (∃ y ∈ s'.strip p.job.strip, y.scanning = false ∧ y.tiles = x.tiles ∧ y.complete = x.complete
          ∧ y.results = x.results.set p.job.slot (some (runScan s.is.mem x p.rows p.startColumn p.search).1))
        ∧ (match (runScan s.is.mem x p.rows p.startColumn p.search).1 with
          | .hit row _ =>
            s'.ms.hits = satInc s.ms.hits ∧ s'.ms.nones = s.ms.nones
            ∧ (e = Machine.sdiff (p.theta + BitVec.ofNat 24 (row * p.pitch)) (s.loop p.job.slot).mexp →
              if (s.loop p.job.slot).source = .image p.camera ∧ s.loopActive p.job.slot = true then
                if e.natAbs ≤ (s.loop p.job.slot).window then
                  (s'.loop p.job.slot).state = .locked ∧ (s'.loop p.job.slot).lastE = some e
                    ∧ (s'.loop p.job.slot).misses = 0 ∧ (s'.loop p.job.slot).markSeen = true
                else
                  s'.loop p.job.slot = { s.loop p.job.slot with
                    strays := satInc (s.loop p.job.slot).strays, lastStrayE := some e }
              else s'.loop p.job.slot = s.loop p.job.slot)
          | .none =>
            s'.ms.nones = satInc s.ms.nones ∧ s'.ms.hits = s.ms.hits
            ∧ (if (s.loop p.job.slot).source = .image p.camera ∧ s.loopActive p.job.slot = true then
                (s'.loop p.job.slot).misses = min 15 ((s.loop p.job.slot).misses + 1)
              else s'.loop p.job.slot = s.loop p.job.slot)))
    ∧ (isDue p.completeAt t = true → ∀ (before after : List Job), s.ms.queue = before ++ after →
      let seen := fun (j : Job) (y : Strip) (a : Angle) => (List.range y.rows).filter (fun r => decide
        ((Machine.sdiff (a + BitVec.ofNat 24 (r * (s.camera y.camera).pitch)) (s.loop j.slot).mexp).natAbs
          ≤ (s.loop j.slot).window))
      (∀ j ∈ before, ∃ y a k, s.strip j.strip = some y ∧ y.stamp = .known a k ∧ seen j y a = []) →
      ∃ s', exec (.scanCompletion t) s = .next s'
        ∧ (after = [] → s'.ms.scan = none ∧ s'.ms.queue = [] ∧ s'.ms.void = before.foldl (fun n _ => satInc n) s.ms.void)
        ∧ ∀ j rest y a k, after = j :: rest → s.strip j.strip = some y → y.stamp = .known a k → seen j y a ≠ [] →
          let spec := (s.loop j.slot).search
          let start := min spec.startColumn (y.width - 1)
          s'.ms.queue = rest ∧ s'.ms.void = before.foldl (fun n _ => satInc n) s.ms.void
            ∧ s'.ms.scan = some {
              job := j, camera := y.camera, mode := y.mode, width := y.width, theta := a
              pitch := (s.camera y.camera).pitch, rows := seen j y a, startColumn := start, search := spec
              completeAt := later t (16 + ((runScan s.is.mem y (seen j y a) start spec).2 + 3) / 4) }
            ∧ ∃ z ∈ s'.strip j.strip, z.scanning = true ∧ z.tiles = y.tiles)
    ∧ (isDue p.completeAt t = false → ∃ s', exec (.scanCompletion t) s = .next s' ∧ s.frame s' t []))
    ∧ ∀ (s : State) (t : HubTime), s.ms.scan = none → ∃ s', exec (.scanCompletion t) s = .next s' ∧ s.frame s' t []

/-- A permitted VIEW OPEN of a kind in range, with a rate class below 4, of the hub itself is answered FULL when no number
is free, and otherwise DONE with the lowest free number, under which the new view is INITIAL, not ready and without
content; of another known hub at a RUNNING hub the view also takes the next subscription number and, the control list
being empty and the control queue having room, SUBSCRIBE is in that queue. A permitted VIEW FETCH is answered DONE
with the port's ready views in order of number, each with number, target, kind and index, state and, unless it is
GONE, its content, an item flagged that the mirror does not hold: each is no longer ready, holds the content given as
its mirror, and from INITIAL or DIRTY is CLEAN; the other views stay. A permitted VIEW CLOSE of a number below 16 is
answered GONE when there is no such view, NOT YOURS for another port's, and otherwise DONE with the number free;
closing an import that is not GONE at a RUNNING hub, with that list empty and room in that queue, puts UNSUBSCRIBE
there. After every command but HARDWARE_RESET a local view that was CLEAN is DIRTY when the value of its content has
changed, and when it has not CLEAN, or DIRTY where the command may have changed a value and changed it back (two
requests for a section or a mark and a pass at one cycle step, a cause raised and reset by one cycle frame;
notes/assumptions/55.md, the model's deduction), with its owner, kind and rate as they were, unless a VIEW CLOSE, as a
row or as a PUT, has removed it. That a VIEW OPEN without a target hub is LOCAL, that SHAFT and TRIPS ignore an index,
and how the views of a fetch are nested are the model's choices (notes/assumptions/17.md), and so is that an item gone
from the content has no flag (notes/assumptions/51.md). That a fetch without content leaves the mirror is its choice
too (notes/assumptions/68.md). The content of a kind has the items of section 9.1 in their order, numbered from 1.
(section 9.1; section 9.2; section 9.3.) -/
def Obligations.ViewRequests : Prop :=
  (∀ (c : Instr) (s s' : State) (j : Fin 16) (v : View), (∀ st a b, c ≠ .hardwareReset st a b) → exec c s = .next s' →
      s.vu.views.get j = some v → v.target = none → v.state = .clean →
      (∃ v', s'.vu.views.get j = some v' ∧ v'.owner = v.owner ∧ v'.target = none ∧ v'.kind = v.kind ∧ v'.rate = v.rate
        ∧ s.leavesClean s' c v.kind v'.state)
      ∨ (s'.vu.views.get j = none
        ∧ ((∃ t p g, c = .viewClose t p g (some j.val)) ∨ ∃ t p bytes, c = .put t p bytes)))
    ∧ (∀ (s : State) (k : ViewKind), s.content k = items (s.watched k))
    ∧ ∀ (s : State) (t : HubTime) (p : PortNo) (g : Tag) (kind index : Nat) (k : ViewKind) (rate : Fin 4) (hub : Option Nat)
    (i : Fin 16), s.takes p g [.desk, .panel] →
    (viewKindOf kind index = some k → (hub = none ∨ (hub = s.rc.hubAddress ∧ ∀ h ∈ hub, h ≤ 31)) →
      ∃ s', exec (.viewOpen t p g hub (some kind) (some index) (some rate.val)) s = .next s' ∧ s.frame s' t [.vu, .cp]
        ∧ (if ∀ j, (s.vu.views.get j).isSome then s.vu.kept s'.vu ∧ s'.cp = s.cp.answered p g .full []
          else s.vu.views.get i = none → (∀ j < i, (s.vu.views.get j).isSome) →
            VU.kept { s.vu with views := s.vu.views.set i (some
                { owner := p, target := none, kind := k, rate := rate, state := .initial, ready := false, mirror := none
                  received := none, sub := 0, stale := 0 }) } s'.vu
              ∧ s'.cp = s.cp.answered p g .done (valuesBytes [val 1 i.val])))
    ∧ (viewKindOf kind index = some k → s.rc.ringState = .running → (∃ h ∈ hub, h ≤ 31 ∧ s.rc.hubAddress ≠ some h
        ∧ ∃ n ∈ s.rc.hubCount, h < n) → s.vu.controlList = [] → s.rc.controlQueue.length < 8 →
        s.vu.views.get i = none → (∀ j < i, (s.vu.views.get j).isSome) →
      ∃ s', exec (.viewOpen t p g hub (some kind) (some index) (some rate.val)) s = .next s' ∧ s.frame s' t [.rc, .vu, .cp]
        ∧ VU.kept { s.vu with
            subCount := s.vu.subCount + 1
            views := s.vu.views.set i (some
              { owner := p, target := hub, kind := k, rate := rate, state := .initial, ready := false, mirror := none
                received := none, sub := s.vu.subCount + 1, stale := 0 }) } s'.vu
        ∧ s'.rc = { s.rc with
            outLeft := s.rc.outLeft - (t - s.hubTime).toNat
            controlQueue := s.rc.controlQueue ++
              [⟨hub.getD 0, .subscribe i.val (s.vu.subCount + 1) k.codes.1 k.codes.2 rate.val⟩] }
        ∧ s'.cp = s.cp.answered p g .done (valuesBytes [val 1 i.val]))
    ∧ (∃ s', exec (.viewFetch t p g) s = .next s' ∧ s.frame s' t [.vu, .cp]
      ∧ s'.vu = { s.vu with views := s'.vu.views, exports := s'.vu.exports }
      ∧ s'.cp = s.cp.answered p g .done (valuesBytes [vlist ((List.finRange 16).filterMap (fun j =>
          match s.vu.views.get j with
          | none => none
          | some v =>
            if v.ready = true ∧ v.owner = p then
              some (valuesBytes [val 1 j.val,
                some (match v.target with
                  | none => valuesBytes [val 1 0]
                  | some h => valuesBytes [val 1 1, val 1 h]),
                some (match v.kind with
                  | .shaft => valuesBytes [val 1 0]
                  | .slot i => valuesBytes [val 1 1, val 1 i.val]
                  | .register i => valuesBytes [val 1 2, val 1 i.val]
                  | .trips => valuesBytes [val 1 3]
                  | .camera i => valuesBytes [val 1 4, val 1 i.val]),
                val 1 (match v.state with
                  | .initial => 0
                  | .clean => 1
                  | .dirty => 2
                  | .stale => 3
                  | .gone => 4),
                Option.map (fun l : List Item => entriesBytes (l.map (fun x =>
                    valuesBytes [val 1 x.num, some x.value, vflag (match v.mirror with
                      | some m => decide (x ∉ m)
                      | none => true)]))) (match v.target with
                  | none => some (s.content v.kind)
                  | some _ => if v.state = ViewState.gone then none else v.received)])
            else none))])
      ∧ ∀ j, (match s.vu.views.get j with
        | none => s'.vu.views.get j = none
        | some v =>
          if v.ready = true ∧ v.owner = p then
            s'.vu.views.get j = some { v with
              ready := false
              state := if v.state = .stale ∨ v.state = .gone then v.state else .clean
              mirror := match v.target with
                | none => some (s.content v.kind)
                | some _ => if v.state = .gone then v.mirror else (v.received.or v.mirror) }
          else viewKept (some v) (s'.vu.views.get j)))
    ∧ ∃ s', exec (.viewClose t p g (some i.val)) s = .next s' ∧ s.frame s' t [.rc, .vu, .cp]
      ∧ (match s.vu.views.get i with
        | none => s.frame s' t [.cp] ∧ s'.cp = s.cp.answered p g .gone []
        | some v =>
          if v.owner ≠ p then s.frame s' t [.cp] ∧ s'.cp = s.cp.answered p g .notYours []
          else
            s'.vu.views.get i = none ∧ s'.cp = s.cp.answered p g .done []
            ∧ (match v.target with
              | none => RC.kept s t s'.rc
              | some h =>
                if v.state = .gone ∨ s.rc.ringState ≠ .running then RC.kept s t s'.rc
                else s.vu.controlList = [] → s.rc.controlQueue.length < 8 →
                  s'.rc.controlQueue = s.rc.controlQueue ++ [⟨h, .unsubscribe i.val v.sub⟩]))

/-- RATE_TIMER_EXPIRY when the timer has come: its next expiry is one period on; every view of its class that is not ready
and is DIRTY, or local and INITIAL, is ready with notice VIEWS at its owner port, and every other view stays. In a
ring state other than RUNNING every export of the class in INITIAL or DIRTY is due CONTENT, and every other stays. In
RUNNING with an empty view queue and no update waiting, every export then due has its VIEW UPDATE in the view queue,
in order of export number, with its content when it is due CONTENT and with none when it is due KEEP ALIVE, and is no
longer due, with step count 0, and CLEAN when it was sent with content. Before its time the command changes nothing
but hub time. That a timer before its time changes nothing is the model's choice (notes/assumptions/2.md), that an
export is CLEAN from the offering of its content on its deduction (notes/assumptions/20.md), and that the next expiry
counts from the one due, not from a late service of it, its choice (notes/assumptions/27.md). (section 9.1; section
9.2; section 9.3.) -/
def Obligations.RateTimers : Prop :=
  ∀ (s : State) (t : HubTime) (rate : Fin 4),
    ∃ s', exec (.rateTimerExpiry t rate) s = .next s'
      ∧ (if isDue (s.vu.rateNext.get rate) t = false then s.frame s' t []
        else
          s.frame s' t [.rc, .vu, .cp]
          ∧ s'.vu.rateNext = s.vu.rateNext.set rate (s.vu.rateNext.get rate +
              (match rate with
              | 0 => 1000000
              | 1 => 2500000
              | 2 => 5000000
              | 3 => 12500000))
          ∧ (∀ i, (match s.vu.views.get i with
            | none => s'.vu.views.get i = none
            | some v =>
              if v.rate = rate ∧ v.ready = false ∧ (v.state = .dirty ∨ (v.target = none ∧ v.state = .initial)) then
                s'.vu.views.get i = some { v with ready := true } ∧ (s'.port v.owner).pending.getLsbD 2 = true
              else s'.vu.views.get i = some v))
          ∧ (s.rc.ringState ≠ .running → RC.kept s t s'.rc ∧
              ∀ i, s'.vu.exports.get i = (s.vu.exports.get i).map (fun e =>
                if e.rate = rate ∧ (e.state = .initial ∨ e.state = .dirty) then { e with due := .content } else e))
          ∧ (s.rc.ringState = .running → s.rc.viewQueue = [] → s.vu.offered = none →
              (∀ i, s'.vu.exports.get i = (s.vu.exports.get i).map (fun e =>
                if e.rate = rate ∧ (e.state = .initial ∨ e.state = .dirty) then
                  { e with due := .none, steps := 0, state := .clean }
                else if e.due = .content then { e with due := .none, steps := 0, state := .clean }
                else if e.due = .keepAlive then { e with due := .none, steps := 0 } else e))
              ∧ s'.rc = { s.rc with
                outLeft := s.rc.outLeft - (t - s.hubTime).toNat
                viewQueue := (List.finRange 16).filterMap (fun i => (s.vu.exports.get i).bind (fun e =>
                  if (e.rate = rate ∧ (e.state = .initial ∨ e.state = .dirty)) ∨ e.due = .content then
                    some ⟨e.hub, .viewUpdate e.view e.sub (some (s.content e.kind))⟩
                  else if e.due = .keepAlive then some ⟨e.hub, .viewUpdate e.view e.sub none⟩ else none)) }))

/-- EXPORT_KEEP_ALIVE of an export with step count 8 and nothing due: it is due KEEP ALIVE, and in RUNNING, with no other
export due, no update waiting and room in the view queue, its VIEW UPDATE without content is in the queue and its due
mark and step count are cleared; otherwise it changes nothing but hub time. SUBSCRIBE at a RUNNING hub from a known
other hub, with the control list empty and room in the control queue: with kind, index and rate in range the export of
that hub and view number, or else the lowest free one, holds the subscription in INITIAL with nothing due and step
count 0, and ACCEPT is in the control queue; with none free FULL is there, and out of range BAD ARGUMENT, with no
export changed. UNSUBSCRIBE removes the exports with its hub, view number and subscription number, and no other. That
EXPORT_KEEP_ALIVE otherwise changes nothing is the model's choice (notes/assumptions/2.md), and so is that a new
subscription takes the lowest free export (notes/assumptions/22.md). After every command but HARDWARE_RESET an export
that was CLEAN is DIRTY when the value of its content has changed, and when it has not CLEAN, or DIRTY where the
command may have changed a value and changed it back (two requests for a section or a mark and a pass at one cycle
step, a cause raised and reset by one cycle frame; notes/assumptions/55.md, the model's deduction), with its
subscription, kind and rate as they were, unless a SUBSCRIBE has renewed it, in INITIAL, or an UNSUBSCRIBE or a re-
formation has removed it. (section 9.3; section 9.2; section 1.6.) -/
def Obligations.Exports : Prop :=
  (∀ (c : Instr) (s s' : State) (j : Fin 16) (e : ExportEntry), (∀ st a b, c ≠ .hardwareReset st a b) →
      exec c s = .next s' → s.vu.exports.get j = some e → e.state = .clean →
      (∃ e', s'.vu.exports.get j = some e' ∧ e'.hub = e.hub ∧ e'.view = e.view
        ∧ ((e'.sub = e.sub ∧ e'.kind = e.kind ∧ e'.rate = e.rate
            ∧ s.leavesClean s' c e.kind e'.state)
          ∨ (e'.state = .initial ∧ e'.due = .none ∧ e'.steps = 0
            ∧ ((∃ t sub kind index rate, c = .subscribe t e.hub e.view sub kind index rate)
              ∨ ∃ t f, c = .dataFrameRemoval t f))))
      ∨ (s'.vu.exports.get j = none
        ∧ ((∃ t, c = .unsubscribe t e.hub e.view e.sub) ∨ (∃ t f, c = .dataFrameRemoval t f) ∨ (∃ t f, c = .roster t f)
          ∨ ∃ t f, c = .returnedCensus t f)))
    ∧ ∀ (s : State) (t : HubTime) (src view : Nat) (sub : BitVec 16) (kind index rate : Nat) (i : Fin 16) (e : ExportEntry),
    (s.vu.exports.get i = some e →
      ∃ s', exec (.exportKeepAlive t i) s = .next s'
        ∧ (if e.steps < 8 ∨ e.due ≠ .none then s.frame s' t []
          else if s.rc.ringState ≠ .running then
            s.frame s' t [.vu] ∧ s'.vu = { s.vu with exports := s.vu.exports.set i (some { e with due := .keepAlive }) }
          else (∀ j, j ≠ i → ∀ d ∈ s.vu.exports.get j, d.due = .none) → s.vu.offered = none → s.rc.viewQueue.length < 16 →
            s.frame s' t [.rc, .vu]
              ∧ s'.vu = { s.vu with exports := s.vu.exports.set i (some { e with due := .none, steps := 0 }) }
              ∧ s'.rc = { s.rc with
                outLeft := s.rc.outLeft - (t - s.hubTime).toNat
                viewQueue := s.rc.viewQueue ++ [⟨e.hub, .viewUpdate e.view e.sub none⟩] }))
    ∧ (s.rc.ringState = .running → s.goodSource src = true →
      (s.vu.controlList = [] → s.rc.controlQueue.length < 8 →
        ∃ s', exec (.subscribe t src view sub kind index rate) s = .next s' ∧ s.frame s' t [.rc, .vu]
          ∧ s'.vu = { s.vu with exports := s'.vu.exports }
          ∧ (match viewKindOf kind index with
            | none => s'.vu = s.vu
                ∧ s'.rc.controlQueue = s.rc.controlQueue ++ [⟨src, .subscribeReply view sub .badArgument⟩]
            | some k =>
              if 4 ≤ rate then s'.vu = s.vu
                ∧ s'.rc.controlQueue = s.rc.controlQueue ++ [⟨src, .subscribeReply view sub .badArgument⟩]
              else if (∃ j, ∃ d ∈ s.vu.exports.get j, d.hub = src ∧ d.view = view) ∨ (∃ j, s.vu.exports.get j = none) then
                s'.rc.controlQueue = s.rc.controlQueue ++ [⟨src, .subscribeReply view sub .accept⟩]
                ∧ ((if ∃ j, ∃ d ∈ s.vu.exports.get j, d.hub = src ∧ d.view = view then
                      (∃ d ∈ s.vu.exports.get i, d.hub = src ∧ d.view = view)
                        ∧ ∀ j < i, ¬ ∃ d ∈ s.vu.exports.get j, d.hub = src ∧ d.view = view
                    else s.vu.exports.get i = none ∧ ∀ j < i, s.vu.exports.get j ≠ none) →
                    s'.vu.exports = s.vu.exports.set i (some ⟨src, view, sub, k, Fin.ofNat 4 rate, .initial, .none, 0⟩))
              else s'.vu = s.vu ∧ s'.rc.controlQueue = s.rc.controlQueue ++ [⟨src, .subscribeReply view sub .full⟩]))
      ∧ ∃ s', exec (.unsubscribe t src view sub) s = .next s' ∧ s.frame s' t [.vu]
        ∧ s'.vu = { s.vu with exports := s'.vu.exports }
        ∧ ∀ j, s'.vu.exports.get j =
            (s.vu.exports.get j).filter (fun d => !(decide (d.hub = src) && decide (d.view = view) && decide (d.sub = sub))))

/-- At a RUNNING hub, for a view that is an import of the source hub, not GONE, with the frame's subscription number:
ACCEPT and a VIEW UPDATE without content set its stale count to 0; FULL and BAD ARGUMENT make it GONE and ready with
notice VIEWS at its owner, and a status code that is none of the table does nothing, which is the model's choice
(notes/assumptions/17.md); a VIEW UPDATE with content sets the stale count to 0, becomes its received content and
makes it DIRTY, but that a CLEAN view that receives the same content stays CLEAN. A SUBSCRIBE REPLY that matches no
view changes nothing but hub time; a VIEW UPDATE that matches none, with the control list empty and room in the
control queue, puts UNSUBSCRIBE there. STALE_COUNT_EXPIRY of an import, not GONE, with a stale count of 10 in RUNNING
makes it STALE, ready with notice VIEWS unless it was STALE, with the next subscription number and a stale count of 0,
and SUBSCRIBE is made again. That STALE_COUNT_EXPIRY below 10 changes nothing is the model's choice
(notes/assumptions/2.md, notes/assumptions/18.md). (section 9.3.) -/
def Obligations.Imports : Prop :=
  ∀ (s : State) (t : HubTime) (src : Nat) (i : Fin 16) (sub : BitVec 16) (st : SubStatus) (content : Option (List Item))
    (v : View), s.rc.ringState = .running → s.goodSource src = true →
    (s.vu.views.get i = some v → v.target = some src → v.state ≠ .gone →
      (v.sub = sub →
        (∃ s', exec (.subscribeReply t src i.val sub st) s = .next s' ∧ s.frame s' t [.vu, .cp]
          ∧ (match st with
            | .accept => s'.cp = s.cp ∧ s'.vu = { s.vu with views := s.vu.views.set i (some { v with stale := 0 }) }
            | .unlisted _ => s.frame s' t []
            | .full | .badArgument =>
              s'.vu = { s.vu with views := s.vu.views.set i (some { v with state := .gone, ready := true }) }
                ∧ s'.cp = s.cp.withPort v.owner { s.port v.owner with pending := (s.port v.owner).pending ||| 4#11 }))
        ∧ ∃ s', exec (.viewUpdate t src i.val sub content) s = .next s' ∧ s.frame s' t [.vu]
          ∧ s'.vu = { s.vu with views := s.vu.views.set i (some (match content with
              | none => { v with stale := 0 }
              | some c => { v with
                stale := 0, received := some c
                state := if v.state = .clean ∧ v.received = some c then .clean else .dirty })) })
      ∧ (10 ≤ v.stale → s.vu.controlList = [] → s.rc.controlQueue.length < 8 →
        ∃ s', exec (.staleCountExpiry t i) s = .next s' ∧ s.frame s' t [.rc, .vu, .cp]
          ∧ s'.vu = { s.vu with
              subCount := s.vu.subCount + 1
              views := s.vu.views.set i (some { v with
                state := .stale
                ready := if v.state = .stale then v.ready else true
                sub := s.vu.subCount + 1
                stale := 0 }) }
          ∧ s'.cp = (if v.state = .stale then s.cp
            else s.cp.withPort v.owner { s.port v.owner with pending := (s.port v.owner).pending ||| 4#11 })
          ∧ s'.rc.controlQueue = s.rc.controlQueue ++
              [⟨src, .subscribe i.val (s.vu.subCount + 1) v.kind.codes.1 v.kind.codes.2 v.rate.val⟩])
      ∧ (v.stale < 10 → ∃ s', exec (.staleCountExpiry t i) s = .next s' ∧ s.frame s' t []))
    ∧ ((∀ v ∈ s.vu.views.get i, v.target ≠ some src ∨ v.state = .gone ∨ v.sub ≠ sub) →
      (∃ s', exec (.subscribeReply t src i.val sub st) s = .next s' ∧ s.frame s' t [])
      ∧ (s.vu.controlList = [] → s.rc.controlQueue.length < 8 →
        ∃ s', exec (.viewUpdate t src i.val sub content) s = .next s' ∧ s.frame s' t [.rc]
          ∧ s'.rc.controlQueue = s.rc.controlQueue ++ [⟨src, .unsubscribe i.val sub⟩]))

/-- A permitted TRIM NUDGE for the hub itself, or at a hub without an address, of an existing slot is answered NOT RUNNING
in CONFLICT, BAD STATE for a VACANT slot with an empty list, FULL for a list of 8, and otherwise joins the list,
clamped to the latest nudge limit, and is answered CLAMPED or POSTED. At a hub with an address, for another hub it is
answered BAD ARGUMENT for a hub not below the hub count (at a hub with no count always, the model's choice,
notes/assumptions/52.md), NOT RUNNING outside RUNNING, BUSY with 16 frames in the control list, and otherwise waits
under the next edit reference, its EDIT at the end of the control list, from which the control queue takes as many
frames, oldest first, as it has room for. EDIT at a RUNNING hub from a known other hub is judged as the nudge of its
own, and its EDIT REPLY, with the amount as posted and the serial, joins the reply store, from which the control queue
takes in the same way; a slot of 16 or above gives BAD ARGUMENT, its serial open (a free value,
notes/assumptions/32.md); with four replies in the store the EDIT changes nothing. EDIT REPLY from the nudge's target
with its reference answers the nudge with its status and amount and serial; NUDGE_TIMEOUT after 16 steps answers it
TIMEOUT; the nudge waits no longer. That NUDGE_TIMEOUT below 16 steps changes nothing is the model's choice
(notes/assumptions/2.md, notes/assumptions/18.md). A status that its table does not list is handed on as it is, which
is its choice (notes/assumptions/17.md). (section 3.3; section 9.4.) -/
def Obligations.Nudges : Prop :=
  ∀ (s : State) (t : HubTime) (p : PortNo) (g : Tag) (i : SlotNo) (a : Int) (h src : Nat) (ref serial : BitVec 16)
    (st : Status) (n : Nudge) (c : Int), c = max (-((s.slot i).latest.nudgeLimit : Int)) (min a (s.slot i).latest.nudgeLimit) →
    (s.takes p g [.desk, .panel] → (s.rc.hubAddress = none ∨ s.rc.hubAddress = some h) →
      ∃ s', exec (.trimNudge t p g (some h) (some i.val) (some a)) s = .next s' ∧ s.frame s' t [.se, .cp]
        ∧ (if s.rc.ringState = .conflict then s'.se = s.se ∧ s'.cp = s.cp.answered p g .notRunning []
          else if (s.slot i).state = .vacant ∧ (s.slot i).posted = [] then
            s'.se = s.se ∧ s'.cp = s.cp.answered p g .badState []
          else if 8 ≤ (s.slot i).posted.length then s'.se = s.se ∧ s'.cp = s.cp.answered p g .full []
          else
            s'.se = { s.se with
              slots := s.se.slots.set i { s.slot i with posted := (s.slot i).posted ++ [⟨some p, .nudge c⟩] } }
            ∧ s'.cp = s.cp.answered p g (if c = a then .posted else .clamped) []))
    ∧ (s.takes p g [.desk, .panel] → (∃ x ∈ s.rc.hubAddress, x ≠ h) →
      ∃ s', exec (.trimNudge t p g (some h) (some i.val) (some a)) s = .next s'
        ∧ (if ∀ x ∈ s.rc.hubCount, x ≤ h then s.frame s' t [.cp] ∧ s'.cp = s.cp.answered p g .badArgument []
          else if s.rc.ringState ≠ .running then s.frame s' t [.cp] ∧ s'.cp = s.cp.answered p g .notRunning []
          else if 16 ≤ s.vu.controlList.length then s.frame s' t [.cp] ∧ s'.cp = s.cp.answered p g .busy []
          else
            let all := s.vu.controlList ++ [⟨h, .edit (s.vu.refCount + 1) i.val a⟩]
            let k := 8 - s.rc.controlQueue.length
            s.frame s' t [.rc, .vu, .cp]
              ∧ s'.vu = { s.vu with
                  refCount := s.vu.refCount + 1
                  nudges := s.vu.nudges ++ [⟨p, g, h, s.vu.refCount + 1, 0⟩], controlList := all.drop k }
              ∧ s'.rc.controlQueue = s.rc.controlQueue ++ all.take k ∧ s'.cp = s.cp.waiting p g))
    ∧ (s.rc.ringState = .running → s.goodSource src = true →
      let k := 8 - s.rc.controlQueue.length
      let replied := fun (s' : State) (slots : Table 16 Section) (r : DataPayload) =>
        let all := s.se.replies ++ [⟨src, r⟩]
        s.frame s' t [.rc, .se] ∧ s'.se = { s.se with slots := slots, replies := all.drop k }
          ∧ s'.rc.controlQueue = s.rc.controlQueue ++ all.take k
      (∃ s', exec (.edit t src ref i.val a) s = .next s'
        ∧ (if 4 ≤ s.se.replies.length then s.frame s' t []
          else if (s.slot i).state = .vacant ∧ (s.slot i).posted = [] then
            replied s' s.se.slots (.editReply ref .badState 0 (s.slot i).serial)
          else if 8 ≤ (s.slot i).posted.length then
            replied s' s.se.slots
              (.editReply ref .full 0 ((s.slot i).serial + BitVec.ofNat 16 (s.slot i).posted.length))
          else
            replied s' (s.se.slots.set i { s.slot i with posted := (s.slot i).posted ++ [⟨none, .nudge c⟩] })
              (.editReply ref (if c = a then .posted else .clamped) c
                ((s.slot i).serial + BitVec.ofNat 16 ((s.slot i).posted.length + 1)))))
      ∧ ∀ slot : Nat, 16 ≤ slot → s.se.replies.length < 4 →
        ∃ s' x, exec (.edit t src ref slot a) s = .next s' ∧ replied s' s.se.slots (.editReply ref .badArgument 0 x))
    ∧ (s.rc.ringState = .running → s.goodSource src = true →
      ∃ s', exec (.editReply t src ref st a serial) s = .next s'
        ∧ (match s.vu.nudges.find? (fun n => decide (n.dst = src) && decide (n.ref = ref)) with
          | none => s.frame s' t []
          | some n =>
            s.frame s' t [.vu, .cp] ∧ s'.vu = { s.vu with nudges := s.vu.nudges.erase n }
              ∧ s'.cp = s.cp.withPort n.port ((s.port n.port).ready n.tag st (valuesBytes [val 4 a, vbits 2 serial]))))
    ∧ (s.vu.nudges.find? (fun n => decide (n.ref = ref) && decide (16 ≤ n.steps)) = some n →
      ∃ s', exec (.nudgeTimeout t ref) s = .next s' ∧ s.frame s' t [.vu, .cp]
        ∧ s'.vu = { s.vu with nudges := s.vu.nudges.erase n }
        ∧ s'.cp = s.cp.withPort n.port ((s.port n.port).ready n.tag .timeout []))
    ∧ ((∀ n ∈ s.vu.nudges, n.ref = ref → n.steps < 16) →
      ∃ s', exec (.nudgeTimeout t ref) s = .next s' ∧ s.frame s' t [])

/-- PUT of a header and a payload, and any bytes after them, where the payload length of the header is that of the
payload, at most 1,040: when the kind is one of the catalogue and the payload is well formed for it, the PUT acts
exactly as the command row that it spells, with the header's tag, whether it is taken or not and permitted or not.
What of the spelling the tables leave open is the model's choice (notes/assumptions/17.md). (section 10.1; section
10.2; section 11.2; section 11.4.) -/
def Obligations.PutSpellsItsRow : Prop :=
  ∀ (s : State) (t : HubTime) (p : PortNo) (kind b1 b2 : Byte) (payload more : List Byte) (l : List Item) (c : Instr),
    payload.length ≤ 1040 → b1.toNat % 8 * 256 + b2.toNat = payload.length → checkForm kind.toNat payload = some l →
    requestOf t p (headerTag b1) kind.toNat l = some c →
    exec (.put t p (kind :: b1 :: b2 :: (payload ++ more))) s = exec c s

/-- A PUT shorter than its header and its payload length, or with a payload length above 1,040, is discarded: FRAME ERROR
at the port and its count one up. A whole one with four requests outstanding is dropped with OVERRUN and its count one
up, and one with an outstanding tag is discarded with FRAME ERROR. Otherwise the tag is outstanding, and the answer is
UNKNOWN KIND for a kind that is none of the catalogue, NOT PERMITTED for a role that may not issue it, and BAD
ARGUMENT for a payload that fails the form check. Nothing else changes. That the kind is judged before the role, so
that an unknown kind is answered so at a port of role NONE too, is the model's choice (notes/assumptions/17.md).
(section 10.1; section 10.2; section 11.4.) -/
def Obligations.PutsThatSpellNone : Prop :=
  ∀ (s : State) (t : HubTime) (p : PortNo) (kind b1 b2 : Byte) (rest : List Byte),
    (∀ bytes : List Byte, (bytes.length < 3 ∨ (bytes = kind :: b1 :: b2 :: rest
        ∧ (1040 < b1.toNat % 8 * 256 + b2.toNat ∨ rest.length < b1.toNat % 8 * 256 + b2.toNat))) →
      ∃ s', exec (.put t p bytes) s = .next s' ∧ s.frame s' t [.cp] ∧ s'.cp = s.cp.withPort p (s.port p).faulted)
    ∧ (b1.toNat % 8 * 256 + b2.toNat ≤ 1040 → b1.toNat % 8 * 256 + b2.toNat ≤ rest.length →
      ∃ s', exec (.put t p (kind :: b1 :: b2 :: rest)) s = .next s'
        ∧ (if (s.port p).outstanding = 15#4 then
            s.frame s' t [.cp] ∧ s'.cp = s.cp.withPort p { s.port p with
              pending := (s.port p).pending ||| 1024#11
              overruns := if (s.port p).overruns < 65535 then (s.port p).overruns + 1 else 65535 }
          else if (s.port p).outstanding.getLsbD (b1.toNat / 64) = true then
            s.frame s' t [.cp] ∧ s'.cp = s.cp.withPort p (s.port p).faulted
          else match requestRoles kind.toNat with
            | none => s.frame s' t [.cp] ∧ s'.cp = s.cp.answered p (headerTag b1) .unknownKind []
            | some roles =>
              if (s.port p).role ∉ roles then
                s.frame s' t [.cp] ∧ s'.cp = s.cp.answered p (headerTag b1) .notPermitted []
              else if checkForm kind.toNat (rest.take (b1.toNat % 8 * 256 + b2.toNat)) = none then
                s.frame s' t [.cp] ∧ s'.cp = s.cp.answered p (headerTag b1) .badArgument []
              else (s'.port p).outstanding = (s.port p).outstanding ||| (1#4 <<< (headerTag b1).val)))

/-- GET with none in progress fixes what it returns: the oldest response, with its header of tag and number of ready
responses, the response mark, status, payload length and the reported notices, those pending and enabled, and then its
payload, or without a response the idle header. GET_COMPLETION after at least that many bytes ends the GET: the
response has left the queue and its tag is free, and the reported notices are no longer pending. The bytes that the
lines gave are recorded at the port: those of the frame as far as they were clocked out, and 00h for each byte clocked
out after its end, which has no other effect (the record is the model's own, notes/assumptions/54.md). After fewer
bytes nothing leaves, FRAME ERROR is pending at the port and its count is one up. VOID_TRANSACTION with a byte that
names neither PUT nor GET gives the same frame error, and nothing else changes. ATN of a port is asserted exactly
while a response is ready there or an enabled notice pending, so after every command that makes one ready or sets one;
no command but a GET_COMPLETION of that port and HARDWARE_RESET makes it fall, and it is not asserted after
HARDWARE_RESET with inactive lines. (section 10.1; section 10.3; section 11.4.) -/
def Obligations.GetsAndVoids : Prop :=
  ∀ (s : State) (t : HubTime) (p : PortNo) (n : Nat) (b : Byte) (f : GetFixed),
    ((s.port p).getting = none →
      ∃ s', exec (.get t p) s = .next s' ∧ s.frame s' t [.cp]
        ∧ s'.cp = s.cp.withPort p { s.port p with
          getting := some {
            response := (s.port p).responses.head?
            reported := (s.port p).pending &&& (s.port p).enabled
            bytes := match (s.port p).responses with
              | r :: _ =>
                [BitVec.ofNat 8 (r.tag.val * 64 + (s.port p).responses.length % 8 * 8 + 4),
                 BitVec.ofNat 8 (Status.code r.status)] ++ beBytes 2 r.payload.length
                  ++ beBytes 2 ((s.port p).pending &&& (s.port p).enabled).toNat ++ r.payload
              | [] => [0#8, 255#8, 0#8, 0#8] ++ beBytes 2 ((s.port p).pending &&& (s.port p).enabled).toNat } })
    ∧ ((s.port p).getting = some f →
      ∃ s', exec (.getCompletion t p n) s = .next s' ∧ s.frame s' t [.cp]
        ∧ (if n < f.bytes.length then s'.cp = s.cp.withPort p { (s.port p).faulted with
            getting := none, shifted := f.bytes.take n }
          else match f.response with
            | some r => s'.cp = s.cp.withPort p { s.port p with
                getting := none
                shifted := f.bytes ++ List.replicate (n - f.bytes.length) 0#8
                pending := (s.port p).pending &&& ~~~f.reported
                responses := (s.port p).responses.tail
                outstanding := (s.port p).outstanding &&& ~~~(1#4 <<< r.tag.val) }
            | none => s'.cp = s.cp.withPort p { s.port p with
                getting := none
                shifted := f.bytes ++ List.replicate (n - f.bytes.length) 0#8
                pending := (s.port p).pending &&& ~~~f.reported }))
    ∧ (b ∉ [0x50#8, 0x51#8, 0xA0#8, 0xA1#8] →
      ∃ s', exec (.voidTransaction t p b) s = .next s' ∧ s.frame s' t [.cp]
        ∧ s'.cp = s.cp.withPort p (s.port p).faulted)
    ∧ (∀ q : Port, q.atn = true ↔ q.responses ≠ [] ∨ ∃ i < 11, q.pending.getLsbD i = true ∧ q.enabled.getLsbD i = true)
    ∧ (∀ (c : Instr) (s' : State), exec c s = .next s' → (∀ u m, c ≠ .getCompletion u p m) →
        (∀ st x y, c ≠ .hardwareReset st x y) → (s.port p).atn = true → (s'.port p).atn = true)
    ∧ ∀ st : Straps, ∃ s', exec (.hardwareReset st false false) s = .next s' ∧ (s'.port p).atn = false

/-- A permitted NOTICE ROUTE with pairs of distinct routable kinds and sets of ports 0 to 3 stores the set of every named
kind, leaves the others, and is answered DONE; a pair of another kind or with a port beyond 3, or a kind named twice,
is answered BAD ARGUMENT and stores nothing, and so is a request with no pair, which is the model's choice
(notes/assumptions/16.md). A permitted NOTICE ENABLE of a set of the eleven kinds stores it as the port's enabled set,
leaves the pending set, and is answered DONE; a value of another bit is answered BAD ARGUMENT. Nothing else changes.
(section 10.3.) -/
def Obligations.NoticeRequests : Prop :=
  ∀ (s : State) (t : HubTime) (p : PortNo) (g : Tag) (pairs : List (Nat × Nat)) (v : Nat) (k : Notice),
    (s.takes p g [.desk] →
      ∃ s', exec (.noticeRoute t p g pairs) s = .next s' ∧ s.frame s' t [.cp]
        ∧ (if pairs = [] ∨ (∃ q ∈ pairs, q.1 ∉ [1, 3, 4, 5, 6, 7, 8] ∨ 16 ≤ q.2) ∨ ¬ (pairs.map (fun q => q.1)).Nodup then
            s'.cp = s.cp.answered p g .badArgument []
          else
            s'.cp = { s.cp.answered p g .done [] with routes := s'.cp.routes }
              ∧ s'.cp.routes.of k = (match pairs.find? (fun q => q.1 == k.index) with
                | some q => BitVec.ofNat 4 q.2
                | none => s.cp.routes.of k)))
    ∧ (s.takes p g [.drive, .vision, .panel, .desk] →
      ∃ s', exec (.noticeEnable t p g (some v)) s = .next s' ∧ s.frame s' t [.cp]
        ∧ (if v < 2048 then
            s'.cp = s.cp.withPort p { ((s.port p).taken g).ready g .done [] with enabled := BitVec.ofNat 11 v }
          else s'.cp = s.cp.answered p g .badArgument []))

/-- For every command: when at every port the tags outstanding are exactly those of its ready responses and of its
requests that wait in a block, each once, and a GET in progress that returns a response returns the oldest, this holds
after it. No port then has more than 4 responses ready. (section 10.1.) -/
def Obligations.PortLaw : Prop :=
  (∀ (c : Instr) (s s' : State), s.portLaw = true → s.getLaw = true → exec c s = .next s' →
      s'.portLaw = true ∧ s'.getLaw = true)
    ∧ ∀ (s : State) (p : PortNo), s.portLaw = true → (s.port p).responses.length ≤ 4

/-- A permitted HUB INFO, SHAFT READ, SECTION READ, REGISTER READ, TRIP READ, RECORD READ, STRIP READ or STRIP LIST is
answered at once, whatever it names, and changes nothing else. Answered DONE are: SHAFT READ with the hub time, the
tracker's flags, angle, V, cycle number and history, newest entry first, and at the master the generator's items, its
effective target, by the effective class alone (the model's choice, notes/assumptions/38.md), and whether it is at
rest; REGISTER READ of one existing loop with all its items, whether it is active and the judged angle, and of one
input with its seven items; STRIP LIST from an index below 256 with its five totals and up to 16 strips in directory
order from the index, each with its fields, age position and pins; HUB INFO with its five parts, those of the Ring
Controller, the Image Mover (its claims counted as the model chooses, notes/assumptions/46.md), the Mark Scanner, the
straps, and the ports with the routing table, the request's own tag outstanding; TRIP READ with the trip state, the
classes and mask, the cause set, the matrix, the lines, the record count, the records and the current one; SECTION
READ of an existing slot with its state, its nine fields at their latest values and Ct, each with its PENDING flag,
and its other values as they stand; RECORD READ of a captured record with the fields of R109 in their order; and STRIP
READ of bytes within the fill level of a strip that is not RECEIVING with those bytes. The items of a payload stand in
the order of their rules and are numbered from 1 (what the tables leave open of it is the model's choice,
notes/assumptions/17.md), with the counts of HUB INFO as notes/assumptions/42.md has them where none is running; that
a RECORD READ means the older of two kept records of one number is its choice too (notes/assumptions/44.md). (section
1.8; section 2.6; section 3.3; section 4.5; section 5.5; section 6.4; section 7.7; section 8.5; section 10.2; section
11.1; section 11.2.) -/
def Obligations.ReadsChangeNothing : Prop :=
  ∀ (s : State) (t : HubTime) (p : PortNo) (g : Tag) (a b c : Option Nat) (sel : Option RecordSel) (i : SlotNo)
    (id off n : Nat) (x : Strip) (r : TripRecord) (k : Fin 256) (j : Fin 8),
    (∀ q ∈ [Instr.hubInfo t p g, .shaftRead t p g, .sectionRead t p g a, .registerRead t p g a b, .tripRead t p g,
        .stripList t p g a],
      s.takes p g [.drive, .vision, .panel, .desk] →
      ∃ s', exec q s = .next s' ∧ s.frame s' t [.cp] ∧ ∃ st bytes, s'.cp = s.cp.answered p g st bytes)
    ∧ (∀ q ∈ [Instr.recordRead t p g sel, .stripRead t p g a b c], s.takes p g [.desk, .panel] →
      ∃ s', exec q s = .next s' ∧ s.frame s' t [.cp] ∧ ∃ st bytes, s'.cp = s.cp.answered p g st bytes)
    ∧ (s.takes p g [.drive, .vision, .panel, .desk] →
      (∃ s', exec (.shaftRead t p g) s = .next s' ∧ s'.cp = s.cp.answered p g .done
        (let own := fun (n : Nat) (v : Int) => if s.isMaster = true then val n v else none
        let h := s.su.tracker
        let d := s.su.gen
        valuesBytes [vbits 4 t,
          val 1 ((if h.flags.atRest then 8 else 0) + (if h.flags.inching then 4 else 0) + (if h.flags.tripDecel then 2 else 0)),
          vbits 5 h.angle, val 4 h.lastV, vbits 2 h.lastCycle,
          vlist (h.history.reverse.map (fun e =>
            valuesBytes [vbits 2 e.cycle, vbits 4 e.p, vbits 3 e.theta, val 3 e.delta, vflag e.extrapolated, vflag e.late])),
          own 4 d.vt, own 4 d.vi, own 3 d.a, own 3 d.dn, own 3 d.de, own 4 d.vmax, own 4 d.v, own 5 d.angle.toNat,
          own 1 (if d.inching then 1 else 0), own 4 s.target, own 1 (if d.v = 0 ∧ s.target = 0 then 1 else 0)]))
      ∧ (∃ s', exec (.registerRead t p g (some i.val) none) s = .next s' ∧ s'.cp = s.cp.answered p g .done
        (let l := s.loop i
        valuesBytes [vflag l.enable, val 1 l.state.code, some l.source.bytes, val 1 l.search.channel,
          val 2 l.search.startColumn, val 1 l.search.direction.code, val 1 l.search.threshold, val 1 l.search.runLength,
          vbits 3 l.mexp, val 3 l.window, val 2 l.deadband, val 1 l.gain, val 1 l.missLimit, val 4 l.minSpeed,
          val 1 l.misses, vflag l.markSeen, vopt 3 l.lastE, vopt 4 l.lastEs, vopt 4 l.lastC, val 2 l.strays,
          vopt 3 l.lastStrayE,
          vflag (decide (l.enable = true ∧ (s.slot i).state = .coupled ∧ (l.minSpeed : Int) ≤ s.su.tracker.lastV)),
          s.ru.judged.map (fun a => beBytes 3 a.toNat)]))
      ∧ (∃ s', exec (.registerRead t p g none (some j.val)) s = .next s' ∧ s'.cp = s.cp.answered p g .done
        (let m := s.ru.inputs.get j
        valuesBytes [val 1 (if m.edge = .falling then 1 else 0), val 2 m.holdOff, vbits 2 m.map,
          m.pending.map (fun u => beBytes 4 u.toNat), vflag m.holdOffUntil.isSome,
          m.lastCapture.map (fun c => match c.angle with
            | .unresolved => valuesBytes [vbits 4 c.time, val 1 2]
            | .unknown => valuesBytes [vbits 4 c.time, val 1 1]
            | .angle a => valuesBytes [vbits 4 c.time, val 1 0, vbits 3 a]),
          val 2 m.dropped]))
      ∧ (∃ s', exec (.stripList t p g (some k.val)) s = .next s' ∧ s'.cp = s.cp.answered p g .done
        (valuesBytes [val 2 s.is.strips.length, val 2 s.is.free.length,
          val 2 ((s.is.strips.filter (fun y => decide (y.freezeSet ≠ []))).map (fun y => y.tiles.length)).sum,
          vflag (decide (s.tu.state = .capture)), val 1 s.is.span,
          vlist (((s.is.strips.drop k.val).take 16).map (fun y => valuesBytes [val 2 y.id,
            some (match y.origin with
              | .here q => valuesBytes [val 1 0, val 1 q.val]
              | .remote h u => valuesBytes [val 1 1, val 1 h, val 2 u]),
            val 1 y.camera.val, val 1 (if y.mode = .cmyk then 1 else 0), val 2 y.width, val 1 y.rows, val 3 y.byteSize,
            val 3 y.fill, vflag y.complete, some y.stamp.bytes, voptNat 1 (s.is.age.findIdx? (fun u => u == y.id)),
            vbits 4 (y.sending.foldl (fun m h => m ||| 1#32 <<< h) 0), vflag y.receiving, vflag y.scanning,
            vlist (y.freezeSet.map (fun u => beBytes 2 u.toNat)), vlist (y.holds.list.map (fun u => beBytes 1 u))]))]))
      ∧ (∃ s', exec (.hubInfo t p g) s = .next s' ∧ s'.cp = s.cp.answered p g .done
        (let e := s.rc
        let m := s.im
        let timer := if m.sender = .idle then none else some (m.timer.getD ⟨0, 0⟩)
        valuesBytes [
          some (valuesBytes [val 1 e.ringState.code, vflag e.tooMany, vflag s.isMaster, voptNat 1 e.hubAddress,
            voptNat 1 e.hubCount, e.period.map (fun u => beBytes 1 u.val),
            voptNat 3 (if s.isMaster = true then e.dpub else match e.lastCycle with
              | some u => some u.dpub
              | none => e.dpub),
            val 2 e.cableComp, val 1 (if s.isMaster = true then e.failedReturns else e.missedDeadlines),
            val 2 e.corruptCount, val 2 e.undeliverableCount]),
          some (valuesBytes [val 1 m.sendQueue.length, vlist (m.sendQueue.map (fun u => valuesBytes [val 2 u.1, val 1 u.2])),
            val 1 m.sender.code, m.transfer.map (fun u => beBytes 2 u.strip), m.transfer.map (fun u => beBytes 1 u.dst),
            m.transfer.map (fun u => beBytes 2 u.number.toNat), m.transfer.map (fun u => beBytes 1 u.attempt),
            m.transfer.map (fun u => beBytes 2 u.segCount), m.transfer.map (fun u => beBytes 2 u.nextSeg),
            timer.map (fun u => beBytes 1 u.count), timer.map (fun u => beBytes 1 u.limit),
            vlist (m.contexts.list.map (fun u => match u with
              | none => valuesBytes [val 1 0]
              | some v => valuesBytes [val 1 1, val 1 v.src, val 2 v.srcStrip, vbits 2 v.number, val 2 v.strip,
                  val 2 v.segCount, val 2 v.nextSeg, val 1 v.timer])),
            val 1 m.store.length, val 1 m.claims, vbits 2 m.transferCount, val 2 m.transfersDone, val 2 m.transfersDropped,
            val 2 m.receptionsDone, val 2 m.receptionsAbandoned, val 2 m.notMade, val 2 m.abortsToSender,
            m.lastAbort.map (fun u => beBytes 1 (abortReasonCode u))]),
          some (valuesBytes [val 1 s.ms.queue.length,
            vlist (s.ms.queue.map (fun u => valuesBytes [val 2 u.strip, val 1 u.slot.val])),
            s.ms.scan.map (fun u => valuesBytes [val 2 u.job.strip, val 1 u.job.slot.val]),
            s.ms.scan.map (fun u => entriesBytes (u.rows.map (fun v => beBytes 1 v))),
            s.ms.scan.map (fun u => beBytes 2 u.startColumn), s.ms.scan.map (fun u => beBytes 1 u.search.direction.code),
            s.ms.scan.map (fun u => beBytes 1 u.search.channel), s.ms.scan.map (fun u => beBytes 1 u.search.threshold),
            s.ms.scan.map (fun u => beBytes 1 u.search.runLength), s.ms.scan.map (fun u => beBytes 4 u.completeAt.toNat),
            val 2 s.ms.hits, val 2 s.ms.nones, val 2 s.ms.skipped, val 2 s.ms.removed, val 2 s.ms.void]),
          some (valuesBytes ([vflag s.straps.master, val 1 s.straps.period.val]
            ++ s.straps.roles.list.map (fun u => val 1 u.val) ++ [val 1 s.straps.deskSelect.val])),
          some (valuesBytes [
            vlist ((s.cp.waiting p g).ports.list.map (fun u => valuesBytes [val 1 (Role.code u.role), vbits 1 u.outstanding,
              val 1 u.responses.length, vbits 2 u.pending, vbits 2 u.enabled, val 2 u.frameErrors, val 2 u.overruns])),
            vlist ([(1, s.cp.routes.trigger), (3, s.cp.routes.trip), (4, s.cp.routes.notify), (5, s.cp.routes.register),
              (6, s.cp.routes.late), (7, s.cp.routes.ring), (8, s.cp.routes.imageDropped)].map
              (fun u : Nat × BitVec 4 => valuesBytes [val 1 u.1, vbits 1 u.2]))])]))
      ∧ (∃ s', exec (.tripRead t p g) s = .next s' ∧ s'.cp = s.cp.answered p g .done (valuesBytes (s.watched .trips)))
      ∧ ∃ s', exec (.sectionRead t p g (some i.val)) s = .next s'
        ∧ s'.cp = s.cp.answered p g .done
          (let x := s.slot i
          let y := x.posted.foldl Section.changed x
          let named := fun (f : FieldSet → Bool) => x.posted.any (fun c => match c.body with
            | .set g => f g
            | .nudge _ => false)
          let tt := x.posted.any (fun c => match c.body with
            | .set g => g.tt.isSome || g.tmax.isSome
            | .nudge _ => true)
          let item := fun (n : Nat) (v : Int) (pending : Bool) => some (valuesBytes [val n v, vflag pending])
          valuesBytes [val 1 (match x.state with
              | .vacant => 0
              | .idle => 1
              | .coupled => 2
              | .held => 3
              | .released => 4),
            item 1 y.port.val (named (fun g => g.port.isSome)), item 2 y.n (named (fun g => g.n.isSome)),
            item 2 y.d (named (fun g => g.d.isSome)), item 3 y.os (named (fun g => g.os.isSome)),
            item 3 y.tmax (named (fun g => g.tmax.isSome)), item 3 y.tt tt, item 2 y.slew (named (fun g => g.slew.isSome)),
            item 2 y.nudgeLimit (named (fun g => g.nudgeLimit.isSome)), item 1 y.tol (named (fun g => g.tol.isSome)),
            item 4 (y.os + y.tt) (named (fun g => g.os.isSome) || tt), val 2 x.r, vbits 3 x.position, val 4 x.ca,
            vbits 2 x.serial, val 1 x.posted.length, val 1 x.miss,
            val 1 ((if x.atLimit then 1 else 0) + (if x.correcting then 2 else 0) + (if x.late then 4 else 0)
              + (if x.extrapolated then 8 else 0)),
            x.report.map (fun r => valuesBytes [vflag r.ready, vflag r.fault, vflag r.following, vbits 3 r.position]),
            x.published.map (fun r => beBytes 2 r.record.cycle.toNat), x.published.map (fun r => flagByte r.picked)]))
    ∧ (s.takes p g [.desk, .panel] →
      (s.tu.records.find? (fun y => y.number == r.number) = some r → r.capturing = false →
        ∃ s', exec (.recordRead t p g (some (.number r.number))) s = .next s'
          ∧ s'.cp = s.cp.answered p g .done
            (let code := fun c : Cls => beBytes 1 (if c = .sync then 1 else if c = .quick then 2 else if c = .coast then 3 else 0)
            let pair := fun c : CausePair => beBytes 1 c.cause.number ++ beBytes 1 (match c.slot with
              | some i => i.val
              | none => 255)
            beBytes 2 r.number.toNat ++ pair r.first ++ code r.entryClass ++ code r.highest ++ beBytes 2 r.cycle.toNat
              ++ beBytes 4 r.time.toNat ++ beBytes 5 r.angle.toNat ++ beBytes 4 r.v ++ beBytes 4 r.mask.toNat
              ++ beBytes 1 r.snapshots.length
              ++ r.snapshots.flatMap (fun x => beBytes 1 x.slot.val ++ beBytes 1 (match x.state with
                  | .vacant => 0
                  | .idle => 1
                  | .coupled => 2
                  | .held => 3
                  | .released => 4) ++ beBytes 3 x.position.toNat ++ beBytes 4 x.ca ++ beBytes 4 x.ct)
              ++ beBytes 1 r.secondary.length ++ r.secondary.flatMap pair ++ beBytes 1 r.frozen.length
              ++ r.frozen.flatMap (fun i => beBytes 2 i) ++ [if r.capturing then 1#8 else 0#8]))
      ∧ (s.is.strips.find? (fun y => y.id == id) = some x → x.receiving = false → 1 ≤ n → n ≤ 1024 → off + n ≤ x.fill →
        ∃ s', exec (.stripRead t p g (some id) (some off) (some n)) s = .next s'
          ∧ s'.cp = s.cp.answered p g .done
            ((List.range n).map (fun j => memRead s.is.mem (tileAddr x.tiles (off + j))))))

/-- After hardware reset with any straps and any line levels the laws of the generator, the history, the trim and the
gear, the trip states, the cause set, the census timer, the store, the freeze and the ports hold; so they do in the
model's reset state. (section 2.2; section 2.4; section 3.2; section 3.3; section 5.3; section 6.1; section 6.5;
section 10.1.) -/
def Obligations.ResetMeetsTheLaws : Prop :=
  ∀ (st : Straps) (low brk : Bool) (s : State),
    ∃ s', exec (.hardwareReset st low brk) s = .next s'
      ∧ (∀ x ∈ [s', State.reset], x.su.gen.lawful = true ∧ x.su.gen.ratesInRange = true ∧ x.su.tracker.bounded = true
        ∧ x.trimLaw = true ∧ x.listsBounded = true ∧ x.gearLaw = true ∧ x.tripLaw = true ∧ x.causesLaw = true ∧ x.censusLaw = true
        ∧ x.storeLaw = true ∧ x.freezeLaw = true
        ∧ x.portLaw = true ∧ x.getLaw = true)
end

