-- ==== Sys2Proof/Laws/Arith.lean ====
section
/-! SUPPORT. The arithmetic operations: clamping, saturating counts, differences of hub times and arguments in range. -/

namespace Sys2Proof.Machine

theorem clampInt_eq (lo hi v : Int) (h : lo ≤ hi) : clampInt lo hi v = max lo (min v hi) := by
  unfold clampInt; split <;> [omega; split <;> omega]

theorem clampNat_eq (lo hi v : Nat) (h : lo ≤ hi) : clampNat lo hi v = max lo (min v hi) := by
  unfold clampNat; split <;> [omega; split <;> omega]

/-- A clamped value lies in the range. -/
theorem clampInt_range (lo hi v : Int) (h : lo ≤ hi) : lo ≤ clampInt lo hi v ∧ clampInt lo hi v ≤ hi := by
  rw [clampInt_eq lo hi v h]; omega

/-- A clamped value lies in the range. -/
theorem clampNat_range (lo hi v : Nat) (h : lo ≤ hi) : lo ≤ clampNat lo hi v ∧ clampNat lo hi v ≤ hi := by
  rw [clampNat_eq lo hi v h]; omega

/-- Clamping leaves exactly the values of the range. -/
theorem clampInt_eq_self (lo hi v : Int) (h : lo ≤ hi) : clampInt lo hi v = v ↔ lo ≤ v ∧ v ≤ hi := by
  rw [clampInt_eq lo hi v h]; omega

/-- Clamping leaves exactly the values of the range. -/
theorem clampNat_eq_self (lo hi v : Nat) (h : lo ≤ hi) : clampNat lo hi v = v ↔ lo ≤ v ∧ v ≤ hi := by
  rw [clampNat_eq lo hi v h]; omega

theorem satInc_eq (n : Nat) (h : n ≤ 65535) : satInc n = min 65535 (n + 1) := by unfold satInc; split <;> omega

theorem ceilDiv_eq_zero (b : Nat) (h : 0 < b) : ceilDiv 0 b = 0 := by
  unfold ceilDiv; exact Nat.div_eq_of_lt (by omega)

@[simp] theorem sdiff_self {w : Nat} (a : BitVec w) : sdiff a a = 0 := by simp [sdiff]

@[simp] theorem isDue_self (t : HubTime) : isDue t t = true := by simp [isDue]

theorem isDue_iff (target now : HubTime) : isDue target now = true ↔ sdiff target now ≤ 0 := by simp [isDue]

@[simp] theorem later_zero (t : HubTime) : later t 0 = t := by simp [later]

theorem later_later (t : HubTime) (a b : Nat) : later (later t a) b = later t (a + b) := by
  simp [later, BitVec.add_assoc, ← BitVec.ofNat_add]

theorem toFin_some {k n : Nat} (h : n < k) : toFin k n = some ⟨n, h⟩ := by simp [toFin, h]

theorem toFin_none {k n : Nat} (h : k ≤ n) : toFin k n = none := by simp [toFin]; omega

@[simp] theorem argFin_val {k : Nat} (i : Fin k) : argFin k (some i.val) = some i := by simp [argFin, toFin]

theorem argFin_beyond {k n : Nat} (h : k ≤ n) : argFin k (some n) = none := by simp [argFin, toFin_none h]

@[simp] theorem argFin_omitted (k : Nat) : argFin k none = none := rfl

theorem beBytes_length (n : Nat) (v : Int) : (beBytes n v).length = n := by simp [beBytes]

end Sys2Proof.Machine
end

