-- ==== Sys2Proof/Laws/State.lean ====
section
/-! SUPPORT. What each update of the state leaves in each field: one lemma for a field and an update, each true by
unfolding, so that no proof unfolds a record update. -/

namespace Sys2Proof.Machine

variable (s : State)

/-! ### `onRc` -/

@[simp] theorem State.onRc_hubTime (f : RC → RC) : (s.onRc f).hubTime = s.hubTime := rfl
@[simp] theorem State.onRc_straps (f : RC → RC) : (s.onRc f).straps = s.straps := rfl
@[simp] theorem State.onRc_rc (f : RC → RC) : (s.onRc f).rc = f s.rc := rfl
@[simp] theorem State.onRc_su (f : RC → RC) : (s.onRc f).su = s.su := rfl
@[simp] theorem State.onRc_se (f : RC → RC) : (s.onRc f).se = s.se := rfl
@[simp] theorem State.onRc_ru (f : RC → RC) : (s.onRc f).ru = s.ru := rfl
@[simp] theorem State.onRc_tu (f : RC → RC) : (s.onRc f).tu = s.tu := rfl
@[simp] theorem State.onRc_is (f : RC → RC) : (s.onRc f).is = s.is := rfl
@[simp] theorem State.onRc_im (f : RC → RC) : (s.onRc f).im = s.im := rfl
@[simp] theorem State.onRc_ms (f : RC → RC) : (s.onRc f).ms = s.ms := rfl
@[simp] theorem State.onRc_vu (f : RC → RC) : (s.onRc f).vu = s.vu := rfl
@[simp] theorem State.onRc_cp (f : RC → RC) : (s.onRc f).cp = s.cp := rfl
@[simp] theorem State.onRc_pending (f : RC → RC) : (s.onRc f).pending = s.pending := rfl

/-! ### `onSu` -/

@[simp] theorem State.onSu_hubTime (f : SU → SU) : (s.onSu f).hubTime = s.hubTime := rfl
@[simp] theorem State.onSu_straps (f : SU → SU) : (s.onSu f).straps = s.straps := rfl
@[simp] theorem State.onSu_rc (f : SU → SU) : (s.onSu f).rc = s.rc := rfl
@[simp] theorem State.onSu_su (f : SU → SU) : (s.onSu f).su = f s.su := rfl
@[simp] theorem State.onSu_se (f : SU → SU) : (s.onSu f).se = s.se := rfl
@[simp] theorem State.onSu_ru (f : SU → SU) : (s.onSu f).ru = s.ru := rfl
@[simp] theorem State.onSu_tu (f : SU → SU) : (s.onSu f).tu = s.tu := rfl
@[simp] theorem State.onSu_is (f : SU → SU) : (s.onSu f).is = s.is := rfl
@[simp] theorem State.onSu_im (f : SU → SU) : (s.onSu f).im = s.im := rfl
@[simp] theorem State.onSu_ms (f : SU → SU) : (s.onSu f).ms = s.ms := rfl
@[simp] theorem State.onSu_vu (f : SU → SU) : (s.onSu f).vu = s.vu := rfl
@[simp] theorem State.onSu_cp (f : SU → SU) : (s.onSu f).cp = s.cp := rfl
@[simp] theorem State.onSu_pending (f : SU → SU) : (s.onSu f).pending = s.pending := rfl

/-! ### `onSe` -/

@[simp] theorem State.onSe_hubTime (f : SE → SE) : (s.onSe f).hubTime = s.hubTime := rfl
@[simp] theorem State.onSe_straps (f : SE → SE) : (s.onSe f).straps = s.straps := rfl
@[simp] theorem State.onSe_rc (f : SE → SE) : (s.onSe f).rc = s.rc := rfl
@[simp] theorem State.onSe_su (f : SE → SE) : (s.onSe f).su = s.su := rfl
@[simp] theorem State.onSe_se (f : SE → SE) : (s.onSe f).se = f s.se := rfl
@[simp] theorem State.onSe_ru (f : SE → SE) : (s.onSe f).ru = s.ru := rfl
@[simp] theorem State.onSe_tu (f : SE → SE) : (s.onSe f).tu = s.tu := rfl
@[simp] theorem State.onSe_is (f : SE → SE) : (s.onSe f).is = s.is := rfl
@[simp] theorem State.onSe_im (f : SE → SE) : (s.onSe f).im = s.im := rfl
@[simp] theorem State.onSe_ms (f : SE → SE) : (s.onSe f).ms = s.ms := rfl
@[simp] theorem State.onSe_vu (f : SE → SE) : (s.onSe f).vu = s.vu := rfl
@[simp] theorem State.onSe_cp (f : SE → SE) : (s.onSe f).cp = s.cp := rfl
@[simp] theorem State.onSe_pending (f : SE → SE) : (s.onSe f).pending = s.pending := rfl

/-! ### `onRu` -/

@[simp] theorem State.onRu_hubTime (f : RU → RU) : (s.onRu f).hubTime = s.hubTime := rfl
@[simp] theorem State.onRu_straps (f : RU → RU) : (s.onRu f).straps = s.straps := rfl
@[simp] theorem State.onRu_rc (f : RU → RU) : (s.onRu f).rc = s.rc := rfl
@[simp] theorem State.onRu_su (f : RU → RU) : (s.onRu f).su = s.su := rfl
@[simp] theorem State.onRu_se (f : RU → RU) : (s.onRu f).se = s.se := rfl
@[simp] theorem State.onRu_ru (f : RU → RU) : (s.onRu f).ru = f s.ru := rfl
@[simp] theorem State.onRu_tu (f : RU → RU) : (s.onRu f).tu = s.tu := rfl
@[simp] theorem State.onRu_is (f : RU → RU) : (s.onRu f).is = s.is := rfl
@[simp] theorem State.onRu_im (f : RU → RU) : (s.onRu f).im = s.im := rfl
@[simp] theorem State.onRu_ms (f : RU → RU) : (s.onRu f).ms = s.ms := rfl
@[simp] theorem State.onRu_vu (f : RU → RU) : (s.onRu f).vu = s.vu := rfl
@[simp] theorem State.onRu_cp (f : RU → RU) : (s.onRu f).cp = s.cp := rfl
@[simp] theorem State.onRu_pending (f : RU → RU) : (s.onRu f).pending = s.pending := rfl

/-! ### `onTu` -/

@[simp] theorem State.onTu_hubTime (f : TU → TU) : (s.onTu f).hubTime = s.hubTime := rfl
@[simp] theorem State.onTu_straps (f : TU → TU) : (s.onTu f).straps = s.straps := rfl
@[simp] theorem State.onTu_rc (f : TU → TU) : (s.onTu f).rc = s.rc := rfl
@[simp] theorem State.onTu_su (f : TU → TU) : (s.onTu f).su = s.su := rfl
@[simp] theorem State.onTu_se (f : TU → TU) : (s.onTu f).se = s.se := rfl
@[simp] theorem State.onTu_ru (f : TU → TU) : (s.onTu f).ru = s.ru := rfl
@[simp] theorem State.onTu_tu (f : TU → TU) : (s.onTu f).tu = f s.tu := rfl
@[simp] theorem State.onTu_is (f : TU → TU) : (s.onTu f).is = s.is := rfl
@[simp] theorem State.onTu_im (f : TU → TU) : (s.onTu f).im = s.im := rfl
@[simp] theorem State.onTu_ms (f : TU → TU) : (s.onTu f).ms = s.ms := rfl
@[simp] theorem State.onTu_vu (f : TU → TU) : (s.onTu f).vu = s.vu := rfl
@[simp] theorem State.onTu_cp (f : TU → TU) : (s.onTu f).cp = s.cp := rfl
@[simp] theorem State.onTu_pending (f : TU → TU) : (s.onTu f).pending = s.pending := rfl

/-! ### `onIs` -/

@[simp] theorem State.onIs_hubTime (f : IS → IS) : (s.onIs f).hubTime = s.hubTime := rfl
@[simp] theorem State.onIs_straps (f : IS → IS) : (s.onIs f).straps = s.straps := rfl
@[simp] theorem State.onIs_rc (f : IS → IS) : (s.onIs f).rc = s.rc := rfl
@[simp] theorem State.onIs_su (f : IS → IS) : (s.onIs f).su = s.su := rfl
@[simp] theorem State.onIs_se (f : IS → IS) : (s.onIs f).se = s.se := rfl
@[simp] theorem State.onIs_ru (f : IS → IS) : (s.onIs f).ru = s.ru := rfl
@[simp] theorem State.onIs_tu (f : IS → IS) : (s.onIs f).tu = s.tu := rfl
@[simp] theorem State.onIs_is (f : IS → IS) : (s.onIs f).is = f s.is := rfl
@[simp] theorem State.onIs_im (f : IS → IS) : (s.onIs f).im = s.im := rfl
@[simp] theorem State.onIs_ms (f : IS → IS) : (s.onIs f).ms = s.ms := rfl
@[simp] theorem State.onIs_vu (f : IS → IS) : (s.onIs f).vu = s.vu := rfl
@[simp] theorem State.onIs_cp (f : IS → IS) : (s.onIs f).cp = s.cp := rfl
@[simp] theorem State.onIs_pending (f : IS → IS) : (s.onIs f).pending = s.pending := rfl

/-! ### `onIm` -/

@[simp] theorem State.onIm_hubTime (f : IM → IM) : (s.onIm f).hubTime = s.hubTime := rfl
@[simp] theorem State.onIm_straps (f : IM → IM) : (s.onIm f).straps = s.straps := rfl
@[simp] theorem State.onIm_rc (f : IM → IM) : (s.onIm f).rc = s.rc := rfl
@[simp] theorem State.onIm_su (f : IM → IM) : (s.onIm f).su = s.su := rfl
@[simp] theorem State.onIm_se (f : IM → IM) : (s.onIm f).se = s.se := rfl
@[simp] theorem State.onIm_ru (f : IM → IM) : (s.onIm f).ru = s.ru := rfl
@[simp] theorem State.onIm_tu (f : IM → IM) : (s.onIm f).tu = s.tu := rfl
@[simp] theorem State.onIm_is (f : IM → IM) : (s.onIm f).is = s.is := rfl
@[simp] theorem State.onIm_im (f : IM → IM) : (s.onIm f).im = f s.im := rfl
@[simp] theorem State.onIm_ms (f : IM → IM) : (s.onIm f).ms = s.ms := rfl
@[simp] theorem State.onIm_vu (f : IM → IM) : (s.onIm f).vu = s.vu := rfl
@[simp] theorem State.onIm_cp (f : IM → IM) : (s.onIm f).cp = s.cp := rfl
@[simp] theorem State.onIm_pending (f : IM → IM) : (s.onIm f).pending = s.pending := rfl

/-! ### `onMs` -/

@[simp] theorem State.onMs_hubTime (f : MS → MS) : (s.onMs f).hubTime = s.hubTime := rfl
@[simp] theorem State.onMs_straps (f : MS → MS) : (s.onMs f).straps = s.straps := rfl
@[simp] theorem State.onMs_rc (f : MS → MS) : (s.onMs f).rc = s.rc := rfl
@[simp] theorem State.onMs_su (f : MS → MS) : (s.onMs f).su = s.su := rfl
@[simp] theorem State.onMs_se (f : MS → MS) : (s.onMs f).se = s.se := rfl
@[simp] theorem State.onMs_ru (f : MS → MS) : (s.onMs f).ru = s.ru := rfl
@[simp] theorem State.onMs_tu (f : MS → MS) : (s.onMs f).tu = s.tu := rfl
@[simp] theorem State.onMs_is (f : MS → MS) : (s.onMs f).is = s.is := rfl
@[simp] theorem State.onMs_im (f : MS → MS) : (s.onMs f).im = s.im := rfl
@[simp] theorem State.onMs_ms (f : MS → MS) : (s.onMs f).ms = f s.ms := rfl
@[simp] theorem State.onMs_vu (f : MS → MS) : (s.onMs f).vu = s.vu := rfl
@[simp] theorem State.onMs_cp (f : MS → MS) : (s.onMs f).cp = s.cp := rfl
@[simp] theorem State.onMs_pending (f : MS → MS) : (s.onMs f).pending = s.pending := rfl

/-! ### `onVu` -/

@[simp] theorem State.onVu_hubTime (f : VU → VU) : (s.onVu f).hubTime = s.hubTime := rfl
@[simp] theorem State.onVu_straps (f : VU → VU) : (s.onVu f).straps = s.straps := rfl
@[simp] theorem State.onVu_rc (f : VU → VU) : (s.onVu f).rc = s.rc := rfl
@[simp] theorem State.onVu_su (f : VU → VU) : (s.onVu f).su = s.su := rfl
@[simp] theorem State.onVu_se (f : VU → VU) : (s.onVu f).se = s.se := rfl
@[simp] theorem State.onVu_ru (f : VU → VU) : (s.onVu f).ru = s.ru := rfl
@[simp] theorem State.onVu_tu (f : VU → VU) : (s.onVu f).tu = s.tu := rfl
@[simp] theorem State.onVu_is (f : VU → VU) : (s.onVu f).is = s.is := rfl
@[simp] theorem State.onVu_im (f : VU → VU) : (s.onVu f).im = s.im := rfl
@[simp] theorem State.onVu_ms (f : VU → VU) : (s.onVu f).ms = s.ms := rfl
@[simp] theorem State.onVu_vu (f : VU → VU) : (s.onVu f).vu = f s.vu := rfl
@[simp] theorem State.onVu_cp (f : VU → VU) : (s.onVu f).cp = s.cp := rfl
@[simp] theorem State.onVu_pending (f : VU → VU) : (s.onVu f).pending = s.pending := rfl

/-! ### `onCp` -/

@[simp] theorem State.onCp_hubTime (f : CP → CP) : (s.onCp f).hubTime = s.hubTime := rfl
@[simp] theorem State.onCp_straps (f : CP → CP) : (s.onCp f).straps = s.straps := rfl
@[simp] theorem State.onCp_rc (f : CP → CP) : (s.onCp f).rc = s.rc := rfl
@[simp] theorem State.onCp_su (f : CP → CP) : (s.onCp f).su = s.su := rfl
@[simp] theorem State.onCp_se (f : CP → CP) : (s.onCp f).se = s.se := rfl
@[simp] theorem State.onCp_ru (f : CP → CP) : (s.onCp f).ru = s.ru := rfl
@[simp] theorem State.onCp_tu (f : CP → CP) : (s.onCp f).tu = s.tu := rfl
@[simp] theorem State.onCp_is (f : CP → CP) : (s.onCp f).is = s.is := rfl
@[simp] theorem State.onCp_im (f : CP → CP) : (s.onCp f).im = s.im := rfl
@[simp] theorem State.onCp_ms (f : CP → CP) : (s.onCp f).ms = s.ms := rfl
@[simp] theorem State.onCp_vu (f : CP → CP) : (s.onCp f).vu = s.vu := rfl
@[simp] theorem State.onCp_cp (f : CP → CP) : (s.onCp f).cp = f s.cp := rfl
@[simp] theorem State.onCp_pending (f : CP → CP) : (s.onCp f).pending = s.pending := rfl

/-! ### `onSlot` -/

@[simp] theorem State.onSlot_hubTime (i : SlotNo) (f : Section → Section) : (s.onSlot i f).hubTime = s.hubTime := rfl
@[simp] theorem State.onSlot_straps (i : SlotNo) (f : Section → Section) : (s.onSlot i f).straps = s.straps := rfl
@[simp] theorem State.onSlot_rc (i : SlotNo) (f : Section → Section) : (s.onSlot i f).rc = s.rc := rfl
@[simp] theorem State.onSlot_su (i : SlotNo) (f : Section → Section) : (s.onSlot i f).su = s.su := rfl
@[simp] theorem State.onSlot_se (i : SlotNo) (f : Section → Section) : (s.onSlot i f).se =
    { s.se with slots := s.se.slots.modify i f } := rfl
@[simp] theorem State.onSlot_ru (i : SlotNo) (f : Section → Section) : (s.onSlot i f).ru = s.ru := rfl
@[simp] theorem State.onSlot_tu (i : SlotNo) (f : Section → Section) : (s.onSlot i f).tu = s.tu := rfl
@[simp] theorem State.onSlot_is (i : SlotNo) (f : Section → Section) : (s.onSlot i f).is = s.is := rfl
@[simp] theorem State.onSlot_im (i : SlotNo) (f : Section → Section) : (s.onSlot i f).im = s.im := rfl
@[simp] theorem State.onSlot_ms (i : SlotNo) (f : Section → Section) : (s.onSlot i f).ms = s.ms := rfl
@[simp] theorem State.onSlot_vu (i : SlotNo) (f : Section → Section) : (s.onSlot i f).vu = s.vu := rfl
@[simp] theorem State.onSlot_cp (i : SlotNo) (f : Section → Section) : (s.onSlot i f).cp = s.cp := rfl
@[simp] theorem State.onSlot_pending (i : SlotNo) (f : Section → Section) : (s.onSlot i f).pending = s.pending := rfl

/-! ### `onLoop` -/

@[simp] theorem State.onLoop_hubTime (i : SlotNo) (f : Loop → Loop) : (s.onLoop i f).hubTime = s.hubTime := rfl
@[simp] theorem State.onLoop_straps (i : SlotNo) (f : Loop → Loop) : (s.onLoop i f).straps = s.straps := rfl
@[simp] theorem State.onLoop_rc (i : SlotNo) (f : Loop → Loop) : (s.onLoop i f).rc = s.rc := rfl
@[simp] theorem State.onLoop_su (i : SlotNo) (f : Loop → Loop) : (s.onLoop i f).su = s.su := rfl
@[simp] theorem State.onLoop_se (i : SlotNo) (f : Loop → Loop) : (s.onLoop i f).se = s.se := rfl
@[simp] theorem State.onLoop_ru (i : SlotNo) (f : Loop → Loop) : (s.onLoop i f).ru =
    { s.ru with loops := s.ru.loops.modify i f } := rfl
@[simp] theorem State.onLoop_tu (i : SlotNo) (f : Loop → Loop) : (s.onLoop i f).tu = s.tu := rfl
@[simp] theorem State.onLoop_is (i : SlotNo) (f : Loop → Loop) : (s.onLoop i f).is = s.is := rfl
@[simp] theorem State.onLoop_im (i : SlotNo) (f : Loop → Loop) : (s.onLoop i f).im = s.im := rfl
@[simp] theorem State.onLoop_ms (i : SlotNo) (f : Loop → Loop) : (s.onLoop i f).ms = s.ms := rfl
@[simp] theorem State.onLoop_vu (i : SlotNo) (f : Loop → Loop) : (s.onLoop i f).vu = s.vu := rfl
@[simp] theorem State.onLoop_cp (i : SlotNo) (f : Loop → Loop) : (s.onLoop i f).cp = s.cp := rfl
@[simp] theorem State.onLoop_pending (i : SlotNo) (f : Loop → Loop) : (s.onLoop i f).pending = s.pending := rfl

/-! ### `onInput` -/

@[simp] theorem State.onInput_hubTime (i : Fin 8) (f : MarkInput → MarkInput) : (s.onInput i f).hubTime =
    s.hubTime := rfl
@[simp] theorem State.onInput_straps (i : Fin 8) (f : MarkInput → MarkInput) : (s.onInput i f).straps = s.straps := rfl
@[simp] theorem State.onInput_rc (i : Fin 8) (f : MarkInput → MarkInput) : (s.onInput i f).rc = s.rc := rfl
@[simp] theorem State.onInput_su (i : Fin 8) (f : MarkInput → MarkInput) : (s.onInput i f).su = s.su := rfl
@[simp] theorem State.onInput_se (i : Fin 8) (f : MarkInput → MarkInput) : (s.onInput i f).se = s.se := rfl
@[simp] theorem State.onInput_ru (i : Fin 8) (f : MarkInput → MarkInput) : (s.onInput i f).ru =
    { s.ru with inputs := s.ru.inputs.modify i f } := rfl
@[simp] theorem State.onInput_tu (i : Fin 8) (f : MarkInput → MarkInput) : (s.onInput i f).tu = s.tu := rfl
@[simp] theorem State.onInput_is (i : Fin 8) (f : MarkInput → MarkInput) : (s.onInput i f).is = s.is := rfl
@[simp] theorem State.onInput_im (i : Fin 8) (f : MarkInput → MarkInput) : (s.onInput i f).im = s.im := rfl
@[simp] theorem State.onInput_ms (i : Fin 8) (f : MarkInput → MarkInput) : (s.onInput i f).ms = s.ms := rfl
@[simp] theorem State.onInput_vu (i : Fin 8) (f : MarkInput → MarkInput) : (s.onInput i f).vu = s.vu := rfl
@[simp] theorem State.onInput_cp (i : Fin 8) (f : MarkInput → MarkInput) : (s.onInput i f).cp = s.cp := rfl
@[simp] theorem State.onInput_pending (i : Fin 8) (f : MarkInput → MarkInput) : (s.onInput i f).pending =
    s.pending := rfl

/-! ### `onCamera` -/

@[simp] theorem State.onCamera_hubTime (c : Fin 4) (f : Camera → Camera) : (s.onCamera c f).hubTime = s.hubTime := rfl
@[simp] theorem State.onCamera_straps (c : Fin 4) (f : Camera → Camera) : (s.onCamera c f).straps = s.straps := rfl
@[simp] theorem State.onCamera_rc (c : Fin 4) (f : Camera → Camera) : (s.onCamera c f).rc = s.rc := rfl
@[simp] theorem State.onCamera_su (c : Fin 4) (f : Camera → Camera) : (s.onCamera c f).su = s.su := rfl
@[simp] theorem State.onCamera_se (c : Fin 4) (f : Camera → Camera) : (s.onCamera c f).se = s.se := rfl
@[simp] theorem State.onCamera_ru (c : Fin 4) (f : Camera → Camera) : (s.onCamera c f).ru = s.ru := rfl
@[simp] theorem State.onCamera_tu (c : Fin 4) (f : Camera → Camera) : (s.onCamera c f).tu = s.tu := rfl
@[simp] theorem State.onCamera_is (c : Fin 4) (f : Camera → Camera) : (s.onCamera c f).is =
    { s.is with cameras := s.is.cameras.modify c f } := rfl
@[simp] theorem State.onCamera_im (c : Fin 4) (f : Camera → Camera) : (s.onCamera c f).im = s.im := rfl
@[simp] theorem State.onCamera_ms (c : Fin 4) (f : Camera → Camera) : (s.onCamera c f).ms = s.ms := rfl
@[simp] theorem State.onCamera_vu (c : Fin 4) (f : Camera → Camera) : (s.onCamera c f).vu = s.vu := rfl
@[simp] theorem State.onCamera_cp (c : Fin 4) (f : Camera → Camera) : (s.onCamera c f).cp = s.cp := rfl
@[simp] theorem State.onCamera_pending (c : Fin 4) (f : Camera → Camera) : (s.onCamera c f).pending = s.pending := rfl

/-! ### `onPort` -/

@[simp] theorem State.onPort_hubTime (p : PortNo) (f : Port → Port) : (s.onPort p f).hubTime = s.hubTime := rfl
@[simp] theorem State.onPort_straps (p : PortNo) (f : Port → Port) : (s.onPort p f).straps = s.straps := rfl
@[simp] theorem State.onPort_rc (p : PortNo) (f : Port → Port) : (s.onPort p f).rc = s.rc := rfl
@[simp] theorem State.onPort_su (p : PortNo) (f : Port → Port) : (s.onPort p f).su = s.su := rfl
@[simp] theorem State.onPort_se (p : PortNo) (f : Port → Port) : (s.onPort p f).se = s.se := rfl
@[simp] theorem State.onPort_ru (p : PortNo) (f : Port → Port) : (s.onPort p f).ru = s.ru := rfl
@[simp] theorem State.onPort_tu (p : PortNo) (f : Port → Port) : (s.onPort p f).tu = s.tu := rfl
@[simp] theorem State.onPort_is (p : PortNo) (f : Port → Port) : (s.onPort p f).is = s.is := rfl
@[simp] theorem State.onPort_im (p : PortNo) (f : Port → Port) : (s.onPort p f).im = s.im := rfl
@[simp] theorem State.onPort_ms (p : PortNo) (f : Port → Port) : (s.onPort p f).ms = s.ms := rfl
@[simp] theorem State.onPort_vu (p : PortNo) (f : Port → Port) : (s.onPort p f).vu = s.vu := rfl
@[simp] theorem State.onPort_cp (p : PortNo) (f : Port → Port) : (s.onPort p f).cp =
    { s.cp with ports := s.cp.ports.modify p f } := rfl
@[simp] theorem State.onPort_pending (p : PortNo) (f : Port → Port) : (s.onPort p f).pending = s.pending := rfl

/-! ### `onStrip` -/

@[simp] theorem State.onStrip_hubTime (id : Nat) (f : Strip → Strip) : (s.onStrip id f).hubTime = s.hubTime := rfl
@[simp] theorem State.onStrip_straps (id : Nat) (f : Strip → Strip) : (s.onStrip id f).straps = s.straps := rfl
@[simp] theorem State.onStrip_rc (id : Nat) (f : Strip → Strip) : (s.onStrip id f).rc = s.rc := rfl
@[simp] theorem State.onStrip_su (id : Nat) (f : Strip → Strip) : (s.onStrip id f).su = s.su := rfl
@[simp] theorem State.onStrip_se (id : Nat) (f : Strip → Strip) : (s.onStrip id f).se = s.se := rfl
@[simp] theorem State.onStrip_ru (id : Nat) (f : Strip → Strip) : (s.onStrip id f).ru = s.ru := rfl
@[simp] theorem State.onStrip_tu (id : Nat) (f : Strip → Strip) : (s.onStrip id f).tu = s.tu := rfl
@[simp] theorem State.onStrip_is (id : Nat) (f : Strip → Strip) : (s.onStrip id f).is =
    { s.is with strips := s.is.strips.map (fun p => if p.id = id then f p else p) } := rfl
@[simp] theorem State.onStrip_im (id : Nat) (f : Strip → Strip) : (s.onStrip id f).im = s.im := rfl
@[simp] theorem State.onStrip_ms (id : Nat) (f : Strip → Strip) : (s.onStrip id f).ms = s.ms := rfl
@[simp] theorem State.onStrip_vu (id : Nat) (f : Strip → Strip) : (s.onStrip id f).vu = s.vu := rfl
@[simp] theorem State.onStrip_cp (id : Nat) (f : Strip → Strip) : (s.onStrip id f).cp = s.cp := rfl
@[simp] theorem State.onStrip_pending (id : Nat) (f : Strip → Strip) : (s.onStrip id f).pending = s.pending := rfl

/-! ### `advance` and `withQueue` -/

@[simp] theorem State.advance_hubTime (t : HubTime) : (s.advance t).hubTime = t := rfl
@[simp] theorem State.advance_straps (t : HubTime) : (s.advance t).straps = s.straps := rfl
@[simp] theorem State.advance_rc (t : HubTime) : (s.advance t).rc =
    { s.rc with outLeft := s.rc.outLeft - (t - s.hubTime).toNat } := rfl
@[simp] theorem State.advance_su (t : HubTime) : (s.advance t).su = s.su := rfl
@[simp] theorem State.advance_se (t : HubTime) : (s.advance t).se = s.se := rfl
@[simp] theorem State.advance_ru (t : HubTime) : (s.advance t).ru = s.ru := rfl
@[simp] theorem State.advance_tu (t : HubTime) : (s.advance t).tu = s.tu := rfl
@[simp] theorem State.advance_is (t : HubTime) : (s.advance t).is = s.is := rfl
@[simp] theorem State.advance_im (t : HubTime) : (s.advance t).im = s.im := rfl
@[simp] theorem State.advance_ms (t : HubTime) : (s.advance t).ms = s.ms := rfl
@[simp] theorem State.advance_vu (t : HubTime) : (s.advance t).vu = s.vu := rfl
@[simp] theorem State.advance_cp (t : HubTime) : (s.advance t).cp = s.cp := rfl
@[simp] theorem State.advance_pending (t : HubTime) : (s.advance t).pending = s.pending := rfl

@[simp] theorem State.withQueue_hubTime (q : List Instr) : (s.withQueue q).hubTime = s.hubTime := rfl
@[simp] theorem State.withQueue_straps (q : List Instr) : (s.withQueue q).straps = s.straps := rfl
@[simp] theorem State.withQueue_rc (q : List Instr) : (s.withQueue q).rc = s.rc := rfl
@[simp] theorem State.withQueue_su (q : List Instr) : (s.withQueue q).su = s.su := rfl
@[simp] theorem State.withQueue_se (q : List Instr) : (s.withQueue q).se = s.se := rfl
@[simp] theorem State.withQueue_ru (q : List Instr) : (s.withQueue q).ru = s.ru := rfl
@[simp] theorem State.withQueue_tu (q : List Instr) : (s.withQueue q).tu = s.tu := rfl
@[simp] theorem State.withQueue_is (q : List Instr) : (s.withQueue q).is = s.is := rfl
@[simp] theorem State.withQueue_im (q : List Instr) : (s.withQueue q).im = s.im := rfl
@[simp] theorem State.withQueue_ms (q : List Instr) : (s.withQueue q).ms = s.ms := rfl
@[simp] theorem State.withQueue_vu (q : List Instr) : (s.withQueue q).vu = s.vu := rfl
@[simp] theorem State.withQueue_cp (q : List Instr) : (s.withQueue q).cp = s.cp := rfl
@[simp] theorem State.withQueue_pending (q : List Instr) : (s.withQueue q).pending = q := rfl

/-! ### Reset -/

@[simp] theorem State.resetWith_hubTime (st : Straps) (a b : Bool) (q : List Instr) :
    (State.resetWith st a b q).hubTime = 0 := rfl
@[simp] theorem State.resetWith_straps (st : Straps) (a b : Bool) (q : List Instr) :
    (State.resetWith st a b q).straps = st := rfl
@[simp] theorem State.resetWith_pending (st : Straps) (a b : Bool) (q : List Instr) :
    (State.resetWith st a b q).pending = q := rfl

end Sys2Proof.Machine
end

