-- ==== Sys2Proof/Laws/Table.lean ====
section
/-! SUPPORT. Reading an entry of a table after it was built or changed. -/

namespace Sys2Proof.Table

variable {n : Nat} {α β : Type}

@[simp] theorem get_set_self (t : Table n α) (i : Fin n) (x : α) : (t.set i x).get i = x := by
  show (t.list.set i.val x)[i.val]'_ = x
  exact List.getElem_set_self _

theorem get_set_other (t : Table n α) {i j : Fin n} (x : α) (h : i ≠ j) : (t.set i x).get j = t.get j := by
  have : i.val ≠ j.val := fun e => h (Fin.ext e)
  show (t.list.set i.val x)[j.val]'_ = t.list[j.val]'_
  exact List.getElem_set_ne this _

theorem get_set (t : Table n α) (i j : Fin n) (x : α) : (t.set i x).get j = if i = j then x else t.get j := by
  split
  · subst i; simp
  · exact get_set_other t x ‹_›

@[simp] theorem get_modify_self (t : Table n α) (i : Fin n) (f : α → α) : (t.modify i f).get i = f (t.get i) :=
  get_set_self t i _

theorem get_modify (t : Table n α) (i j : Fin n) (f : α → α) :
    (t.modify i f).get j = if i = j then f (t.get i) else t.get j := get_set t i j _

theorem modify_eq_set (t : Table n α) (i : Fin n) (f : α → α) : t.modify i f = t.set i (f (t.get i)) := rfl

@[simp] theorem get_mapIdx (t : Table n α) (f : Fin n → α → β) (i : Fin n) : (t.mapIdx f).get i = f i (t.get i) := by
  simp [get, mapIdx]; rfl

@[simp] theorem get_map (t : Table n α) (f : α → β) (i : Fin n) : (t.map f).get i = f (t.get i) := by
  simp [get, map]; rfl

@[simp] theorem get_const (x : α) (i : Fin n) : (const n x).get i = x := by simp [get, const]

@[simp] theorem get_ofFn (f : Fin n → α) (i : Fin n) : (ofFn f).get i = f i := by
  simp [get, ofFn]; rfl

/-- Two tables with equal entries are equal. -/
theorem ext_get {t u : Table n α} (h : ∀ i, t.get i = u.get i) : t = u := by
  obtain ⟨l, hl⟩ := t
  obtain ⟨k, hk⟩ := u
  have : l = k := List.ext_getElem (hl.trans hk.symm) (fun i h1 _ => h ⟨i, hl ▸ h1⟩)
  subst this; rfl

@[simp] theorem set_get (t : Table n α) (i : Fin n) : t.set i (t.get i) = t := by
  refine ext_get (fun j => ?_)
  rw [get_set]; split <;> simp_all

@[simp] theorem set_set (t : Table n α) (i : Fin n) (x y : α) : (t.set i x).set i y = t.set i y := by
  refine ext_get (fun j => ?_)
  simp only [get_set]; split <;> simp_all

/-- A property of every entry, as a test over the list and over the entry numbers. -/
theorem all_list (t : Table n α) (p : α → Bool) : t.list.all p = true ↔ ∀ i, p (t.get i) = true := by
  obtain ⟨l, rfl⟩ := t
  simp only [List.all_eq_true, get]
  constructor
  · intro h i; exact h _ (List.get_mem _ _)
  · intro h x hx
    obtain ⟨i, rfl⟩ := List.get_of_mem hx
    exact h i

end Sys2Proof.Table
end

