-- ==== Sys2Proof/Laws/Ports.lean ====
section
/-! SUPPORT. What notices, responses and the taking of a request do: one lemma for each operation, which says all of it. -/

namespace Sys2Proof.Machine

variable (s : State) (p : PortNo) (g : Tag)

/-! ### Reading one slot, loop, input, camera or port after it was changed -/

theorem slot_onSlot (i j : SlotNo) (f : Section → Section) :
    (s.onSlot i f).slot j = if i = j then f (s.slot i) else s.slot j := Table.get_modify _ _ _ _

theorem loop_onLoop (i j : SlotNo) (f : Loop → Loop) :
    (s.onLoop i f).loop j = if i = j then f (s.loop i) else s.loop j := Table.get_modify _ _ _ _

theorem camera_onCamera (c d : Fin 4) (f : Camera → Camera) :
    (s.onCamera c f).camera d = if c = d then f (s.camera c) else s.camera d := Table.get_modify _ _ _ _

theorem port_onPort (q : PortNo) (f : Port → Port) :
    (s.onPort p f).port q = if p = q then f (s.port p) else s.port q := Table.get_modify _ _ _ _

/-- Two changes of one port are one change. -/
theorem onPort_onPort (f h : Port → Port) : (s.onPort p f).onPort p h = s.onPort p (fun q => h (f q)) := by
  simp [State.onPort, State.onCp, Table.modify]

/-- A change of one port, as the Client Ports stand after it. -/
theorem onPort_cp (f : Port → Port) : (s.onPort p f).cp = s.cp.withPort p (f (s.port p)) := rfl

/-! ### Notices -/

/-- A notice with a fixed route reaches the one port, and changes nothing else. -/
theorem port_notifyPort (k : Notice) (q : PortNo) :
    (s.notifyPort p k).port q = if p = q then (s.port p).addNotice k else s.port q := port_onPort _ _ _ _

/-- A routed notice reaches the ports that the routing table names, and changes nothing else at any port. -/
theorem port_notify (k : Notice) (q : PortNo) :
    (s.notify k).port q = if (s.cp.routes.of k).getLsbD q then (s.port q).addNotice k else s.port q := by
  simp [State.notify, State.port]

/-- A routed notice changes the ports alone. -/
theorem notify_eq (k : Notice) : s.notify k = { s with cp := { s.cp with ports := (s.notify k).cp.ports } } := rfl

/-- A routed notice, as the Client Ports stand after it. -/
theorem notify_cp (k : Notice) : (s.notify k).cp = s.cp.notified (s.cp.routes.of k) k.mask := rfl

/-! ### Requests -/

/-- What a request that is taken and permitted does: its tag is outstanding, and its block acts and answers. -/
theorem request_taken {roles : List Role} {block : State → State × Reply} (h : s.takes p g roles) :
    s.request p g roles block = State.answer (block (s.onPort p (fun q => q.taken g))) p g := by
  obtain ⟨h1, h2, h3⟩ := h
  have hr : ((s.onPort p (fun q => q.taken g)).port p).role = (s.port p).role := by rw [port_onPort, if_pos rfl]; rfl
  have hc : roles.contains ((s.onPort p (fun q => q.taken g)).port p).role = true := by
    rw [hr]; exact List.contains_iff_mem.2 h3
  show s.takeFrame p g _ = _
  unfold State.takeFrame
  rw [if_neg h1, if_neg (by rw [h2]; exact Bool.false_ne_true)]
  show (s.onPort p (fun q => q.taken g)).handRequest p g roles block = _
  unfold State.handRequest
  rw [if_pos hc]

/-- What a request that is taken from a port of another role does: its tag is outstanding, and it is answered NOT
PERMITTED. -/
theorem request_not_permitted {roles : List Role} {block : State → State × Reply}
    (h : s.takes p g [(s.port p).role]) (hr : (s.port p).role ∉ roles) :
    s.request p g roles block = s.onPort p (fun q => (q.taken g).ready g .notPermitted []) := by
  obtain ⟨h1, h2, -⟩ := h
  have hp : ((s.onPort p (fun q => q.taken g)).port p).role = (s.port p).role := by rw [port_onPort, if_pos rfl]; rfl
  have hc : ¬ roles.contains ((s.onPort p (fun q => q.taken g)).port p).role = true := by
    rw [hp]; exact fun e => hr (List.contains_iff_mem.1 e)
  show s.takeFrame p g _ = _
  unfold State.takeFrame
  rw [if_neg h1, if_neg (by rw [h2]; exact Bool.false_ne_true)]
  show (s.onPort p (fun q => q.taken g)).handRequest p g roles block = _
  unfold State.handRequest
  rw [if_neg hc]
  exact onPort_onPort _ _ _ _

/-- A request that finds four outstanding is dropped with OVERRUN. -/
theorem request_overrun {roles : List Role} {block : State → State × Reply}
    (h : (s.port p).outstanding = BitVec.allOnes 4) :
    s.request p g roles block =
      s.onPort p (fun q => { (q.addNotice .overrun) with overruns := satInc q.overruns }) := by
  show s.takeFrame p g _ = _
  unfold State.takeFrame
  rw [if_pos h]

/-- A request whose tag is outstanding is discarded with FRAME ERROR. -/
theorem request_tag_in_use {roles : List Role} {block : State → State × Reply}
    (h : (s.port p).outstanding ≠ BitVec.allOnes 4) (h2 : (s.port p).outstanding.getLsbD g = true) :
    s.request p g roles block = s.frameError p := by
  show s.takeFrame p g _ = _
  unfold State.takeFrame
  rw [if_neg h, if_pos h2]

/-- A frame error, as the port stands after it. -/
theorem frameError_cp : (s.frameError p).cp = s.cp.withPort p (s.port p).faulted := rfl

/-- What the data lines give in a GET: its frame, as far as it is clocked out, and 00h for each byte after it (R177). -/
theorem shiftedOut_eq (f : GetFixed) (n : Nat) :
    f.shiftedOut n = f.bytes.take n ++ List.replicate (n - f.bytes.length) 0 := by
  apply List.ext_getElem
  · simp [GetFixed.shiftedOut]; omega
  · intro i h1 h2
    simp only [GetFixed.shiftedOut, List.length_map, List.length_range] at h1
    rw [List.getElem_append]
    split
    · rename_i h
      have : i < f.bytes.length := by simp at h; omega
      simp [GetFixed.shiftedOut, GetFixed.byteAt, this]
    · rename_i h
      have : f.bytes.length ≤ i := by simp at h; omega
      simp [GetFixed.shiftedOut, GetFixed.byteAt, this]

/-- A block that leaves the ports alone and answers at once: the Client Ports once the response is ready. -/
theorem answered_cp {b : State} {st : Status} {bytes : List Byte} (h : b.cp = s.cp.waiting p g) :
    (State.answer (b, some (st, bytes)) p g).cp = s.cp.answered p g st bytes := by
  show (b.onPort p (fun q => q.ready g st bytes)).cp = _
  rw [onPort_cp]
  simp only [State.port, h, CP.waiting, CP.withPort, CP.answered, Table.get_set_self, Table.set_set]

/-- A request that waits leaves what its block did. -/
theorem answer_waits (b : State) : State.answer (b, none) p g = b := rfl

end Sys2Proof.Machine
end

