-- ==== Sys2Proof/Laws/Blocks.lean ====
section
/-! SUPPORT. Which blocks an operation leaves as they were: hub time, the straps and the queue of commands always, and every
block that is not named. -/

namespace Sys2Proof.Machine

/-- A block is the same in two states. -/
def State.same (s s' : State) : Blk → Prop
  | .rc => s'.rc = s.rc
  | .su => s'.su = s.su
  | .se => s'.se = s.se
  | .ru => s'.ru = s.ru
  | .tu => s'.tu = s.tu
  | .is => s'.is = s.is
  | .im => s'.im = s.im
  | .ms => s'.ms = s.ms
  | .vu => s'.vu = s.vu
  | .cp => s'.cp = s.cp

/-- Nothing but the named blocks has changed. -/
def Keeps (changed : List Blk) (s s' : State) : Prop :=
  s'.hubTime = s.hubTime ∧ s'.straps = s.straps ∧ s'.pending = s.pending ∧ ∀ b, b ∉ changed → s.same s' b

theorem same_refl (s : State) (b : Blk) : s.same s b := by cases b <;> rfl

theorem same_trans {s s' s'' : State} {b : Blk} (h : s.same s' b) (h' : s'.same s'' b) : s.same s'' b := by
  cases b <;> exact Eq.trans h' h

theorem Keeps.refl (l : List Blk) (s : State) : Keeps l s s := ⟨rfl, rfl, rfl, fun b _ => same_refl s b⟩

theorem Keeps.trans {l : List Blk} {s s' s'' : State} (h : Keeps l s s') (h' : Keeps l s' s'') : Keeps l s s'' :=
  ⟨h'.1.trans h.1, h'.2.1.trans h.2.1, h'.2.2.1.trans h.2.2.1,
    fun b hb => same_trans (h.2.2.2 b hb) (h'.2.2.2 b hb)⟩

theorem Keeps.mono {l l' : List Blk} {s s' : State} (h : Keeps l s s') (hl : ∀ b ∈ l, b ∈ l') : Keeps l' s s' :=
  ⟨h.1, h.2.1, h.2.2.1, fun b hb => h.2.2.2 b (fun hc => hb (hl b hc))⟩

/-- One choice of two, each of which keeps the same blocks. -/
theorem Keeps.ite {l : List Blk} {s a b : State} {c : Prop} [Decidable c] (ha : Keeps l s a) (hb : Keeps l s b) :
    Keeps l s (if c then a else b) := by split <;> assumption

/-- A fold of steps that each keep the same blocks. -/
theorem Keeps.foldl {α : Type} {l : List Blk} {f : State → α → State} (hf : ∀ s x, Keeps l s (f s x)) (xs : List α)
    (s : State) : Keeps l s (xs.foldl f s) := by
  induction xs generalizing s with
  | nil => exact Keeps.refl l s
  | cons x xs ih => exact (hf s x).trans (ih _)

/-! ### The updates of one block -/

variable (s : State)

theorem keeps_onRc (f : RC → RC) : Keeps [.rc] s (s.onRc f) :=
  ⟨rfl, rfl, rfl, fun b hb => by cases b <;> first | rfl | exact absurd (List.mem_singleton.2 rfl) hb⟩

theorem keeps_onSu (f : SU → SU) : Keeps [.su] s (s.onSu f) :=
  ⟨rfl, rfl, rfl, fun b hb => by cases b <;> first | rfl | exact absurd (List.mem_singleton.2 rfl) hb⟩

theorem keeps_onSe (f : SE → SE) : Keeps [.se] s (s.onSe f) :=
  ⟨rfl, rfl, rfl, fun b hb => by cases b <;> first | rfl | exact absurd (List.mem_singleton.2 rfl) hb⟩

theorem keeps_onRu (f : RU → RU) : Keeps [.ru] s (s.onRu f) :=
  ⟨rfl, rfl, rfl, fun b hb => by cases b <;> first | rfl | exact absurd (List.mem_singleton.2 rfl) hb⟩

theorem keeps_onTu (f : TU → TU) : Keeps [.tu] s (s.onTu f) :=
  ⟨rfl, rfl, rfl, fun b hb => by cases b <;> first | rfl | exact absurd (List.mem_singleton.2 rfl) hb⟩

theorem keeps_onIs (f : IS → IS) : Keeps [.is] s (s.onIs f) :=
  ⟨rfl, rfl, rfl, fun b hb => by cases b <;> first | rfl | exact absurd (List.mem_singleton.2 rfl) hb⟩

theorem keeps_onIm (f : IM → IM) : Keeps [.im] s (s.onIm f) :=
  ⟨rfl, rfl, rfl, fun b hb => by cases b <;> first | rfl | exact absurd (List.mem_singleton.2 rfl) hb⟩

theorem keeps_onMs (f : MS → MS) : Keeps [.ms] s (s.onMs f) :=
  ⟨rfl, rfl, rfl, fun b hb => by cases b <;> first | rfl | exact absurd (List.mem_singleton.2 rfl) hb⟩

theorem keeps_onVu (f : VU → VU) : Keeps [.vu] s (s.onVu f) :=
  ⟨rfl, rfl, rfl, fun b hb => by cases b <;> first | rfl | exact absurd (List.mem_singleton.2 rfl) hb⟩

theorem keeps_onCp (f : CP → CP) : Keeps [.cp] s (s.onCp f) :=
  ⟨rfl, rfl, rfl, fun b hb => by cases b <;> first | rfl | exact absurd (List.mem_singleton.2 rfl) hb⟩

theorem keeps_onSlot (i : SlotNo) (f : Section → Section) : Keeps [.se] s (s.onSlot i f) := keeps_onSe s _
theorem keeps_onLoop (i : SlotNo) (f : Loop → Loop) : Keeps [.ru] s (s.onLoop i f) := keeps_onRu s _
theorem keeps_onInput (i : Fin 8) (f : MarkInput → MarkInput) : Keeps [.ru] s (s.onInput i f) := keeps_onRu s _
theorem keeps_onCamera (c : Fin 4) (f : Camera → Camera) : Keeps [.is] s (s.onCamera c f) := keeps_onIs s _
theorem keeps_onPort (p : PortNo) (f : Port → Port) : Keeps [.cp] s (s.onPort p f) := keeps_onCp s _
theorem keeps_onStrip (id : Nat) (f : Strip → Strip) : Keeps [.is] s (s.onStrip id f) := keeps_onIs s _
theorem keeps_notify (k : Notice) : Keeps [.cp] s (s.notify k) := keeps_onCp s _
theorem keeps_notifyPort (p : PortNo) (k : Notice) : Keeps [.cp] s (s.notifyPort p k) := keeps_onPort s p _
theorem keeps_respond (p : PortNo) (g : Tag) (st : Status) (bytes : List Byte) : Keeps [.cp] s (s.respond p g st bytes) :=
  keeps_onPort s p _
theorem keeps_frameError (p : PortNo) : Keeps [.cp] s (s.frameError p) := keeps_onPort s p _

/-- A request changes what its block changes, and the Client Ports. -/
theorem keeps_request (p : PortNo) (g : Tag) (roles : List Role) (block : State → State × Reply) {l : List Blk}
    (h : ∀ a : State, Keeps l a (block a).1) (hl : Blk.cp ∈ l) : Keeps l s (s.request p g roles block) := by
  have hc : ∀ b ∈ [Blk.cp], b ∈ l := fun b hb => by rw [List.mem_singleton.1 hb]; exact hl
  have ha : ∀ a : State, Keeps l a (State.answer (block a) p g) := by
    intro a
    unfold State.answer
    split
    · exact h a
    · exact (h a).trans ((keeps_respond _ p g _ _).mono hc)
  unfold State.request State.takeFrame
  refine Keeps.ite ((keeps_onPort s p _).mono hc) (Keeps.ite ((keeps_frameError s p).mono hc) ?_)
  refine ((keeps_onPort s p (fun q => q.taken g)).mono hc).trans ?_
  show Keeps l _ (State.handRequest _ p g roles block)
  unfold State.handRequest
  exact Keeps.ite (ha _) ((keeps_respond _ p g _ _).mono hc)

/-! ### The outcome of a command -/

/-- Every block but the View Unit comes through the marking of views and exports. -/
theorem keeps_markDirty (before after : State) : Keeps [.vu] after (markDirty before after) := keeps_onVu after _

/-- The marking of views and exports makes CLEAN ones DIRTY and does nothing else. -/
theorem kept_markDirty (before after : State) : after.vu.kept (markDirty before after).vu := by
  refine ⟨rfl, fun i => ?_, fun i => ?_⟩
  · show viewKept _ ((after.vu.views.map _).get i)
    rw [Table.get_map]
    cases h : after.vu.views.get i with
    | none => exact Or.inl rfl
    | some v =>
      show viewKept _ (some (View.afterChange before after v))
      unfold View.afterChange
      split
      · rename_i hv; exact Or.inr ⟨v, rfl, hv.1, hv.2.1, rfl⟩
      · exact Or.inl rfl
  · show exportKept _ ((after.vu.exports.map _).get i)
    rw [Table.get_map]
    cases h : after.vu.exports.get i with
    | none => exact Or.inl rfl
    | some e =>
      show exportKept _ (some (ExportEntry.afterChange before after e))
      unfold ExportEntry.afterChange
      split
      · rename_i he; exact Or.inr ⟨e, rfl, he.1, rfl⟩
      · exact Or.inl rfl

/-- An event inside a command leaves what it did to every block but the View Unit. -/
theorem keeps_event (f : State → State) : Keeps [.vu] (f s) (s.event f) := keeps_markDirty s _

/-- An event inside a command makes CLEAN views and exports DIRTY and does nothing else beside its effect. -/
theorem kept_event (f : State → State) : (f s).vu.kept (s.event f).vu := kept_markDirty s _

/-- The frame of a command whose effect changes only the named blocks. -/
theorem frame_finish {s a : State} {t : HubTime} {l : List Blk} (h : Keeps l (s.advance t) a) :
    s.frame (markDirty s a) t l := by
  obtain ⟨h1, h2, h3, hb⟩ := h
  have hm := keeps_markDirty s a
  have key : ∀ b : Blk, b ≠ .vu → b ∈ l ∨ (s.advance t).same (markDirty s a) b := by
    intro b hv
    by_cases hl : b ∈ l
    · exact Or.inl hl
    · exact Or.inr (same_trans (hb b hl) (hm.2.2.2 b (by simpa using hv)))
  refine ⟨hm.1.trans h1, hm.2.1.trans h2, hm.2.2.1.trans h3, key .rc (by decide), key .su (by decide),
    key .se (by decide), key .ru (by decide), key .tu (by decide), key .is (by decide), key .im (by decide),
    key .ms (by decide), ?_, key .cp (by decide)⟩
  by_cases hl : Blk.vu ∈ l
  · exact Or.inl hl
  · refine Or.inr ?_
    have hk := kept_markDirty s a
    have hv : a.vu = s.vu := hb .vu hl
    rw [hv] at hk
    exact hk

/-- The frame of a request row whose block changes only the named blocks. -/
theorem frame_request {s : State} {t : HubTime} {p : PortNo} {g : Tag} {roles : List Role}
    {block : State → State × Reply} {l : List Blk} (h : ∀ a : State, Keeps l a (block a).1) (hl : Blk.cp ∈ l) :
    ∃ s', finishRequest s t p g roles block = .next s' ∧ s.frame s' t l :=
  ⟨_, rfl, frame_finish (keeps_request _ p g roles block h hl)⟩

end Sys2Proof.Machine
end

