-- ==== Sys2Proof/Laws/Memory.lean ====
section
/-! SUPPORT. The bytes of the tile store: reading after writing, and the canonical form kept by every operation. -/

namespace Sys2Proof.Machine

theorem memWfFrom_mono {lo hi : Nat} {m : Memory} (h : memWfFrom hi m = true) (hl : lo ≤ hi) : memWfFrom lo m = true := by
  cases m with
  | nil => rfl
  | cons c m =>
    simp only [memWfFrom, Bool.and_eq_true, decide_eq_true_eq] at h ⊢
    exact ⟨⟨by omega, h.1.2⟩, h.2⟩

/-- Below the lowest listed address every byte reads as 0. -/
theorem memRead_below {lo k : Nat} {m : Memory} (h : memWfFrom lo m = true) (hk : k < lo) : memRead m k = 0 := by
  cases m with
  | nil => rfl
  | cons c m =>
    simp only [memWfFrom, Bool.and_eq_true, decide_eq_true_eq] at h
    simp only [memRead]
    rw [if_neg (by omega), if_pos (by omega)]

theorem memWfFrom_write {lo k : Nat} {m : Memory} (v : Byte) (h : memWfFrom lo m = true) (hk : lo ≤ k) :
    memWfFrom lo (memWrite m k v) = true := by
  induction m generalizing lo with
  | nil => unfold memWrite; split <;> simp_all [memWfFrom]
  | cons c m ih =>
    obtain ⟨a, b⟩ := c
    simp only [memWfFrom, Bool.and_eq_true, decide_eq_true_eq] at h
    obtain ⟨⟨ha, hb⟩, hm⟩ := h
    simp only [memWrite]
    split
    · split
      · simp only [memWfFrom, Bool.and_eq_true, decide_eq_true_eq]
        exact ⟨⟨ha, hb⟩, hm⟩
      · simp only [memWfFrom, Bool.and_eq_true, decide_eq_true_eq]
        exact ⟨⟨hk, ‹_›⟩, ⟨by omega, hb⟩, hm⟩
    · split
      · split
        · exact memWfFrom_mono hm (by omega)
        · simp only [memWfFrom, Bool.and_eq_true, decide_eq_true_eq]
          subst k; exact ⟨⟨ha, ‹_›⟩, hm⟩
      · simp only [memWfFrom, Bool.and_eq_true, decide_eq_true_eq]
        exact ⟨⟨ha, hb⟩, ih hm (by omega)⟩

/-- A write keeps the canonical form. -/
theorem memWrite_wf {m : Memory} (k : Nat) (v : Byte) (h : Memory.wf m = true) : Memory.wf (memWrite m k v) = true :=
  memWfFrom_write v h (Nat.zero_le k)

theorem memRead_write_from {lo : Nat} {m : Memory} (h : memWfFrom lo m = true) (k : Nat) (v : Byte) (j : Nat) :
    memRead (memWrite m k v) j = if j = k then v else memRead m j := by
  induction m generalizing lo with
  | nil =>
    unfold memWrite
    split <;> by_cases hj : j = k <;> simp_all [memRead]
  | cons c m ih =>
    obtain ⟨a, b⟩ := c
    simp only [memWfFrom, Bool.and_eq_true, decide_eq_true_eq] at h
    obtain ⟨⟨ha, hb⟩, hm⟩ := h
    simp only [memWrite]
    split
    · by_cases hv : v = 0
      · rw [if_pos hv]
        by_cases hj : j = k
        · subst hj; subst hv; rw [if_pos rfl]; simp only [memRead]; rw [if_neg (by omega), if_pos ‹_›]
        · rw [if_neg hj]
      · rw [if_neg hv]
        by_cases hj : j = k
        · simp [memRead, hj]
        · rw [if_neg hj]
          by_cases hlt : j < k
          · simp only [memRead]; rw [if_neg hj, if_pos hlt, if_neg (by omega), if_pos (by omega)]
          · conv => lhs; unfold memRead
            rw [if_neg hj, if_neg hlt]
    · split
      · rename_i hka; subst hka
        by_cases hv : v = 0
        · rw [if_pos hv]
          by_cases hj : j = k
          · subst hj; rw [if_pos rfl, hv]; exact memRead_below hm (by omega)
          · rw [if_neg hj]; simp only [memRead]; rw [if_neg hj]
            split
            · exact memRead_below hm (by omega)
            · rfl
        · rw [if_neg hv]
          by_cases hj : j = k <;> simp [memRead, hj]
      · simp only [memRead]
        by_cases hja : j = a
        · rw [if_pos hja, if_neg (by omega), if_pos hja]
        · by_cases hlt : j < a
          · rw [if_neg hja, if_pos hlt, if_neg (by omega), if_neg hja, if_pos hlt]
          · rw [if_neg hja, if_neg hlt, ih hm]
            split
            · rfl
            · rfl

/-- A read after a write gives the byte written, and every other address reads as before. -/
theorem memRead_memWrite {m : Memory} (h : Memory.wf m = true) (k : Nat) (v : Byte) (j : Nat) :
    memRead (memWrite m k v) j = if j = k then v else memRead m j := memRead_write_from h k v j

/-- Storing bytes in tiles keeps the canonical form. -/
theorem tileStore_wf {m : Memory} (tiles : List Nat) (off : Nat) (bytes : List Byte) (h : Memory.wf m = true) :
    Memory.wf (tileStore m tiles off bytes) = true := by
  induction bytes generalizing m off with
  | nil => exact h
  | cons b bs ih => exact ih _ (memWrite_wf _ _ h)

/-- Storing bytes in tiles leaves every address at which none of them is stored. -/
theorem memRead_tileStore_other {m : Memory} (tiles : List Nat) (off : Nat) (bytes : List Byte) (h : Memory.wf m = true)
    {k : Nat} (hk : ∀ j < bytes.length, tileAddr tiles (off + j) ≠ k) :
    memRead (tileStore m tiles off bytes) k = memRead m k := by
  induction bytes generalizing m off with
  | nil => rfl
  | cons b bs ih =>
    simp only [tileStore]
    rw [ih _ (memWrite_wf _ _ h), memRead_memWrite h, if_neg (fun e => hk 0 (by simp) (by simpa using e.symm))]
    intro j hj
    have := hk (j + 1) (by simpa using hj)
    rwa [← Nat.add_assoc, Nat.add_right_comm] at this

/-- The byte that was stored last at an address is read back there. -/
theorem memRead_tileStore_head {m : Memory} (tiles : List Nat) (off : Nat) (b : Byte) (bytes : List Byte)
    (h : Memory.wf m = true) (hk : ∀ j < bytes.length, tileAddr tiles (off + 1 + j) ≠ tileAddr tiles off) :
    memRead (tileStore m tiles off (b :: bytes)) (tileAddr tiles off) = b := by
  simp only [tileStore]
  rw [memRead_tileStore_other tiles (off + 1) bytes (memWrite_wf _ _ h) hk, memRead_memWrite h, if_pos rfl]

/-- The tile store after reset is in canonical form. -/
theorem reset_mem_wf : Memory.wf State.reset.is.mem = true := by decide

end Sys2Proof.Machine
end

