-- ==== Sys2Proof/Laws/Spelled.lean ====
section
/-! SUPPORT. The operations that Sys2Proof/Safety.lean spells out for the statements: each is what the model does. -/

namespace Sys2Proof.Machine

theorem Section.trimmed_eq (x : Section) (v : Int) : x.trimmed v = x.storeTt v := by
  have h : clampInt (-(x.tmax : Int)) x.tmax v = max (-(x.tmax : Int)) (min v x.tmax) := clampInt_eq _ _ _ (by omega)
  have hd : decide ((x.tmax : Int) < v ∨ v < -(x.tmax : Int)) = decide (clampInt (-(x.tmax : Int)) x.tmax v ≠ v) := by
    rw [h]; exact decide_eq_decide.mpr (by omega)
  unfold Section.trimmed Section.storeTt
  rw [hd, h]

theorem Section.changed_eq (x : Section) (c : Change) : x.changed c = x.applyChange c := by
  obtain ⟨p, b⟩ := c
  cases b with
  | nudge a => simp only [Section.changed, Section.trimmed_eq, Section.applyChange, Section.applyBody]; rfl
  | set f =>
    have hr : (f.n = none ∧ f.d = none) ↔ ¬ (f.n.isSome || f.d.isSome) = true := by
      cases f.n <;> cases f.d <;> simp
    have ht : (f.tt = none ∧ f.tmax = none) ↔ ¬ (f.tt.isSome || f.tmax.isSome) = true := by
      cases f.tt <;> cases f.tmax <;> simp
    simp only [Section.changed, Section.trimmed_eq, Section.applyChange, Section.applyBody, Section.setFields, hr, ht]
    by_cases h : (f.tt.isSome || f.tmax.isSome) = true <;> by_cases g : (f.n.isSome || f.d.isSome) = true <;>
      simp only [h, g, not_true_eq_false, if_true, if_false] <;> rfl

/-- A list with a change in it takes a section out of VACANT (R46). -/
theorem Section.latest_state (x : Section) (h : x.posted ≠ []) : x.latest.state ≠ .vacant := by
  have step : ∀ (y : Section) (c : Change), (y.applyChange c).state ≠ .vacant := by
    intro y c
    have hs : (y.applyChange c).state = y.leaveVacant.state := by
      obtain ⟨p, b⟩ := c
      cases b with
      | nudge a => rfl
      | set f => simp only [Section.applyChange, Section.applyBody]; split <;> rfl
    rw [hs]; unfold Section.leaveVacant; split <;> simp_all
  have all : ∀ (l : List Change) (y : Section), y.state ≠ .vacant → (l.foldl Section.applyChange y).state ≠ .vacant := by
    intro l
    induction l with
    | nil => exact fun _ h => h
    | cons c l ih => exact fun y _ => ih _ (step y c)
  unfold Section.latest
  cases hp : x.posted with
  | nil => exact absurd hp h
  | cons c l => exact all l _ (step x c)

/-- Stages 1 and 2 of a step (R48, R49) are those that the model takes. -/
theorem Section.readied_eq (x : Section) (lockout : Bool) : x.readied lockout = (x.applyPosted lockout).applySum := by
  have hf : x.posted.foldl Section.changed x = x.latest := by
    unfold Section.latest; congr 1; funext y c; exact y.changed_eq c
  have hc : (lockout = true ∧ x.state = .vacant ∧ x.posted ≠ []) ↔
      (lockout = true ∧ x.state = .vacant ∧ ({ x.latest with posted := [] } : Section).state ≠ .vacant) := by
    refine and_congr_right fun _ => and_congr_right fun hv => ⟨fun h => x.latest_state h, fun h hp => h ?_⟩
    show x.latest.state = .vacant
    unfold Section.latest; rw [hp]; exact hv
  simp only [Section.readied, Section.trimmed_eq, hf, Section.applyPosted, Section.applySum, hc]

/-- What a frame leaves with (R2, R7, R14, R17). -/
theorem State.leaving_eq (s : State) (f : Frame) (comp waited : Nat) : s.leaving f comp waited = s.frameOut f comp waited := by
  obtain ⟨b, n, g⟩ := f
  cases b with
  | census c =>
    cases g <;> by_cases h : n = 13 <;> cases ho : c.overflow <;>
      simp [State.leaving, State.frameOut, frameCorrupt, bodyLength, censusOut, h, ho, eq_comm]
  | roster c => rfl
  | cycle c => rfl
  | data c => rfl
  | unknown c => rfl

/-- The room of the transit buffer (R23). -/
theorem RC.roomAt_eq (r : RC) : r.roomAt r.outLeft = 1049 - r.heldBytes := rfl

/-- What is removed is what is not forwarded (R3). -/
theorem State.removes_iff (s : State) (b : FrameBody) : s.removes b ↔ s.passage b ≠ .forward := by
  cases b with
  | data f =>
    by_cases hr : s.rc.ringState = .running <;>
      simp only [State.removes, State.passage, State.dataPassage, State.running, hr, if_true, if_false, decide_true,
        decide_false, reduceCtorEq]
    · cases hn : s.rc.hubCount with
      | none => simp [State.knownHub, hn]
      | some n =>
        simp only [State.knownHub, State.ownAddress, hn, Option.mem_some_iff, forall_eq', decide_eq_false_iff_not,
          decide_eq_true_eq, not_lt]
        split <;> [skip; split <;> [skip; split]] <;> simp_all
        omega
    · cases s.isMaster <;> simp
  | census _ => cases h : s.isMaster <;> simp [State.removes, State.passage, h]
  | roster _ => cases h : s.isMaster <;> simp [State.removes, State.passage, h]
  | cycle _ => cases h : s.isMaster <;> simp [State.removes, State.passage, h]
  | unknown _ => cases h : s.isMaster <;> simp [State.removes, State.passage, h]

/-- The content of a kind is the list of items that it watches (R112, R162). -/
theorem State.content_eq (s : State) (k : ViewKind) : s.content k = items (s.watched k) := by
  have code : ∀ c : Cls, beBytes 1 (c.code : Int) =
      beBytes 1 (if c = .sync then 1 else if c = .quick then 2 else if c = .coast then 3 else 0) := by
    intro c; cases c <;> rfl
  cases k with
  | shaft =>
    simp only [State.content, State.shaftContent, State.watched, State.genItems, shaftFlagBits, Nat.cast_add, Nat.cast_ite,
      Nat.cast_ofNat, Nat.cast_zero]
  | slot i =>
    cases h : (s.slot i).state <;>
      simp [State.content, Section.content, State.watched, Section.ct, Section.flagBits, SectionState.code, h] <;> rfl
  | register i =>
    show items (s.loop i).values = _
    cases h : (s.loop i).state <;> cases hs : (s.loop i).source <;> cases hd : (s.loop i).search.direction <;>
      simp [Loop.values, State.watched, LoopState.code, Source.bytes, Direction.code, h, hs, hd]
  | trips =>
    have entry : ∀ m, causeEntry m = fun c => valuesBytes [val 1 c.cause.number, c.slot.map (fun i => beBytes 1 i.val),
        some (beBytes 1 (if m.get c.cause = .sync then 1 else if m.get c.cause = .quick then 2
          else if m.get c.cause = .coast then 3 else 0))] := by
      intro m; funext c; rw [← code]; rfl
    have low : decide (s.tu.tripInLow = false) = !s.tu.tripInLow := by cases s.tu.tripInLow <;> rfl
    cases h : s.tu.state <;>
      simp [State.content, State.tripsContent, State.watched, State.tripOut, TripState.code, val, matrixCauses, Matrix.get,
        entry, code, low, h]
  | camera c =>
    have own : (fun x : Strip => x.takenFor c) = fun x => x.localOf c := by
      funext x; unfold Strip.takenFor Strip.localOf; cases x.origin <;> simp only [Bool.and_true, Bool.and_false]
    have entry : ∀ i : SlotNo, scanResultEntry i = fun r => match r with
        | .hit row col => valuesBytes [val 1 i.val, val 1 0, val 1 row, val 2 col]
        | .none => valuesBytes [val 1 i.val, val 1 1] := by
      intro i; funext r; cases r <;> rfl
    show s.cameraContent c = _
    simp only [State.watched, own]
    change _ = items (match s.newestOf c with
      | none => []
      | some x => _)
    unfold State.cameraContent
    cases s.newestOf c with
    | none => rfl
    | some x =>
      have h := congrArg vlist (congrArg (fun f => (List.finRange 16).filterMap (fun i => (x.results.get i).map (f i)))
        (funext entry))
      exact congrArg (fun l => items [val 2 x.id, some x.stamp.bytes, l]) h

/-- The order of the cause set is that of its keys. -/
theorem CausePair.before_iff (a b : CausePair) : a.before b = true ↔ a.key < b.key := by
  obtain ⟨c, i⟩ := a
  obtain ⟨d, j⟩ := b
  cases i <;> cases j <;>
    simp only [CausePair.before, CausePair.key, Fin.lt_def, Bool.or_eq_true, Bool.and_eq_true, decide_eq_true_eq,
      Bool.false_eq_true, and_true, and_false, or_false] <;> omega

/-- What the latching of a pair leaves of the cause set: the pair, and what was in it (R87). -/
theorem mem_insertCause (c d : CausePair) (l : List CausePair) : d ∈ insertCause c l ↔ d = c ∨ d ∈ l := by
  induction l with
  | nil => simp [insertCause]
  | cons x l ih =>
    unfold insertCause
    split
    · rename_i h; subst h; simp
    · split
      · simp
      · simp only [List.mem_cons, ih]; tauto

/-- Two pairs with one key are one pair. -/
theorem CausePair.key_inj {a b : CausePair} (h : a.key = b.key) : a = b := by
  obtain ⟨c, i⟩ := a
  obtain ⟨d, j⟩ := b
  have hc : c.number = d.number := by cases i <;> cases j <;> simp only [CausePair.key] at h <;> omega
  have hcd : c = d := by cases c <;> cases d <;> first | rfl | (exact absurd hc (by decide))
  subst hcd
  cases i <;> cases j <;> simp only [CausePair.key] at h
  · rfl
  · omega
  · omega
  · rename_i i j; rw [Fin.ext (show i.val = j.val by omega)]

/-- The latching of a pair keeps the order of the cause set (R87, R112). -/
theorem insertCause_ordered (c : CausePair) (l : List CausePair) (h : l.Pairwise (fun a b => a.before b = true)) :
    (insertCause c l).Pairwise (fun a b => a.before b = true) := by
  induction l with
  | nil => simp [insertCause]
  | cons x l ih =>
    obtain ⟨hx, hl⟩ := List.pairwise_cons.mp h
    unfold insertCause
    split
    · exact h
    · rename_i hne
      split
      · rename_i hlt
        refine List.pairwise_cons.mpr ⟨fun d hd => ?_, h⟩
        rw [CausePair.before_iff]
        rcases List.mem_cons.mp hd with rfl | hd
        · exact hlt
        · exact hlt.trans ((CausePair.before_iff _ _).mp (hx d hd))
      · rename_i hlt
        refine List.pairwise_cons.mpr ⟨fun d hd => ?_, ih hl⟩
        rcases (mem_insertCause c d l).mp hd with rfl | hd
        · rw [CausePair.before_iff]
          exact lt_of_le_of_ne (not_lt.mp hlt) (fun e => hne (CausePair.key_inj e.symm))
        · exact hx d hd

/-- A strip is a candidate of a freeze walk by its difference (R130). -/
theorem Strip.exposedBefore_eq (x : Strip) (c : BitVec 16) (span : Nat) :
    x.exposedBefore c span = (x.freezeAge c span).map (fun n => (n : Int)) := by
  have near : ∀ d : Int, (if x.receiving then none else if 0 ≤ d ∧ d ≤ (span : Int) - 1 then some d else none) =
      (if 0 ≤ d ∧ d < span ∧ x.receiving = false then some d.toNat else none).map (fun n => (n : Int)) := by
    intro d
    cases x.receiving
    · by_cases h : 0 ≤ d ∧ d < span
      · simp [h.1, h.2, show d ≤ (span : Int) - 1 by omega]
      · rw [if_neg (by simp), if_neg (by omega), if_neg (fun k => h ⟨k.1, k.2.1⟩)]; rfl
    · simp
  unfold Strip.exposedBefore Strip.freezeAge
  cases hs : x.stamp with
  | unknown => cases x.receiving <;> rfl
  | known a e => exact near (sdiff c e)
  | pending a e => exact near (sdiff c e)

end Sys2Proof.Machine
end

