-- ==== Sys2Proof/Laws/Trips.lean ====
section
/-! SUPPORT. Which blocks the operations of the Section Engine and the Trip Unit leave as they were, up to the raising of a
cause, the handing of a trip word and the loss of the ring. -/

namespace Sys2Proof.Machine

variable (s : State)

theorem keeps_discardSlots (p : SlotNo → Bool) : Keeps [.se, .cp] s (s.discardSlots p) :=
  ((keeps_onSe s _).mono (by decide)).trans
    (Keeps.foldl (fun a (f : Fence) => (keeps_respond a f.port f.tag .discarded []).mono (by decide)) _ _)

theorem keeps_resolveApplied (i : SlotNo) : Keeps [.se, .cp] s (s.resolveApplied i) :=
  ((keeps_onSe s _).mono (by decide)).trans
    (Keeps.foldl (fun a (f : Fence) => (keeps_respond a f.port f.tag .done []).mono (by decide)) _ _)

theorem keeps_orderSections (p : SlotNo → Bool) (st : SectionState) : Keeps [.se, .cp] s (s.orderSections p st) :=
  (keeps_discardSlots s p).trans ((keeps_onSe _ _).mono (by decide))

/-- The section actions of a class change the Section Engine and answer its requests. -/
theorem keeps_sectionActions (k : Cls) : Keeps [.se, .cp] s (s.sectionActions k) := by
  cases k
  · exact Keeps.refl _ s
  · exact Keeps.refl _ s
  · exact Keeps.refl _ s
  · exact keeps_orderSections s _ _
  · exact keeps_orderSections s _ _

theorem keeps_sectionRingLoss : Keeps [.se, .cp] s s.sectionRingLoss :=
  ((keeps_discardSlots s _).trans ((keeps_onSe _ _).mono (by decide))).trans
    (Keeps.foldl (fun a (w : Waiting) => (keeps_respond a w.port w.tag .notRunning []).mono (by decide)) _ _)

theorem keeps_makeCensus : Keeps [.rc] s s.makeCensus := keeps_onRc s _

theorem keeps_checkReformation : Keeps [.rc] s s.checkReformation := by
  unfold State.checkReformation
  exact Keeps.ite (Keeps.ite (Keeps.ite ((keeps_makeCensus s).trans (keeps_onRc _ _)) (Keeps.refl _ s))
    (keeps_onRc s _)) (Keeps.refl _ s)

/-- A change of trip state changes the Trip Unit, gives notice TRIP, and may send the census of a LOST master. -/
theorem keeps_setTrip (st : TripState) : Keeps [.rc, .tu, .cp] s (s.setTrip st) :=
  (((keeps_onTu s _).mono (by decide)).trans ((keeps_notify _ _).mono (by decide))).trans
    ((keeps_checkReformation _).mono (by decide))

theorem keeps_onCurrent (f : TripRecord → TripRecord) : Keeps [.tu] s (s.onCurrent f) := by
  unfold State.onCurrent
  split
  · exact keeps_onTu s _
  · exact Keeps.refl _ s

theorem keeps_appendSecondary (c : CausePair) : Keeps [.tu] s (s.appendSecondary c) := keeps_onCurrent s _

theorem keeps_reachClass (k : Cls) : Keeps [.tu] s (s.reachClass k) := keeps_onCurrent s _

/-- What a change of the newest record with a number does: the last one with it is changed, the others stay (R108). -/
theorem onNewest_append (n : BitVec 16) (f : TripRecord → TripRecord) (before after : List TripRecord) (r : TripRecord)
    (hr : r.number = n) (ha : ∀ q ∈ after, q.number ≠ n) :
    onNewest n f (before ++ r :: after) = before ++ f r :: after := by
  induction before with
  | nil => simp only [List.nil_append, onNewest]; rw [if_pos ⟨hr, by simpa using ha⟩]
  | cons b bs ih =>
    simp only [List.cons_append, onNewest]
    rw [if_neg (by simp [hr]), ih]

/-- Where no record has the number, nothing changes. -/
theorem onNewest_none (n : BitVec 16) (f : TripRecord → TripRecord) (l : List TripRecord)
    (h : ∀ q ∈ l, q.number ≠ n) : onNewest n f l = l := by
  induction l with
  | nil => rfl
  | cons b bs ih =>
    simp only [onNewest]
    rw [if_neg (fun c => h b (by simp) c.1), ih (fun q hq => h q (by simp [hq]))]

theorem keeps_riseFrom (before : Cls) : Keeps [.se, .tu, .cp] s (s.riseFrom before) := by
  unfold State.riseFrom
  exact Keeps.ite (((keeps_reachClass s _).mono (by decide)).trans ((keeps_sectionActions _ _).mono (by decide)))
    (Keeps.refl _ s)

theorem keeps_openRecord (r : TripRecord) : Keeps [.tu, .is] s (s.openRecord r) := by
  refine Keeps.trans ?_ ((keeps_onTu _ _).mono (by decide))
  unfold State.dropOldestRecord
  split
  · exact Keeps.ite (((keeps_onTu s _).mono (by decide)).trans ((keeps_onIs _ _).mono (by decide))) (Keeps.refl _ s)
  · exact Keeps.refl _ s

/-- Entry to CAPTURE leaves the Shaft Unit, the Register Unit, the Image Mover, the Mark Scanner and the View Unit. -/
theorem keeps_enterCapture (c : CausePair) : Keeps [.rc, .se, .tu, .is, .cp] s (s.enterCapture c) :=
  ((((keeps_setTrip s _).mono (by decide)).trans ((keeps_openRecord _ _).mono (by decide))).trans
    ((keeps_sectionActions _ _).mono (by decide))).trans ((keeps_onIs _ _).mono (by decide))

theorem keeps_enterLockout : Keeps [.rc, .se, .tu, .cp] s s.enterLockout :=
  ((((keeps_appendSecondary s _).mono (by decide)).trans ((keeps_reachClass _ _).mono (by decide))).trans
    ((keeps_setTrip _ _).mono (by decide))).trans ((keeps_orderSections _ _ _).mono (by decide))

/-- Raising a cause leaves the Shaft Unit, the Register Unit, the Image Mover, the Mark Scanner and the View Unit. -/
theorem keeps_raise (c : CausePair) : Keeps [.rc, .se, .tu, .is, .cp] s (s.raise c) := by
  have latched : ∀ (a : State) (k : Cls), Keeps [.rc, .se, .tu, .is, .cp] a (a.latched c k) := by
    intro a k
    have h1 : Keeps [.rc, .se, .tu, .is, .cp] a (if a.tu.matrix.get c.cause = .notify then a.notify .notify else a) :=
      Keeps.ite ((keeps_notify a _).mono (by decide)) (Keeps.refl _ a)
    have rise : ∀ b : State, Keeps [.rc, .se, .tu, .is, .cp] b ((b.appendSecondary c).riseFrom k) := fun b =>
      ((keeps_appendSecondary b c).mono (by decide)).trans ((keeps_riseFrom _ k).mono (by decide))
    unfold State.latched
    refine h1.trans ?_
    dsimp only
    generalize (if a.tu.matrix.get c.cause = .notify then a.notify .notify else a) = b
    split
    · exact Keeps.ite (keeps_enterCapture b c) (Keeps.refl _ b)
    · exact Keeps.ite (keeps_enterCapture b c) (Keeps.refl _ b)
    · exact Keeps.ite ((keeps_enterLockout b).mono (by decide)) (rise b)
    · exact Keeps.ite ((keeps_enterLockout b).mono (by decide)) (rise b)
    · exact rise b
    · exact rise b
  unfold State.raise
  exact Keeps.ite (Keeps.ite ((keeps_enterLockout s).mono (by decide)) (Keeps.refl _ s))
    (((keeps_onTu s _).mono (by decide)).trans (latched _ _))

/-- A handed trip word leaves the Shaft Unit, the Register Unit, the Image Mover, the Mark Scanner and the View Unit. -/
theorem keeps_handTripWord (w : TripClasses) (mask : BitVec 32) :
    Keeps [.rc, .se, .tu, .is, .cp] s (s.handTripWord w mask) := by
  have h1 : Keeps [.rc, .se, .tu, .is, .cp] s (s.setCarried (TripClasses.cls w) mask) := (keeps_onTu s _).mono (by decide)
  have rise : Keeps [.rc, .se, .tu, .is, .cp] s
      (((s.setCarried (TripClasses.cls w) mask).appendSecondary ⟨.remote, none⟩).riseFrom s.effectiveClass) :=
    h1.trans (((keeps_appendSecondary _ _).mono (by decide)).trans ((keeps_riseFrom _ _).mono (by decide)))
  unfold State.handTripWord
  dsimp only
  split
  · exact Keeps.ite (h1.trans (keeps_enterCapture _ _)) h1
  · exact Keeps.ite (h1.trans (keeps_enterCapture _ _)) (Keeps.ite h1
      (h1.trans (((keeps_setTrip _ _).mono (by decide)).trans ((keeps_onSe _ _).mono (by decide)))))
  all_goals exact Keeps.ite rise h1

end Sys2Proof.Machine
end

