-- ==== Sys2Proof/Tests/Slice0.lean ====
section
/-! SUPPORT. Tests of the model: ill-formed commands that WellFormed refuses, the worked cases of the spec, and for every
statement with hypotheses a concrete state and operands that meet them. -/

namespace Sys2Proof.Tests

open Sys2Proof.Machine

/-! ### Helpers -/

/-- CP0 DRIVE, CP1 VISION, CP2 PANEL, CP3 DESK; period code 0. -/
def straps (master : Bool) : Straps := ⟨master, 0, ⟨[1, 2, 3, 0], rfl⟩, 3⟩

/-- A hub right after hardware reset. -/
def hub (master : Bool) : State := State.resetWith (straps master) false false []

/-- A cycle frame of a ring of four hubs: period code 0, Dpub 6,250, no trip. -/
def frame (number : BitVec 16) (age : Nat) (angle : FullAngle) (v : Int) (atRest : Bool) : CycleFields :=
  ⟨number, 0, 4, ⟨atRest, false, false⟩, false, 6250, age, angle, v, ⟨⟨false, false, false⟩, ⟨false, false, false⟩⟩, 0⟩

/-- A follower, hub 1 of four, in RUNNING at hub time 1,000, with its shaft at rest after cycle 6. -/
def follower : State :=
  { hub false with
    hubTime := 1000
    rc := { (hub false).rc with
      ringState := .running, hubAddress := some 1, hubCount := some 4, period := some 0, dpub := some 6250
      rosterHeld := true, joinedCensus := some (1, 5), deadline := some 20000, expectedNext := some 13500
      lastCycle := some (cycleRecord (frame 6 0 0 0 true) 900 0) }
    su := { (hub false).su with tracker := { (hub false).su.tracker with
      history := [⟨6, 2000, 0, 0, false, false⟩], lastCycle := 6 } } }

/-- A master of four hubs in RUNNING at hub time 1,000, after cycle 6. -/
def master : State :=
  { hub true with
    hubTime := 1000
    rc := { (hub true).rc with
      ringState := .running, hubCount := some 4, cycleNumber := 6, nextOrigination := some 13500, returnSeen := true
      lastCycle := some (cycleRecord (frame 6 0 0 0 true) 1000 0) }
    su := { (hub true).su with tracker := { (hub true).su.tracker with
      history := [⟨6, 7250, 0, 0, false, false⟩], lastCycle := 6 } } }

/-- Section 5 of the worked sequence of section 3.3, IDLE at drive port CP0. -/
def sectionFive : Section :=
  { Section.reset with
    state := .idle, n := 1, d := 1, os := 1500, tt := -200, tmax := 1000, ca := 1300, slew := 120, nudgeLimit := 250
    position := 100000, serial := 41 }

/-- Slot 5 holds a section. -/
def withFive (s : State) (x : Section) : State := s.onSlot 5 (fun _ => x)

/-- Strip 12 of the worked sequence of section 7.3: COMPLETE, 5,000 bytes in three tiles, opened by CP1. -/
def stripTwelve : Strip :=
  { newStrip 12 (.here 1) 1 .grey 2500 2 5000 [0, 1, 2] (.known 77 3) false with fill := 5000, complete := true }

/-- The directory holds one strip, which has taken its tiles. -/
def withStrip (s : State) (x : Strip) : State :=
  s.onIs (fun i => { i with strips := [x], age := if x.complete then [x.id] else [], idCount := x.id, free := i.free.drop 3 })

/-- What holds after a command. -/
def after (c : Instr) (s : State) (p : State → Bool) : Bool :=
  match exec c s with
  | .next s' => p s'
  | .fault _ | .refused _ => false

/-- What holds after commands in order. -/
def afterAll : List Instr → State → (State → Bool) → Bool
  | [], s, p => p s
  | c :: r, s, p => after c s (fun s' => afterAll r s' p)

/-- The last response ready at a port. -/
def lastReply (s : State) (p : PortNo) : Option (Tag × Status) :=
  (s.port p).responses.getLast?.map (fun r => (r.tag, r.status))

/-! ### Ill-formed commands -/

/-- A number beyond its bytes, for each check of a request's values. -/
theorem test_wf_refuses_request_values :
    [Instr.setCableComp 0 3 0 (some 65536), .setPublicationOffset 0 3 0 (some 16777216), .setSpeed 0 3 0 (some 2147483648),
      .setSpeed 0 3 0 (some (-2147483649)), .inchStart 0 3 0 (some 2147483648), .setRamp 0 3 0 (some 16777216) none none,
      .setRamp 0 3 0 none (some 16777216) none, .setRamp 0 3 0 none none (some 16777216), .setVmax 0 3 0 (some 4294967296),
      .trimNudge 0 3 0 (some 256) none none, .trimNudge 0 3 0 none (some 256) none,
      .trimNudge 0 3 0 none none (some 2147483648), .sectionRead 0 3 0 (some 256), .couple 0 3 0 (some 256),
      .decouple 0 3 0 (some 256), .setpointPickup 0 0 0 (some 256), .setPosition 0 3 0 (some 256) none,
      .setPosition 0 3 0 none (some 16777216), .driveStatus 0 0 0 (some 256) none none none none,
      .driveStatus 0 0 0 none none none none (some 16777216)].all (fun c => !c.wellFormed) = true := by decide

/-- The same for SECTION SET, REGISTER SET, the trip and notice requests. -/
theorem test_wf_refuses_items :
    [Instr.sectionSet 0 3 0 (some 256) none [], .sectionSet 0 3 0 none (some 65536) [],
      .sectionSet 0 3 0 none none [(256, 0)], .sectionSet 0 3 0 none none [(4, 8388608)],
      .sectionSet 0 3 0 none none [(6, -8388609)], .sectionSet 0 3 0 none none [(5, 16777216)],
      .sectionSet 0 3 0 none none [(1, 256)], .sectionSet 0 3 0 none none [(9, 256)],
      .sectionSet 0 3 0 none none [(2, 65536)], .sectionSet 0 3 0 none none [(2, -1)],
      .registerSetInputForm 0 3 0 (some 256) {}, .registerSetInputForm 0 3 0 none { edge := some 256 },
      .registerSetInputForm 0 3 0 none { holdOff := some 65536 }, .registerSetLoopForm 0 3 0 (some 256) {},
      .registerSetLoopForm 0 3 0 none { source := some ⟨256, 0⟩ }, .registerSetLoopForm 0 3 0 none { source := some ⟨0, 256⟩ },
      .registerSetLoopForm 0 3 0 none { channel := some 256 }, .registerSetLoopForm 0 3 0 none { startColumn := some 65536 },
      .registerSetLoopForm 0 3 0 none { direction := some 256 }, .registerSetLoopForm 0 3 0 none { threshold := some 256 },
      .registerSetLoopForm 0 3 0 none { runLength := some 256 }, .registerSetLoopForm 0 3 0 none { mexp := some 16777216 },
      .registerSetLoopForm 0 3 0 none { window := some 16777216 }, .registerSetLoopForm 0 3 0 none { deadband := some 65536 },
      .registerSetLoopForm 0 3 0 none { gain := some 256 }, .registerSetLoopForm 0 3 0 none { missLimit := some 256 },
      .registerSetLoopForm 0 3 0 none { minSpeed := some 4294967296 }, .registerRead 0 3 0 (some 256) none,
      .registerRead 0 3 0 none (some 256), .matrixSet 0 3 0 [(256, 0)], .matrixSet 0 3 0 [(0, 256)],
      .noticeRoute 0 3 0 [(256, 0)], .noticeRoute 0 3 0 [(1, 256)], .noticeEnable 0 3 0 (some 65536)].all
      (fun c => !c.wellFormed) = true := by decide

/-- The same for the cameras, the strips and the views. -/
theorem test_wf_refuses_strips_and_views :
    [Instr.cameraSet 0 3 0 (some 256) {}, .cameraSet 0 3 0 none { mode := some 256 },
      .cameraSet 0 3 0 none { pitch := some 65536 }, .cameraSet 0 3 0 none { minSpeed := some 4294967296 },
      .triggerSet 0 3 0 (some 256) none, .triggerSet 0 3 0 none (some [16777216]), .stripOpen 0 1 0 (some 256) none none none,
      .stripOpen 0 1 0 none (some 65536) none none, .stripOpen 0 1 0 none none (some 65536) none,
      .stripOpen 0 1 0 none none none (some 256), .stripData 0 1 0 (some 65536) none [], .stripData 0 1 0 none (some 16777216) [],
      .stripClose 0 1 0 (some 65536), .stripDiscard 0 1 0 (some 65536),
      .stripHold 0 3 0 (some 65536), .stripUnhold 0 3 0 (some 65536), .stripRead 0 3 0 (some 65536) none none,
      .stripRead 0 3 0 none (some 16777216) none, .stripRead 0 3 0 none none (some 65536), .stripList 0 3 0 (some 256),
      .freezeSpanSet 0 3 0 (some 256), .viewOpen 0 3 0 (some 256) none none none, .viewOpen 0 3 0 none (some 256) none none,
      .viewOpen 0 3 0 none none (some 256) none, .viewOpen 0 3 0 none none none (some 256), .viewClose 0 3 0 (some 256)].all
      (fun c => !c.wellFormed) = true := by decide

/-- STRIP DATA of more than 1,024 bytes. -/
theorem test_wf_refuses_long_strip_data :
    (Instr.stripData 0 1 0 none none (List.replicate 1025 0)).wellFormed = false := by
  rw [Instr.wellFormed, List.length_replicate]; rfl

/-- A frame of no byte, and a field of a frame beyond its bytes. -/
theorem test_wf_refuses_frames :
    [Instr.frameForward 0 ⟨.unknown 0x7F, 0, true⟩, .frameForward 0 ⟨.unknown 0x03, 9, true⟩,
      .frameForward 0 ⟨.census ⟨0, 0, 256, false⟩, 13, true⟩, .census 0 ⟨⟨0, 0, 256, false⟩, 13, true⟩,
      .returnedCensus 0 ⟨⟨0, 0, 0, false⟩, 0, true⟩, .roster 0 ⟨⟨0, 0, 256, 0, 0⟩, 17, true⟩,
      .returnedRoster 0 ⟨⟨0, 0, 4, 0, 4294967296⟩, 17, true⟩, .cycleFrame 0 ⟨{ frame 1 0 0 0 true with hubCount := 0 }, 27, true⟩,
      .cycleFrame 0 ⟨{ frame 1 0 0 0 true with hubCount := 65 }, 27, true⟩,
      .returnedCycleFrame 0 ⟨{ frame 1 0 0 0 true with dpub := 131072 }, 27, true⟩, .cycleFrame 0 ⟨frame 1 65536 0 0 true, 27, true⟩,
      .cycleFrame 0 ⟨frame 1 0 0 2147483648 true, 27, true⟩, .dataFrameRemoval 0 ⟨⟨.edit, 256, 0, 7, []⟩, 16, true⟩,
      .dataFrameRemoval 0 ⟨⟨.edit, 0, 256, 7, []⟩, 16, true⟩, .dataFrameRemoval 0 ⟨⟨.edit, 0, 0, 65536, []⟩, 16, true⟩,
      .dataFrameRemoval 0 ⟨⟨.edit, 0, 0, 0, [1]⟩, 16, true⟩].all (fun c => !c.wellFormed) = true := by decide

/-- A field of a delivered payload beyond its bytes, a segment whose count is not its bytes, a content too long. -/
theorem test_wf_refuses_payloads :
    [Instr.edit 0 256 0 0 0, .edit 0 0 0 256 0, .edit 0 0 0 0 2147483648, .editReply 0 256 0 .done 0 0,
      .editReply 0 0 0 .done 2147483648 0, .imageReply 0 256 0 0 .accept 0, .imageReply 0 0 65536 0 .accept 0,
      .imageReply 0 0 0 0 .accept 65536, .imageAbortToSender 0 256 0 0 .timeout, .imageAbortToReceiver 0 0 65536 0 .timeout,
      .imageBegin 0 256 ⟨0, 0, 0, 0, 0, 0, 0, 0, .unknown⟩, .imageBegin 0 0 ⟨65536, 0, 0, 0, 0, 0, 0, 0, .unknown⟩,
      .imageBegin 0 0 ⟨0, 0, 256, 0, 0, 0, 0, 0, .unknown⟩, .imageBegin 0 0 ⟨0, 0, 0, 256, 0, 0, 0, 0, .unknown⟩,
      .imageBegin 0 0 ⟨0, 0, 0, 0, 65536, 0, 0, 0, .unknown⟩, .imageBegin 0 0 ⟨0, 0, 0, 0, 0, 256, 0, 0, .unknown⟩,
      .imageBegin 0 0 ⟨0, 0, 0, 0, 0, 0, 4294967296, 0, .unknown⟩, .imageBegin 0 0 ⟨0, 0, 0, 0, 0, 0, 0, 65536, .unknown⟩,
      .imageSegment 0 256 0 0 0 0 [], .imageSegment 0 0 65536 0 0 0 [], .imageSegment 0 0 0 0 65536 0 [],
      .imageSegment 0 0 0 0 0 1 [], .subscribe 0 256 0 0 0 0 0, .subscribe 0 0 256 0 0 0 0, .subscribe 0 0 0 0 256 0 0,
      .subscribe 0 0 0 0 0 256 0, .subscribe 0 0 0 0 0 0 256, .unsubscribe 0 256 0 0, .subscribeReply 0 0 256 0 .accept,
      .viewUpdate 0 256 0 0 none, .viewUpdate 0 0 256 0 none, .viewUpdate 0 0 0 0 (some [⟨256, []⟩]),
      .editReply 0 0 0 (.unlisted 0) 0 0, .imageReply 0 0 0 0 (.unlisted 2) 0, .imageAbortToSender 0 0 0 0 (.unlisted 3),
      .subscribeReply 0 0 0 0 (.unlisted 1)].all (fun c => !c.wellFormed) = true := by decide

/-- Values at the top of their bytes pass. -/
theorem test_wf_accepts_bounds :
    [Instr.setCableComp 0 3 0 (some 65535), .setSpeed 0 3 0 (some (-2147483648)), .sectionSet 0 3 0 (some 255) (some 65535)
      [(4, -8388608), (6, 8388607), (9, 255)], .cycleFrame 0 ⟨{ frame 1 65535 0 (-2147483648) true with hubCount := 64 }, 27, true⟩,
      .imageSegment 0 255 65535 0 65535 1 [7], .viewUpdate 0 255 255 0 (some [⟨255, [1]⟩])].all
      (fun c => c.wellFormed) = true := by decide

/-! ### The worked cases of the spec -/

/-- Section 2.2, one origination at production speed. -/
theorem test_generator_production_speed :
    let g := ({ vt := 103079215, vi := 0, a := 40000, dn := 2577, de := 20000, vmax := 2147479552, v := 102000000
                angle := BitVec.ofNat 36 (3990000 * 4096 + 1000), inching := false, tripDecel := false } : Generator).step
                false false
    g.v = 102040000 ∧ intAngle g.angle = 4014912 ∧ (g.angle.toNat % 4096) = 1448 := by decide

/-- Section 2.3, from reverse inching to a forward speed: V stops at 0 at k+3 and leaves it at A. -/
theorem test_generator_crosses_zero :
    let g : Generator := { vt := 6000, vi := -10000, a := 2577, dn := 2577, de := 20000, vmax := 2147479552, v := -10000
                           angle := 40960000, inching := false, tripDecel := false }
    let run := (List.range 7).foldl (fun l _ => ((l.headD g).step false false) :: l) [g]
    run.reverse.map (fun x => x.v) = [-10000, -7423, -4846, -2269, 0, 2577, 5154, 6000]
      ∧ (run.headD g).angle = 40959193 := by decide

/-- A history of two entries, as in the worked case of section 2.4. -/
def twoEntries (theta : Angle) (delta : Int) : Tracker :=
  { (hub false).su.tracker with
    history := [⟨1, 1000000, theta, 0, false, false⟩, ⟨2, 1012500, theta + BitVec.ofInt 24 delta, delta, false, false⟩] }

/-- Section 2.4, interpolating a mark capture: an angle, across the wrap, a half in reverse, PENDING, UNKNOWN. -/
theorem test_interpolation :
    (twoEntries 3990000 25166).angleAt 1004000 = .angle 3998053
      ∧ (twoEntries 16770000 25166).angleAt 1006250 = .angle 5367
      ∧ (twoEntries 9996 (-25)).angleAt 1006250 = .angle 9983
      ∧ (twoEntries 3990000 25166).angleAt 1013000 = .pending
      ∧ (twoEntries 3990000 25166).angleAt 999000 = .unknown := by decide

/-- Section 1.4, publication instants: arrival ages 300, 682 and 1,114 and the ages forwarded. -/
theorem test_ages :
    [300, 350, 400].foldl (fun (r : List Nat × Nat) c => let a := min 65535 (r.2 + c); (r.1 ++ [6250 - a], a + 32)) ([], 0)
        = ([5950, 5568, 5136], 1146)
      ∧ publicationInstant 0 6250 1114 = (5136, false) ∧ publicationInstant 0 6250 6250 = (0, false)
      ∧ publicationInstant 9 6250 6251 = (9, true) ∧ publicationInstant 9 131071 65535 = (9, true) := by decide

/-- Section 2.4, a corrupt frame: the extrapolated step adds the last V, and the deadline moves by a period. -/
theorem test_extrapolated_step :
    let s := { follower with
      hubTime := 2018750
      rc := { follower.rc with
        deadline := some 2018750
        lastCycle := some (cycleRecord (frame 7 714 (BitVec.ofNat 36 (4014912 * 4096 + 1448)) 102040000 false) 2000000 1114) }
      su := { follower.su with tracker := { follower.su.tracker with
        history := [⟨7, 2005136, 4014912, 24912, false, false⟩], angle := BitVec.ofNat 36 (4014912 * 4096 + 1448)
        lastV := 102040000, lastCycle := 7 } } }
    after (.deadlineExpiry 2018750) s (fun s' =>
      decide (s'.rc.deadline = some 2031250 ∧ s'.rc.missedDeadlines = 1
        ∧ s'.su.tracker.history.getLast? = some ⟨8, 2023886, 4039824, 24912, true, false⟩
        ∧ s'.su.tracker.angle.toNat = 4039824 * 4096 + 1896)) = true := by decide +kernel

/-- Section 3.2, one step of a folder-side section, and the later reverse step. -/
theorem test_gear_and_slew :
    let x : Section := { Section.reset with
      state := .coupled, n := 2, d := 3, r := 2, os := 1500, tt := -200, tmax := 1000, ca := 1000, slew := 120
      position := 16770000 }
    (x.move 25165).1.r = 1 ∧ (x.move 25165).1.ca = 1120 ∧ (x.move 25165).1.position = 9681
      ∧ (x.move 25165).2 = 16897 ∧ ({ x with r := 1 }.move (-1000)).1.r = 2
      ∧ ({ x with corrSum := -487, corrHeld := true }.applySum).tt = -687
      ∧ ({ x with tt := 1000, atLimit := true }.applySum).atLimit = true := by decide

/-- Section 3.3, edits from two ports and a fence: posted, clamped to the nudge limit, a stale serial, a waiting FENCE. -/
theorem test_edits_and_fence :
    afterAll [.sectionSet 1001 3 0 (some 5) (some 41) [(4, 2000)], .trimNudge 1002 2 0 (some 1) (some 5) (some 400),
        .sectionSet 1003 3 1 (some 5) (some 41) [(6, 0)], .fence 1004 3 2,
        .sectionSet 1005 3 3 (some 5) (some 43) [(5, 40)]] (withFive follower sectionFive) (fun s =>
      decide ((s.port 3).responses.map (fun r => (r.tag, r.status)) = [(0, .posted), (1, .staleSerial), (3, .posted)]
        ∧ lastReply s 2 = some (0, .clamped) ∧ (s.slot 5).posted.length = 3
        ∧ ((s.slot 5).applyPosted false).tt = 40 ∧ ((s.slot 5).applyPosted false).atLimit = true
        ∧ ((s.slot 5).applyPosted false).serial = 44)) = true := by decide

/-- Section 3.4, phasing a cylinder at make-ready: COUPLE waits, and at the step the section is COUPLED and slews by 120. -/
theorem test_couple_at_the_step :
    afterAll [.couple 1001 3 0 (some 5), .cycleFrame 13600 ⟨frame 7 0 0 0 true, 27, true⟩]
      (withFive follower { sectionFive with os := 2000, tt := 40, tmax := 40 }) (fun s =>
      decide ((s.slot 5).state = .coupled ∧ (s.slot 5).ca = 1420 ∧ (s.slot 5).position = 100120
        ∧ lastReply s 3 = some (0, .done) ∧ s.se.waiting = [])) = true := by decide +kernel

/-- Section 4.3, one sensor mark on a 1:1 printing unit: E -1,947, C -487. -/
theorem test_sensor_mark :
    let s := (follower.onSlot 2 (fun _ => { sectionFive with state := .coupled })).onLoop 2 (fun l =>
      { l with enable := true, state := .locked, source := .sensor 2, mexp := 4000000, window := 50000, deadband := 100
               gain := 64, misses := 2 })
    ((s.judgeMark 2 3998053).loop 2).lastE = some (-1947) ∧ ((s.judgeMark 2 3998053).loop 2).lastC = some (-487)
      ∧ ((s.judgeMark 2 3998053).slot 2).corrSum = -487 ∧ ((s.judgeMark 2 3998053).loop 2).misses = 0
      ∧ ((s.judgeMark 2 4050001).loop 2).strays = 1 := by decide

/-- Section 6.3, scheduling and stamping one trigger: armed at 1,004,967 for the step's cycle. -/
theorem test_trigger_schedule :
    let s := (follower.onSu (fun u => { u with tracker := { u.tracker with lastV := 103079936 } })).onCamera 0 (fun c =>
      { c with table := [4000000] })
    ((s.storeGrowth ⟨7, 1000000, 3990000, 25166, false, false⟩).camera 0).armed = [⟨1004967, 7⟩]
      ∧ ((s.storeGrowth ⟨7, 1000000, 3990000, 25166, false, false⟩).camera 0).scheduled = some 4015166 := by decide

/-- Section 6.4, a strip truncated at close: two of four rows, three of six tiles, the rest at the tail of the free list. -/
theorem test_strip_truncated :
    let x : Strip := newStrip 1 (.here 1) 2 .grey 3000 4 12000 [0, 1, 2, 3, 4, 5] (.known 9 3) false
    let s := (hub false).onIs (fun i => { i with strips := [{ x with fill := 8192 }], free := [6, 7], idCount := 1 })
    after (.stripClose 10 1 0 (some 1)) s (fun s' =>
      decide (s'.is.free = [6, 7, 3, 4, 5] ∧ s'.is.age = [1]
        ∧ (s'.strip 1).map (fun y => (y.rows, y.byteSize, y.fill, y.tiles, y.complete)) = some (2, 6000, 6000, [0, 1, 2], true)
        ∧ (s'.port 1).responses = [⟨0, .done, valuesBytes [val 1 2]⟩])) = true := by decide

/-- Section 6.5, a freeze walk under the quota: strip 20 is frozen, 18 does not fit. -/
theorem test_freeze_quota :
    let x (id n : Nat) (f : List (BitVec 16)) : Strip :=
      { newStrip id (.here 1) 0 .grey 1 1 1 (List.range n) (.known 0 499) false with complete := true, freezeSet := f }
    let s := (hub false).onIs (fun i =>
      { i with strips := [x 10 12 [2], x 18 128 [], x 19 180 [3], x 20 64 []], walk := some ⟨4, [some 20, some 19, some 18], []⟩ })
    afterAll [.freezeWalkExamination 1, .freezeWalkExamination 2, .freezeWalkExamination 3] s (fun s' =>
      decide (s'.is.walk = some ⟨4, [], [20, 19]⟩ ∧ s'.frozenTiles = 256)) = true := by decide +kernel

/-- Section 7.3, one strip to one cabinet with one BUSY: five segments, transfer 57, then RETRY WAIT and transfer 58. -/
theorem test_transfer_busy :
    let s := (withStrip follower { stripTwelve with sending := [3] }).onIm (fun m =>
      { m with sendQueue := [(12, 3)], transferCount := 56 })
    after (.senderTakeHead 1001) s (fun s1 =>
      decide (s1.im.transfer = some ⟨12, 3, 57, 1, 5, 0, none⟩ ∧ s1.im.sender = .beginSent)
        && after (.imageReply 1002 3 12 57 .busy 0) s1 (fun s2 =>
          decide (s2.im.sender = .retryWait ∧ s2.im.timer = some ⟨0, 2⟩ ∧ s2.im.transfer.map (fun k => k.attempt) = some 2)))
      = true := by decide

/-- Section 8.3: the first run of three at or above 180, to the left; the broken run before it does not count. -/
theorem test_scan_run :
    let row : List Nat := [0, 0, 230, 210, 185, 0, 175, 200, 190, 0]
    scanRows (fun _ c => decide (180 ≤ row.getD c 0)) 3 (scanColumns .left 9 10) [5] = (.hit 5 4, 8) := by decide

/-- Section 8.2, the rows of the worked case: 3 to 7 lie in the window. -/
theorem test_selected_rows : selectedRows 3979200 4000 8 4000000 10000 = [3, 4, 5, 6, 7] := by decide

/-- Section 10.3, one desk port: a tag in use is a frame error, and the GET after it reports it with the response. -/
theorem test_tag_in_use :
    afterAll [.sectionRead 1001 3 1 (some 5), .sectionRead 1002 3 1 (some 6), .get 1003 3, .getCompletion 1004 3 9999] follower
      (fun s => decide ((s.port 3).frameErrors = 1 ∧ (s.port 3).outstanding = 0 ∧ (s.port 3).responses = []
        ∧ (s.port 3).pending = 0)) = true := by decide +kernel

/-- Section 5.7, the second failure: RING LOST raised in STOPPING is LOCKOUT, and every section is RELEASED. -/
theorem test_lockout :
    let s := (withFive follower { sectionFive with state := .coupled }).onTu (fun t => { t with state := .stopping })
    (s.raiseHub .ringLost).tu.state = .lockout ∧ ((s.raiseHub .ringLost).slot 5).state = .released
      ∧ (s.raiseHub .ringLost).tripOut = true := by decide

/-- Section 11.2: numbers are sent most significant byte first, negative ones in two's complement. -/
theorem test_bytes : beBytes 4 (-2) = [0xFF, 0xFF, 0xFF, 0xFE] ∧ ofBytesSigned [0xFF, 0xFE] = -2
    ∧ beBytes 3 8388608 = [0x80, 0, 0] := by decide

/-! ### Witnesses: for every statement with hypotheses, a state and operands that meet them, clause by clause -/

/-- EveryCommandCompletes: a command that is not hardware reset. -/
theorem witness_EveryCommandCompletes : ∀ st a b, Instr.fence 0 3 0 ≠ .hardwareReset st a b := by
  intro _ _ _ h; cases h

/-- HardwareReset: with both lines active, TRIP IN is the first cause and WEB BREAK the second; with none, none. -/
theorem witness_HardwareReset :
    after (.hardwareReset (straps true) true true) follower (fun s =>
        decide (s.tu.causes = [⟨.tripIn, none⟩, ⟨.webBreak, none⟩] ∧ s.tu.state = .capture ∧ s.tripOut = true
          ∧ s.tu.records.map (fun r => (r.number, r.first, r.secondary)) = [(1, ⟨.tripIn, none⟩, [⟨.webBreak, none⟩])]
          ∧ (s.port 3).pending = 8 ∧ (s.port 0).pending = 0)) = true
      ∧ after (.hardwareReset (straps true) false false) follower (fun s => decide (s.tu.records = [])) = true := by
  decide +kernel

/-- CensusRound: a master in DOWN, one in LOST with the press stopped, and one whose census has returned. -/
theorem witness_CensusRound :
    let d := hub true
    let l := (master.onRc (fun r => { r with ringState := .lost, censusTimer := some 1500 })).onTu (fun t =>
      { t with state := .stopped })
    let r := d.onRc (fun r => { r with outstandingCensus := some (1, 500000) })
    let m := l.onRc (fun r => { r with outstandingCensus := some (1, 500000), reforming := true })
    (d.isMaster = true ∧ d.rc.censusTimer = some 500000 ∧ isDue 500000 500000 = true ∧ d.rc.ringState = .down)
      ∧ (l.isMaster = true ∧ l.rc.censusTimer = some 1500 ∧ isDue 1500 1600 = true ∧ l.rc.ringState = .lost
        ∧ l.reformationHolds = true)
      ∧ (r.isMaster = true ∧ r.rc.ringState = .down ∧ r.rc.outstandingCensus = some (1, 500000) ∧ r.rc.dpub = some 6250)
      ∧ after (.returnedCensus 500200 ⟨⟨1, 500000, 3, false⟩, 13, true⟩) r (fun s => decide (s.rc.hubCount = some 4)) = true
      ∧ after (.returnedCensus 500200 ⟨⟨1, 500000, 31, true⟩, 13, true⟩) r (fun s => s.rc.tooMany) = true
      ∧ (m.isMaster = true ∧ m.rc.ringState = .lost ∧ m.rc.outstandingCensus = some (1, 500000) ∧ m.rc.dpub = some 6250
        ∧ m.rc.reforming = true)
      ∧ after (.returnedCensus 500200 ⟨⟨1, 500000, 3, false⟩, 13, true⟩) m (fun s =>
        decide (s.rc.reforming = false ∧ s.rc.ringState = .lost)) = true := by decide

/-- FollowerTakesAnAddress: the counts 30 and 31, RING OUT just free in time, an arrival that FRAME_FORWARD gave, OVERFLOW set
already, and a RUNNING follower. -/
theorem witness_FollowerTakesAnAddress :
    let s := (hub false).onRc (fun r => { r with outLeft := 6 })
    let given := (hub false).onRc (fun r => { r with inbound := some ⟨0, false, 0⟩ })
    (s.isMaster = false ∧ s.rc.ringState ≠ .running ∧ s.rc.arrivalAt ((0 : HubTime) - 26) = none ∧ s.rc.transit = []
        ∧ s.rc.outLeft - ((0 : HubTime) - s.hubTime).toNat ≤ 6)
      ∧ given.rc.arrivalAt ((26 : HubTime) - 26) ≠ none ∧ (hub false).rc.outLeft - ((0 : HubTime) - 0).toNat ≤ 32
      ∧ after (.census 26 ⟨⟨1, 5, 3, true⟩, 13, true⟩) (hub false) (fun s => decide (s.rc.ringState = .down)) = true
      ∧ (follower.isMaster = false ∧ follower.rc.ringState = .running)
      ∧ after (.census 1026 ⟨⟨1, 5, 3, false⟩, 13, true⟩) follower (fun s =>
        decide (s.rc.ringState = .addressed ∧ ⟨.ringLost, none⟩ ∈ s.tu.causes)) = true
      ∧ after (.census 26 ⟨⟨1, 5, 30, false⟩, 13, true⟩) (hub false) (fun s => decide (s.rc.hubAddress = some 31)) = true
      ∧ after (.census 26 ⟨⟨1, 5, 31, false⟩, 13, true⟩) (hub false) (fun s => decide (s.rc.ringState = .down)) = true := by
  decide

/-- FollowerTakesAnAddress, in a trip: the second failure of a follower in STOPPING, and one that stays in STOPPED. -/
theorem witness_FollowerTakesAnAddress_trips :
    let s (x : TripState) := follower.onTu (fun t => { t with state := x })
    (s .stopping).rc.ringState = .running ∧ ⟨.ringLost, none⟩ ∉ follower.tu.causes ∧ 2 ≤ (follower.tu.matrix.get .ringLost).rank
      ∧ after (.census 1026 ⟨⟨1, 5, 3, false⟩, 13, true⟩) follower (fun s => decide (s.tu.state = .capture)) = true
      ∧ after (.census 1026 ⟨⟨1, 5, 3, false⟩, 13, true⟩) (s .stopping) (fun s => decide (s.tu.state = .lockout)) = true
      ∧ after (.census 1026 ⟨⟨1, 5, 3, false⟩, 13, true⟩) (s .stopped) (fun s => decide (s.tu.state = .stopped)) = true := by
  decide

/-- ForeignCensusIsConflict: a census and a roster that the master has not sent. -/
theorem witness_ForeignCensusIsConflict :
    (hub true).isMaster = true ∧ (hub true).rc.ringState ≠ .conflict ∧ (hub true).rc.outstandingCensus ≠ some (9, 5)
      ∧ (hub true).rc.outstandingRoster ≠ some ⟨9, 5, 4, 0, 6250⟩
      ∧ (let c := master.onRc (fun r => { r with ringState := .conflict })
        c.isMaster = true ∧ c.rc.ringState = .conflict
          ∧ [Instr.returnedCensus 1100 ⟨⟨9, 5, 0, false⟩, 13, false⟩, .returnedRoster 1100 ⟨⟨9, 5, 4, 0, 6250⟩, 16, true⟩,
            .returnedCycleFrame 1100 ⟨frame 6 0 0 0 true, 26, true⟩, .frameForward 1100 ⟨.unknown 9, 5, true⟩].all (fun i =>
              after i c (fun s => decide (s.rc.corruptCount = 1))) = true) := by decide

/-- ForeignCensusIsConflict, from RUNNING: RING LOST is taken. -/
theorem witness_ForeignCensusIsConflict_from_running :
    master.rc.ringState = .running ∧ master.rc.outstandingCensus ≠ some (9, 5)
      ∧ after (.returnedCensus 1100 ⟨⟨9, 5, 0, false⟩, 13, true⟩) master (fun s =>
        decide (s.rc.ringState = .conflict ∧ s.tu.state = .capture)) = true := by decide

/-- FollowerTakesTheRoster: a follower that takes it, one that ignores it, a roster timer that has come and one that has
not. -/
theorem witness_FollowerTakesTheRoster :
    let s := (hub false).onRc (fun r =>
      { r with ringState := .addressed, hubAddress := some 1, joinedCensus := some (1, 5), rosterTimer := some 2500026 })
    (s.isMaster = false ∧ s.rc.ringState = .addressed ∧ s.rc.rosterHeld = false ∧ s.rc.joinedCensus = some (1, 5))
      ∧ (follower.isMaster = false ∧ follower.rc.ringState ≠ .addressed)
      ∧ s.rc.rosterTimer = some 2500026 ∧ isDue 2500026 2500026 = true ∧ isDue 2500026 2500025 = false
      ∧ follower.rc.rosterTimer = none := by decide

/-- FollowerTakesTheRoster with the re-forming flag set: a CLEAN import, one that is GONE already, an export, a carried class. -/
theorem witness_FollowerTakesTheRoster_reforms :
    let v (st : ViewState) : View := ⟨2, some 3, .slot 5, 0, st, false, none, none, 4, 1⟩
    let s := (((hub false).onRc (fun r =>
      { r with ringState := .addressed, hubAddress := some 1, joinedCensus := some (1, 5), reforming := true })).onVu (fun u =>
      { u with views := (u.views.set 0 (some (v .clean))).set 1 (some (v .gone))
               exports := u.exports.set 0 (some ⟨3, 0, 1, .shaft, 0, .clean, .none, 0⟩) })).onTu (fun t =>
      { t with carried := .quick, carriedMask := 4 })
    s.rc.reforming = true ∧ s.vu.views.get 0 = some (v .clean) ∧ s.vu.views.get 1 = some (v .gone)
      ∧ after (.roster 1001 ⟨⟨1, 5, 4, 0, 6250⟩, 17, true⟩) s (fun s =>
        decide (s.vu.views.get 0 = some { v .clean with state := .gone, ready := true } ∧ s.vu.views.get 1 = some (v .gone)
          ∧ s.vu.exports.get 0 = none ∧ (s.port 2).pending = 4 ∧ s.tu.carried = .noClass ∧ s.tu.carriedMask = 0)) = true := by
  decide

/-- ReturnedRosterStartsTheRing: from DOWN and from LOST. -/
theorem witness_ReturnedRosterStartsTheRing :
    let f : RosterFields := ⟨1, 5, 4, 0, 6250⟩
    let d := (hub true).onRc (fun r => { r with outstandingRoster := some f, hubCount := some 4 })
    let l := master.onRc (fun r => { r with outstandingRoster := some f, ringState := .lost })
    (d.isMaster = true ∧ d.rc.outstandingRoster = some f ∧ d.rc.ringState = .down)
      ∧ (l.isMaster = true ∧ l.rc.outstandingRoster = some f ∧ l.rc.ringState = .lost) := by decide

/-- ReturnedRosterStartsTheRing, the re-formation: a LOST master at rest in CAPTURE, its timer stopped, whose freeze walk
completes; one whose shaft is not at rest; and a change of ring state. -/
theorem witness_ReturnedRosterStartsTheRing_reforms :
    let l := ((master.onRc (fun r => { r with ringState := .lost, censusTimer := none })).onTu (fun t =>
      { t with state := .capture })).onIs (fun i => { i with walk := some ⟨1, [], []⟩ })
    let turning := l.onSu (fun u => { u with tracker := { u.tracker with flags := ⟨false, false, false⟩ } })
    (l.censusLaw = true ∧ l.isMaster = true ∧ l.rc.ringState = .lost ∧ l.rc.censusTimer = none)
      ∧ after (.freezeWalkCompletion 2000) l (fun s =>
        decide (s.tu.state = .stopped ∧ s.rc.censusNumber = l.rc.censusNumber + 1 ∧ s.rc.censusTimer = some 502000
          ∧ s.rc.ringFrameDue = some (.census ⟨l.rc.censusNumber + 1, 2000, 0, false⟩))) = true
      ∧ after (.freezeWalkCompletion 2000) turning (fun s =>
        decide (s.tu.state = .stopped ∧ s.rc.censusNumber = l.rc.censusNumber ∧ s.rc.censusTimer = none)) = true
      ∧ after (.census 2000 ⟨⟨1, 2, 0, false⟩, 13, true⟩) (hub false) (fun s =>
        decide (s.rc.ringState = .addressed ∧ (s.port 2).pending = 128 ∧ (s.port 3).pending = 128)) = true := by decide +kernel

/-- FollowerTakesAnAddress and FollowerTakesTheRoster, the corrupt frames: passed on, with nothing taken. -/
theorem witness_FollowerTakes_nothing_corrupt :
    let s := (hub false).onRc (fun r => { r with ringState := .addressed, hubAddress := some 1, joinedCensus := some (1, 5) })
    (s.isMaster = false ∧ s.rc.arrivalAt (1000 - 26) = none ∧ s.rc.transit = [] ∧ s.rc.outLeft = 0)
      ∧ after (.census 1000 ⟨⟨1, 2, 3, false⟩, 13, false⟩) s (fun x =>
        decide (x.rc.ringState = .addressed ∧ x.rc.ringOut = some ⟨⟨.census ⟨1, 2, 3, false⟩, 13, false⟩, 1006⟩)) = true
      ∧ after (.roster 1000 ⟨⟨1, 5, 4, 0, 6250⟩, 17, false⟩) s (fun x =>
        decide (x.rc.rosterHeld = false ∧ x.rc.ringOut = some ⟨⟨.roster ⟨1, 5, 4, 0, 6250⟩, 17, false⟩, 998⟩)) = true := by
  decide

/-- MissedDeadline, the first: the extrapolated entry, in time and LATE. -/
theorem witness_MissedDeadline_extrapolates :
    let s (age : Nat) := (follower.onRc (fun r =>
      { r with lastCycle := some { cycleRecord (frame 6 0 0 0 true) 900 age with dpub := 100 } })).onSu (fun u =>
        { u with tracker := { u.tracker with history := [⟨6, 1000, 5, 0, false, false⟩], angle := 5 * 4096, lastV := 3 * 4096 } })
    after (.deadlineExpiry 20000) (s 40) (fun s =>
        decide (s.su.tracker.history.getLast? = some ⟨7, 20060, 8, 3, true, false⟩ ∧ s.rc.expectedNext = some 26000)) = true
      ∧ after (.deadlineExpiry 20000) (s 101) (fun s =>
        decide (s.su.tracker.history.getLast? = some ⟨7, 20000, 8, 3, true, true⟩)) = true := by decide +kernel

/-- CycleOrigination and GeneratorStep: the scheduled instant has just come, with the frame before returned, and without. -/
theorem witness_CycleOrigination :
    let failed := master.onRc (fun r => { r with returnSeen := false, failedReturns := 1 })
    let lost := master.onRc (fun r => { r with ringState := .lost })
    let leaving := master.onRc (fun r =>
      { r with
        ringOut := some ⟨⟨.unknown 0x7F, 40, true⟩, 13520⟩, outLeft := 12602
        passing := [⟨⟨⟨.unknown 0x7F, 40, true⟩, 13490, 0⟩, 13495⟩] })
    (failed.rc.ringState = .running ∧ failed.rc.nextOrigination = some 13500 ∧ failed.rc.returnSeen = false
        ∧ failed.rc.lastCycle.isSome = true ∧ failed.rc.failedReturns ≠ 0)
      ∧ after (.cycleOrigination 13500) failed (fun s => decide (s.rc.ringState = .lost ∧ s.rc.failedReturns = 2)) = true
      ∧ (lost.rc.ringState = .lost ∧ lost.rc.nextOrigination = some 13500)
      ∧ after (.cycleOrigination 13500) lost (fun s => decide (s.rc.cycleNumber = 7)) = true
      ∧ (leaving.advance 13500).rc.unsent 13500 ≠ []
      ∧ after (.cycleOrigination 13500) leaving (fun s =>
        decide (s.rc.transit.length = 1 ∧ s.rc.ringOut.map (fun o => o.start) = some 13500)) = true
      ∧ master.rc.ringState = .running ∧ master.rc.nextOrigination = some 13500 ∧ isDue 13500 13500 = true
      ∧ master.rc.returnSeen = true ∧ master.su.gen.v.natAbs ≤ master.su.gen.vmax
      ∧ after (.cycleOrigination 13500) master (fun s => decide (s.rc.cycleNumber = 7)) = true := by decide +kernel

/-- CycleOrigination: a returned QUICK enters CAPTURE at a master whose step raises nothing; a lost ring is the second
failure of one in STOPPING. -/
theorem witness_CycleOrigination_trips :
    let s := master.onRc (fun r => { r with returnedClass := ⟨false, true, false⟩ })
    let failed := (master.onRc (fun r => { r with returnSeen := false, failedReturns := 1 })).onTu (fun t =>
      { t with state := .stopping })
    s.quietStep False ∧ s.rc.returnSeen = true
      ∧ after (.cycleOrigination 13500) s (fun s =>
        decide (s.tu.state = .capture ∧ s.tu.records.map (fun r => r.first.cause) = [.remote])) = true
      ∧ after (.cycleOrigination 13500) failed (fun s => decide (s.tu.state = .lockout)) = true := by
  unfold State.quietStep; decide +kernel

/-- ReturnedTripWord: the frame last originated, and another number. -/
theorem witness_ReturnedTripWord :
    master.isMaster = true ∧ master.rc.ringState ≠ .conflict ∧ master.rc.lastCycle.isSome = true
      ∧ (frame 6 0 0 0 true).number = master.rc.cycleNumber ∧ (frame 5 0 0 0 true).number ≠ master.rc.cycleNumber := by decide

/-- NewCycleFrameAtAFollower: the frame after the last, on time at the age Dpub and LATE beyond it. -/
theorem witness_NewCycleFrameAtAFollower :
    (follower.isMaster = false ∧ follower.rc.ringState = .running ∧ follower.rc.rosterHeld = true
        ∧ follower.rc.period = some (frame 7 0 0 0 true).period ∧ follower.rc.hubCount = some (frame 7 0 0 0 true).hubCount
        ∧ 0 < Machine.sdiff (frame 7 0 0 0 true).number follower.su.tracker.lastCycle)
      ∧ after (.cycleFrame 13600 ⟨frame 7 0 0 0 true, 27, true⟩) (follower.onRc (fun r =>
          { r with ringState := .addressed, lastCycle := none })) (fun s => decide (s.rc.ringState = .running)) = true
      ∧ after (.cycleFrame 13600 ⟨frame 7 0 0 0 true, 27, true⟩) (follower.onRc (fun r =>
          { r with ringState := .lost, deadline := none })) (fun s =>
            decide (s.rc.ringState = .lost ∧ s.rc.deadline = none ∧ s.su.tracker.lastCycle = 7)) = true
      ∧ (follower.rc.lastCycle ≠ none ∧ ¬ 0 < Machine.sdiff (frame 6 0 9 0 true).number follower.su.tracker.lastCycle)
      ∧ after (.cycleFrame 13600 ⟨frame 6 0 9 0 true, 27, true⟩) follower (fun s =>
        decide (s.su = follower.su ∧ s.rc.lastCycle.map (fun r => r.angle) = some 9)) = true
      ∧ after (.cycleFrame 13600 ⟨frame 7 6250 0 0 true, 27, true⟩) follower (fun s =>
        decide (s.su.tracker.history.getLast?.map (fun e => (e.p, e.late)) = some (13546, false))) = true
      ∧ after (.cycleFrame 13600 ⟨frame 7 6251 0 0 true, 27, true⟩) follower (fun s =>
        decide (s.su.tracker.history.getLast?.map (fun e => (e.p, e.late)) = some (13546, true))) = true := by decide +kernel

/-- NewCycleFrameAtAFollower at the Trip Unit: entry from NORMAL and from RELEASING above the level, a word at the level, a
clean one, a rise in CAPTURE, the end of STOPPING, and the reset of a follower in STOPPED. -/
theorem witness_NewCycleFrameAtAFollower_trips :
    let r : TripRecord := ⟨7, ⟨.operatorStop, none⟩, .sync, .sync, 6, 900, 0, 0, 0, [], [], [], false⟩
    let s (x : TripState) := follower.onTu (fun t =>
      { t with state := x, causes := [⟨.operatorStop, none⟩], records := [r], current := some 7, releaseLevel := some .sync })
    let f (sync quick reset : Bool) : Instr := .cycleFrame 13600 ⟨{ frame 7 0 0 0 true with
      classes := ⟨⟨sync, quick, false⟩, ⟨false, false, false⟩⟩, resetRequest := reset }, 27, true⟩
    follower.quietStep (6250 < 0 ∨ 0 = 65535) ∧ (s .capture).currentAt [] r []
      ∧ after (f true false false) follower (fun s => decide (s.tu.state = .capture ∧ s.tu.recordCount = 1)) = true
      ∧ after (f false true false) (s .releasing) (fun s => decide (s.tu.state = .capture)) = true
      ∧ after (f true false false) (s .releasing) (fun s => decide (s.tu.releaseLevel = some .sync)) = true
      ∧ after (f false false false) (s .releasing) (fun s => decide (s.tu.state = .normal)) = true
      ∧ after (f false true false) (s .capture) (fun s =>
        decide (s.tu.records.map (fun r => (r.highest, r.secondary)) = [(.quick, [⟨.remote, none⟩])])) = true
      ∧ after (f false false false) (s .stopping) (fun s => decide (s.tu.state = .stopped)) = true
      ∧ after (f false false true) (s .stopped) (fun s => decide (s.tu.state = .releasing ∧ s.tu.causes = [])) = true := by
  unfold State.quietStep State.currentAt; decide +kernel

/-- NewCycleFrameAtAFollower at a release: a RELEASED section with a drive report, a HELD and a COUPLED one. -/
theorem witness_release :
    let at6 (x : Section) (s : State) := s.onSlot 6 (fun _ => x)
    let s := (at6 { sectionFive with state := .held, position := 500 } (withFive follower { sectionFive with
      state := .released, report := some ⟨true, false, false, 77⟩ })).onTu (fun t =>
        { t with state := .releasing, releaseLevel := some .quick })
    s.quietStep (6250 < 0 ∨ 0 = 65535) ∧ (∀ w ∈ s.se.waiting, w.slot ≠ 6)
      ∧ after (.cycleFrame 13600 ⟨frame 7 0 0 0 true, 27, true⟩) s (fun s =>
        decide (s.tu.state = .normal ∧ (s.slot 5).state = .idle ∧ (s.slot 5).position = 77 ∧ (s.slot 6).state = .idle
          ∧ (s.slot 6).position = 500)) = true
      ∧ after (.cycleFrame 13600 ⟨frame 7 0 0 0 true, 27, true⟩) (at6 { sectionFive with state := .coupled } s) (fun s =>
        decide ((s.slot 6).state = .coupled)) = true := by
  unfold State.quietStep; decide +kernel

/-- MissedDeadline: the first and the second. -/
theorem witness_MissedDeadline :
    let s := follower.onRc (fun r => { r with missedDeadlines := 1 })
    let r := cycleRecord (frame 6 0 0 0 true) 900 0
    (follower.isMaster = false ∧ follower.rc.ringState = .running ∧ follower.rc.deadline = some 20000
        ∧ isDue 20000 20000 = true ∧ follower.rc.lastCycle = some r ∧ follower.rc.missedDeadlines = 0)
      ∧ (s.isMaster = false ∧ s.rc.ringState = .running ∧ s.rc.deadline = some 20000 ∧ s.rc.lastCycle = some r
        ∧ s.rc.missedDeadlines ≠ 0) := by decide

/-- MissedDeadline, the second: entry from NORMAL, the second failure in CAPTURE, a new cause in STOPPED. -/
theorem witness_MissedDeadline_trips :
    let r : TripRecord := ⟨7, ⟨.operatorStop, none⟩, .sync, .sync, 6, 900, 0, 0, 0, [], [], [], false⟩
    let s (x : TripState) := ((withFive follower { sectionFive with state := .coupled }).onRc (fun r =>
      { r with missedDeadlines := 1 })).onTu (fun t =>
        { t with state := x, causes := [⟨.operatorStop, none⟩], records := [r], current := some 7 })
    ⟨.ringLost, none⟩ ∉ (s .normal).tu.causes ∧ 2 ≤ ((s .normal).tu.matrix.get .ringLost).rank
      ∧ (s .capture).currentAt [] r [] ∧ r.secondary.length < 8
      ∧ after (.deadlineExpiry 20000) (s .normal) (fun s =>
        decide (s.tu.records.map (fun r => r.first.cause) = [.operatorStop, .ringLost] ∧ (s.slot 5).state = .held)) = true
      ∧ after (.deadlineExpiry 20000) (s .capture) (fun s =>
        decide (s.tu.state = .lockout ∧ (s.slot 5).state = .released)) = true
      ∧ after (.deadlineExpiry 20000) (s .stopped) (fun s =>
        decide (s.tu.records.map (fun r => (r.highest, r.secondary)) = [(.quick, [⟨.ringLost, none⟩])])) = true := by
  unfold State.currentAt; decide

/-- MissedDeadline, the second, at the Image Mover and the View Unit: a pair, a transfer in hand, a reception, an import and a
remote nudge. -/
theorem witness_MissedDeadline_transfers_and_views :
    let received : Strip := { newStrip 13 (.remote 3 9) 1 .grey 4 2 8 [] .unknown true with fill := 0 }
    let store (s : State) := s.onIs (fun i =>
      { i with strips := [{ stripTwelve with sending := [2, 3] }, received], free := [9], age := [12] })
    let s := (store (follower.onRc (fun r => { r with missedDeadlines := 1 }))).onIm (fun m =>
      { m with sendQueue := [(12, 3)], sender := .sending, transfer := some ⟨12, 2, 57, 1, 5, 0, none⟩
               contexts := m.contexts.set 1 (some ⟨3, 9, 4, 13, [7, 8], 5, 0, 0⟩) })
    let w := s.onVu (fun u =>
      { u with views := u.views.set 0 (some ⟨2, some 3, .slot 5, 0, .clean, false, none, none, 4, 1⟩)
               nudges := [⟨2, 1, 3, 7, 0⟩], controlList := [⟨3, .unsubscribe 1 2⟩] })
    after (.deadlineExpiry 20000) w (fun s =>
      decide (s.im.sendQueue = [] ∧ s.im.transfer = none ∧ s.im.contexts.get 1 = none ∧ s.im.transfersDropped = 2
        ∧ s.im.receptionsAbandoned = 1 ∧ s.is.free = [9, 7, 8] ∧ s.is.strips.map (fun x => (x.id, x.sending)) = [(12, [])]
        ∧ (s.port 1).pending.getLsbD 8 = true ∧ (s.vu.views.get 0).map (fun v => (v.state, v.ready)) = some (.stale, true)
        ∧ (s.port 2).pending.getLsbD 2 = true ∧ s.vu.controlList = [] ∧ lastReply s 2 = some (1, .notRunning))) = true := by
  decide +kernel

/-- CycleFrameIsForwarded: RING OUT just free, with nothing held, and with the frame held. -/
theorem witness_CycleFrameIsForwarded :
    let f : HeldFrame := ⟨⟨.cycle (frame 7 0 0 0 true), 27, true⟩, 1000, 0⟩
    let h := follower.onRc (fun r => { r with transit := [f], outLeft := 60 })
    (follower.rc.outLeft - ((1000 : HubTime) - follower.hubTime).toNat = 0 ∧ follower.isMaster = false
        ∧ follower.rc.transit = [])
      ∧ (h.rc.outLeft - ((1060 : HubTime) - h.hubTime).toNat = 0 ∧ h.rc.transit = f :: [])
      ∧ after (.heldFrameRelease 1060) h (fun s => decide (s.rc.outLeft = 54)) = true := by decide

/-- CycleFrameIsForwarded, for other frames: a ROSTER and a data frame pass unchanged after 32 ticks, one of 1,100 bytes is cut;
with RING OUT busy a frame is held whole, cut at the room, or dropped; a data frame to the hub, one at a master in DOWN, and an
unknown kind at a master are removed; a frame held behind a short one leaves 10 ticks after its first byte. -/
theorem witness_CycleFrameIsForwarded_and_held :
    let r : Frame := ⟨.roster ⟨1, 5, 4, 0, 6250⟩, 17, true⟩
    let d (dst length : Nat) : Frame := ⟨.data ⟨.edit, dst, 3, length - 9, []⟩, length, true⟩
    let busy (held : List HeldFrame) := follower.onRc (fun r => { r with outLeft := 3000, transit := held })
    let out (o : Option Sent) : Option (Frame × HubTime) := o.map (fun o => (o.frame, o.start))
    let lengths (s : State) : List (Nat × Bool) := s.rc.transit.map (fun h => (h.frame.length, h.frame.crcGood))
    (after (.frameForward 1000 r) follower (fun s => decide (out s.rc.ringOut = some (r, 1032) ∧ s.rc.outLeft = 66))
      && after (.frameForward 1000 (d 2 16)) follower (fun s => decide (out s.rc.ringOut = some (d 2 16, 1032)))
      && after (.frameForward 1000 (d 2 1100)) follower (fun s =>
        decide (s.rc.ringOut.map (fun o => (o.frame.length, o.frame.crcGood)) = some (1049, false)))
      && after (.frameForward 1000 (d 2 60)) (busy []) (fun s => decide (lengths s = [(60, true)]))
      && after (.frameForward 1000 (d 2 60)) (busy [⟨d 2 1000, 900, 0⟩]) (fun s =>
        decide (lengths s = [(1000, true), (49, false)]))
      && after (.frameForward 1000 (d 2 60)) (busy [⟨d 2 1049, 900, 0⟩]) (fun s => decide (lengths s = [(1049, true)]))
      && after (.frameForward 1000 (d 1 16)) follower (fun s => decide (s.rc.ringOut = none ∧ s.rc.corruptCount = 0))
      && after (.frameForward 1000 (d 2 16)) (hub true) (fun s => decide (s.rc.ringOut = none ∧ s.rc.corruptCount = 0))
      && after (.frameForward 1000 ⟨.unknown 9, 16, true⟩) master (fun s => decide (s.rc.corruptCount = 1))
      && after (.heldFrameRelease 1010) (follower.onRc (fun x => { x with transit := [⟨r, 1000, 0⟩] })) (fun s =>
        decide (out s.rc.ringOut = some (r, 1010) ∧ s.rc.outHeld = true))
      && after (.heldFrameRelease 1010) (follower.onRc (fun x =>
          { x with transit := [⟨⟨.cycle (frame 7 5 0 0 true), 27, true⟩, 1000, 2⟩] })) (fun s =>
        decide (out s.rc.ringOut = some (⟨.cycle { frame 7 39 0 0 true with mask := 0 }, 27, true⟩, 1010)))) = true := by decide

/-- OwnFrameStarts: an EDIT whose window is just open at 13,268 and just closed at 13,269, with no block waiting and with the
Image Mover waiting; a due census and a due roster of a master; the head of the view queue and the image pending frame. -/
theorem witness_OwnFrameStarts :
    let f : OwnFrame := ⟨3, .edit 1 5 40⟩
    let g : OwnFrame := ⟨3, .imageReply 1 2 .busy 0⟩
    let s := follower.onRc (fun r => { r with controlQueue := [f] })
    let w := (follower.onRc (fun r =>
      { r with controlQueue := f :: List.replicate 7 f, controlWaiters := [.imageMover] })).onIm (fun m =>
      { m with store := [⟨g, .general⟩] })
    let c := (hub true).onRc (fun r => { r with ringFrameDue := some (.census ⟨1, 5, 0, false⟩) })
    let r := (hub true).onRc (fun r => { r with ringFrameDue := some (.roster ⟨1, 5, 4, 0, 6250⟩) })
    let b : BeginFields := ⟨12, 57, 1, 0, 2500, 2, 5000, 5, .unknown⟩
    let p := (follower.onRc (fun r => { r with imagePending := some ⟨3, .imageBegin b⟩ })).onIm (fun m =>
      { m with sender := .beginSent, transfer := some ⟨12, 3, 57, 1, 5, 0, none⟩ })
    let v := follower.onRc (fun r => { r with viewQueue := [⟨3, .viewUpdate 2 9 none⟩] })
    (s.isMaster = false ∧ s.rc.ringState = .running ∧ s.rc.ringFrameDue = none ∧ s.rc.controlQueue = f :: []
        ∧ s.rc.transit = [] ∧ s.rc.outLeft - ((13268 : HubTime) - s.hubTime).toNat = 0 ∧ s.rc.expectedNext = some 13500
        ∧ (2 * (9 + f.payload.bytes.length) + 200 : Int) ≤ Machine.sdiff (13500 : HubTime) 13268
        ∧ ¬ (2 * (9 + f.payload.bytes.length) + 200 : Int) ≤ Machine.sdiff (13500 : HubTime) 13269)
      ∧ after (.ownFrameStart 13268) s (fun s => decide (s.rc.controlQueue = [] ∧ s.rc.outLeft = 32)) = true
      ∧ after (.ownFrameStart 13269) s (fun s => decide (s.rc.controlQueue = [f])) = true
      ∧ w.rc.controlWaiters = .imageMover :: [] ∧ w.storeOf .imageMover = g :: []
      ∧ after (.ownFrameStart 2000) w (fun s =>
        decide (s.rc.controlQueue = List.replicate 7 f ++ [g] ∧ s.rc.controlWaiters = [])) = true
      ∧ (c.isMaster = true ∧ c.rc.ringState = .down ∧ c.rc.transit = [] ∧ c.rc.outLeft - ((9 : HubTime) - c.hubTime).toNat = 0)
      ∧ after (.ownFrameStart 9) c (fun s => decide (s.rc.outstandingCensus = some (1, 9))) = true
      ∧ after (.ownFrameStart 9) r (fun s => decide (s.rc.outLeft = 34 ∧ s.rc.ringFrameDue = none)) = true
      ∧ (let seg (n : Nat) := ((withStrip follower { stripTwelve with byteSize := 1026 }).onRc (fun r =>
          { r with imagePending := some ⟨3, .imageSegment 12 57 n 1 [9]⟩ })).onIm (fun m =>
          { m with sender := .sending, transfer := some ⟨12, 3, 57, 1, 2, n, some 40⟩ })
        ((seg 0).rc.imagePending.isSome = true ∧ (seg 0).im.offered = [] ∧ ((seg 0).strip 12).isSome = true)
          ∧ after (.ownFrameStart 2000) (seg 0) (fun s => (s.rc.imagePending.map (fun f => f.payload.bytes.length)) == some 10
            && decide (s.im.sender = .sending)) = true
          ∧ after (.ownFrameStart 2000) (seg 1) (fun s => decide (s.rc.imagePending = none ∧ s.im.sender = .awaitComplete
            ∧ s.im.timer = some ⟨0, 8⟩)) = true)
      ∧ after (.ownFrameStart 2000) v (fun s => decide (s.rc.viewQueue = [] ∧ s.rc.outLeft = 28)) = true
      ∧ after (.ownFrameStart 2000) p (fun s => decide (s.im.timer = some ⟨0, 4⟩ ∧ s.rc.imagePending = none)) = true := by
  decide

/-- DataFrameRemoval: hub 1 of four; a payload delivered, a destination just beyond the ring, an own frame that came round,
a corrupt one for the hub, and one whose first byte came in RUNNING to a hub that is LOST by its last. -/
theorem witness_DataFrameRemoval :
    let e : DataPayload := .edit 9 5 40
    (e.wellFormed = true ∧ e.bytes.length ≤ 1040 ∧ follower.rc.ringState = .running ∧ follower.rc.hubCount = some 4
        ∧ follower.rc.hubAddress = some 1 ∧ 1 < 4 ∧ 3 < 4 ∧ 3 ≠ 1)
      ∧ after (.dataFrameRemoval 1100 ⟨⟨.edit, 4, 3, 7, e.bytes⟩, 16, true⟩) follower (fun s =>
          decide (s.rc.corruptCount = 1)) = true
      ∧ dataCorrupt ⟨⟨.edit, 3, 1, 7, e.bytes⟩, 16, true⟩ = false
      ∧ after (.dataFrameRemoval 1100 ⟨⟨.edit, 3, 1, 7, e.bytes⟩, 16, true⟩) follower (fun s =>
          decide (s.rc.undeliverableCount = 1)) = true
      ∧ (follower.takesData 1100 16 ∧ (follower.onRc (fun r =>
          { r with ringState := .lost, inbound := some ⟨1068, true, 0⟩ })).takesData 1100 16)
      ∧ after (.dataFrameRemoval 1100 ⟨⟨.edit, 3, 1, 7, e.bytes⟩, 16, true⟩) (follower.onRc (fun r =>
          { r with ringState := .lost, inbound := some ⟨1068, true, 0⟩ })) (fun s =>
          decide (s.rc.undeliverableCount = 1)) = true
      ∧ dataCorrupt ⟨⟨.edit, 1, 3, 7, e.bytes⟩, 16, false⟩ = true ∧ payloadFits .edit [0] = false
      ∧ dataCorrupt ⟨⟨.edit, 1, 3, 7, e.bytes⟩, 16, true⟩ = false ∧ payloadFits .edit e.bytes = true := by
  refine ⟨by decide, by decide, by decide, by decide, ⟨.inl rfl, .inr ⟨0, by decide⟩⟩, by decide, by decide, by decide,
    by decide, by decide⟩

/-- DataFrameRemoval where nothing is examined: a frame to the address of a hub in DOWN; and between two other hubs. -/
theorem witness_DataFrameRemoval_elsewhere :
    let f (dst src : Nat) : Inbound DataFields := ⟨⟨.edit, dst, src, 0, []⟩, 9, true⟩
    ¬ (hub true).takesData 1100 9 ∧ (follower.takesData 1100 9 ∧ 2 < 4 ∧ 3 < 4 ∧ 2 ≠ 3 ∧ 2 ≠ 1 ∧ 3 ≠ 1)
      ∧ after (.dataFrameRemoval 1100 (f 0 9)) (hub true) (fun s => decide (s.rc.corruptCount = 0)) = true
      ∧ after (.dataFrameRemoval 1100 (f 2 3)) follower (fun s => decide (s.rc.corruptCount = 0)) = true :=
  ⟨fun h => h.elim (by decide) (fun ⟨_, h⟩ => nomatch h), ⟨.inl rfl, by decide⟩, by decide, by decide⟩

/-- DataPayloadRoundTrip: a well-formed payload of each kind. -/
theorem witness_DataPayloadRoundTrip :
    [DataPayload.edit 65535 255 (-2147483648), .editReply 1 .unknownKind 5 65535,
      .imageBegin ⟨65535, 1, 255, 255, 65535, 255, 4294967295, 65535, .known 5 6⟩, .imageReply 1 2 .complete 3,
      .imageSegment 1 2 65535 2 [1, 2], .imageAbort true 1 2 .noTransfer, .imageAbort false 1 2 .sequence,
      .subscribe 15 1 4 3 3, .subscribeReply 15 1 .badArgument, .unsubscribe 255 1, .viewUpdate 1 2 none,
      .viewUpdate 1 2 (some [⟨255, [1, 2]⟩])].all (fun p => p.wellFormed) = true := by decide

/-- RingSettings, GeneratorSettings, InchRequests and every other statement about a DESK request: the desk port with a free
tag, at a master and at a follower. -/
theorem witness_desk_request : master.takes 3 0 [.desk] ∧ follower.takes 3 0 [.desk] ∧ master.isMaster = true
    ∧ follower.isMaster = false := by unfold State.takes; decide

/-- RingSettings: the values on both sides of the bounds. -/
theorem witness_RingSettings :
    after (.setCableComp 1001 3 0 (some 4095)) follower (fun s => decide (lastReply s 3 = some (0, .done))) = true
      ∧ after (.setCableComp 1001 3 0 (some 4096)) follower (fun s =>
        decide (s.rc.cableComp = 4095 ∧ lastReply s 3 = some (0, .clamped))) = true
      ∧ after (.setPublicationOffset 1001 3 0 (some 12501)) master (fun s =>
        decide (s.rc.dpub = some 12500 ∧ lastReply s 3 = some (0, .clamped))) = true
      ∧ after (.setPublicationOffset 1001 3 0 (some 12500)) follower (fun s =>
        decide (lastReply s 3 = some (0, .notMaster))) = true := by decide

/-- GeneratorSettings: a generator at rest and one that is not, inching on and off. -/
theorem witness_GeneratorSettings :
    master.genAtRest = true
      ∧ (master.onGen (fun g => { g with vt := 1 })).genAtRest = false
      ∧ after (.setSpeed 1001 3 0 (some (-1))) master (fun s =>
        decide (s.su.gen.vt = 0 ∧ lastReply s 3 = some (0, .clamped))) = true
      ∧ after (.setSpeed 1001 3 0 (some 5)) (master.onGen (fun g => { g with inching := true })) (fun s =>
        decide (s.su.gen.vt = 0 ∧ lastReply s 3 = some (0, .busy))) = true
      ∧ after (.setRamp 1001 3 0 (some 0) (some 1048576) (some 1)) master (fun s =>
        decide ((s.su.gen.a, s.su.gen.dn, s.su.gen.de) = (1, 1048575, 1))) = true := by decide

/-- InchRequests: each of the four checks, and acceptance. -/
theorem witness_InchRequests :
    let i := Instr.inchStart 1001 3 0 (some (-10000))
    [after i (hub true) (fun s => decide (lastReply s 3 = some (0, .notRunning))),
      after i (master.onTu (fun t => { t with state := .lockout })) (fun s => decide (lastReply s 3 = some (0, .lockedOut))),
      after i (master.onTu (fun t => { t with carried := .sync })) (fun s => decide (lastReply s 3 = some (0, .badState))),
      after i (master.onGen (fun g => { g with v := 1 })) (fun s => decide (lastReply s 3 = some (0, .notAtRest))),
      after i master (fun s => decide (s.su.gen.vi = -10000 ∧ s.su.gen.inching = true))].all id = true := by decide

/-- ShaftLaw, TrimAndGearLaw, TripLaw, StoreLaw and PortLaw: a state on a running ring that meets them all. -/
theorem witness_laws :
    let s := withFive (withStrip follower stripTwelve) { sectionFive with state := .coupled }
    s.su.gen.lawful = true ∧ s.su.gen.ratesInRange = true ∧ s.su.tracker.bounded = true ∧ s.trimLaw = true
      ∧ s.listsBounded = true ∧ s.gearLaw = true ∧ s.freezeLaw = true ∧ s.tripLaw = true ∧ s.portLaw = true ∧ s.getLaw = true
      ∧ s.censusLaw = true
      ∧ (s.onTu (fun t => { t with causes := [⟨.ringLost, none⟩, ⟨.driveFault, some 2⟩, ⟨.driveFault, some 5⟩] })).causesLaw = true
      ∧ (s.onTu (fun t => { t with causes := [⟨.driveFault, some 5⟩, ⟨.driveFault, some 2⟩] })).causesLaw = false := by
  decide +kernel

/-- StoreLaw: the free list and the strip hold every tile once. -/
theorem witness_StoreLaw : (withStrip follower stripTwelve).storeLaw = true := by decide +kernel

/-- TripLaw: a hub in LOCKOUT, and a master in CONFLICT. -/
theorem witness_TripLaw :
    (follower.onTu (fun t => { t with state := .lockout })).tu.state = .lockout
      ∧ (let c := (hub true).onRc (fun r => { r with ringState := .conflict })
        c.isMaster = true ∧ c.rc.rosterTimer = none ∧ c.rc.ringState = .conflict) := by decide

/-- Interpolation: a time before every entry, one at the newest, and one at the older of two. -/
theorem witness_Interpolation :
    let k := twoEntries 3990000 25166
    (∀ e ∈ k.history, 0 < Machine.sdiff e.p (999999 : HubTime))
      ∧ (∃ e, k.history.getLast? = some e ∧ Machine.sdiff e.p (1012500 : HubTime) ≤ 0)
      ∧ (∃ e next : HistEntry, k.history = [] ++ e :: next :: [] ∧ Machine.sdiff e.p (1000000 : HubTime) ≤ 0
        ∧ ∀ x ∈ next :: ([] : List HistEntry), 0 < Machine.sdiff x.p (1000000 : HubTime)) :=
  ⟨by decide, ⟨_, rfl, by decide⟩, ⟨_, _, rfl, by decide, by decide⟩⟩

/-- SectionSetIsPosted: a VACANT slot with every value needed, refused values, a stale serial, a full list. -/
theorem witness_SectionSetIsPosted :
    let s := withFive follower sectionFive
    let full := withFive follower { sectionFive with posted := List.replicate 8 ⟨none, .nudge 1⟩ }
    (follower.slot 6).state = .vacant ∧ (∀ k ∈ [1, 2, 3], k ∈ ([(1, 0), (2, 4), (3, 1)] : List (Nat × Int)).map (fun q => q.1))
      ∧ ([(1, 0), (2, 4), (3, 1)].map (fun q : Nat × Int => q.1)).Nodup ∧ follower.rc.ringState ≠ .conflict
      ∧ after (.sectionSet 1001 3 0 (some 6) none [(1, 0), (2, 4), (3, 1)]) follower (fun s =>
        decide (lastReply s 3 = some (0, .posted) ∧ (s.slot 6).posted.length = 1)) = true
      ∧ after (.sectionSet 1001 3 0 (some 6) none [(1, 0), (2, 5), (3, 1)]) follower (fun s =>
        decide (lastReply s 3 = some (0, .badArgument))) = true
      ∧ after (.sectionSet 1001 3 0 (some 5) (some 40) [(4, 0)]) s (fun s =>
        decide (lastReply s 3 = some (0, .staleSerial))) = true
      ∧ after (.sectionSet 1001 3 0 (some 5) none [(5, 1048576)]) s (fun s =>
        decide (lastReply s 3 = some (0, .clamped))) = true
      ∧ after (.sectionSet 1001 3 0 (some 5) none [(4, 0)]) full (fun s => decide (lastReply s 3 = some (0, .full))) = true
      ∧ (s.checkFields (s.slot 5).latest [(6, 2000)]).map (fun r => (r.1.tt, r.2)) = some (some 1000, true)
      ∧ (s.checkFields (s.slot 5).latest [(1, 3)]) = none ∧ (s.checkFields (s.slot 5).latest [(2, 65536)]) = none
      ∧ (s.checkFields (s.slot 5).latest [(6, 1000), (9, 7)]).map (fun r => r.2) = some false := by decide

/-- SectionRequests: outside RUNNING, in LOCKOUT, waiting, and each check at the step. -/
theorem witness_SectionRequests :
    let s := withFive follower sectionFive
    let moving := s.onSu (fun u => { u with tracker := { u.tracker with flags := ⟨false, false, false⟩ } })
    after (.couple 1001 3 0 (some 5)) (hub false) (fun s => decide (lastReply s 3 = some (0, .notRunning))) = true
      ∧ after (.couple 1001 3 0 (some 5)) (s.onTu (fun t => { t with state := .lockout })) (fun s =>
        decide (lastReply s 3 = some (0, .lockedOut))) = true
      ∧ after (.setPosition 1001 3 0 (some 5) (some 16777215)) s (fun s => decide (s.se.waiting.length = 1)) = true
      ∧ after (.fence 1001 3 0) s (fun s => decide (lastReply s 3 = some (0, .done))) = true
      ∧ (s.checkWaiting sectionFive .couple).2 = .done ∧ (moving.checkWaiting sectionFive .couple).2 = .notAtRest
      ∧ (s.checkWaiting { sectionFive with state := .held } .couple).2 = .badState
      ∧ (s.checkWaiting sectionFive .decouple).2 = .badState
      ∧ (s.checkWaiting { sectionFive with state := .coupled } .decouple).1.state = .idle
      ∧ (s.checkWaiting { sectionFive with state := .held } (.setPosition 7)).1.position = 7 := by decide

/-- SectionRequests, at the step: a DECOUPLE that waits for a COUPLED section is carried out by each command that takes a step. -/
theorem witness_SectionRequests_at_the_step :
    let w : Waiting := ⟨3, 1, 5, .decouple⟩
    let wait (s : State) := (withFive s { sectionFive with state := .coupled }).onSe (fun e => { e with waiting := [w] })
    let c := Instr.cycleFrame 13600 ⟨frame 7 0 0 0 true, 27, true⟩
    ((wait follower).takesStep c ∧ (wait master).takesStep (.cycleOrigination 13500)
        ∧ (wait follower).takesStep (.deadlineExpiry 20000))
      ∧ (wait follower).se.waiting.filter (fun v => v.slot == w.slot) = [w]
      ∧ [after c (wait follower) (fun s => decide (lastReply s 3 = some (1, .done))),
        after (.cycleOrigination 13500) (wait master) (fun s => decide (lastReply s 3 = some (1, .done))),
        after (.deadlineExpiry 20000) (wait follower) (fun s => decide (lastReply s 3 = some (1, .done)))].all id = true :=
  ⟨⟨⟨rfl, .inl ⟨13600, frame 7 0 0 0 true, rfl, by decide⟩⟩, ⟨rfl, .inr (.inl ⟨13500, 13500, rfl, by decide⟩)⟩,
    ⟨rfl, .inr (.inr ⟨20000, 20000, _, rfl, rfl, rfl, by decide, rfl, rfl⟩)⟩⟩, by decide, by decide +kernel⟩

/-- CoupledSectionFollowsTheShaft: a new frame at the age Dpub, and a COUPLED section with nothing posted. -/
theorem witness_CoupledSectionFollowsTheShaft :
    let s := withFive follower { sectionFive with state := .coupled, n := 2, d := 3, r := 2 }
    let f := frame 7 6250 (BitVec.ofNat 36 (25165 * 4096)) 0 false
    (s.isMaster = false ∧ s.rc.ringState = .running ∧ s.rc.rosterHeld = true ∧ s.rc.period = some f.period
        ∧ s.rc.hubCount = some f.hubCount ∧ 0 < Machine.sdiff f.number s.su.tracker.lastCycle
        ∧ min 65535 (f.age + s.compAt (13600 - 54)) ≤ f.dpub ∧ min 65535 (f.age + s.compAt (13600 - 54)) < 65535
        ∧ (s.slot 5).state = .coupled ∧ 1 ≤ (s.slot 5).d ∧ (s.slot 5).posted = [] ∧ (s.slot 5).corrHeld = false
        ∧ ∀ w ∈ s.se.waiting, w.slot ≠ 5)
      ∧ after (.cycleFrame 13600 ⟨f, 27, true⟩) s (fun s' => decide ((s'.slot 5).r = 1)) = true := by decide +kernel

/-- CoupledSectionFollowsTheShaft, and the FENCE of SectionRequests: the three changes of the worked sequence of section 3.3, of
which the FENCE noted one. -/
theorem witness_CoupledSection_posted :
    let c := Instr.cycleFrame 13600 ⟨frame 7 0 0 0 true, 27, true⟩
    let f : Fence := ⟨3, 1, [5]⟩
    let s := (withFive follower { sectionFive with
      posted := [⟨some 3, .set { os := some 2000 }⟩, ⟨some 2, .nudge 250⟩, ⟨some 3, .set { tmax := some 40 }⟩] }).onSe
      (fun e => { e with fences := [f] })
    s.takesStep c ∧ (∀ w ∈ s.se.waiting, w.slot ≠ 5) ∧ (s.slot 5).state ≠ .vacant
      ∧ (f ∈ s.se.fences ∧ f.slots ≠ [] ∧ ∀ j ∈ f.slots, (s.slot j).posted ≠ []) ∧ (s.loop 5).enable = false
      ∧ after c s (fun s => decide ((s.slot 5).os = 2000 ∧ (s.slot 5).tt = 40 ∧ (s.slot 5).tmax = 40 ∧ (s.slot 5).atLimit = true
        ∧ (s.slot 5).serial = 44 ∧ (s.slot 5).ca = 1300 ∧ (s.slot 5).correcting = true ∧ s.se.fences = []
        ∧ lastReply s 3 = some (1, .done))) = true :=
  ⟨⟨rfl, .inl ⟨13600, _, rfl, by decide⟩⟩, by decide, by decide, by decide, by decide, by decide +kernel⟩

/-- CoupledSectionFollowsTheShaft: a correction sum at a COUPLED section, beyond its Tmax, and at an IDLE one; a VACANT slot that
a change fills, in LOCKOUT. -/
theorem witness_CoupledSection_corrected :
    let c := Instr.cycleFrame 13600 ⟨frame 7 0 0 0 true, 27, true⟩
    let s (st : SectionState) := withFive follower { sectionFive with state := st, corrSum := 1500, corrHeld := true }
    let v := follower.onSlot 6 (fun x => x.post ⟨some 3, .set { port := some 1, n := some 2, d := some 3 }⟩)
    ((s .coupled).takesStep c ∧ (s .idle).takesStep c ∧ v.takesStep c)
      ∧ 1 ≤ ((s .coupled).slot 5).d ∧ (v.slot 6).posted ≠ []
      ∧ after c (s .coupled) (fun s => decide ((s.slot 5).tt = 1000 ∧ (s.slot 5).atLimit = true ∧ (s.slot 5).ca = 1420)) = true
      ∧ after c (s .idle) (fun s => decide ((s.slot 5).tt = -200 ∧ (s.slot 5).corrSum = 0 ∧ (s.slot 5).ca = 1300)) = true
      ∧ after c (v.onTu (fun t => { t with state := .lockout })) (fun s => decide ((s.slot 6).state = .released
        ∧ (s.slot 6).port = 1 ∧ (s.slot 6).n = 2 ∧ (s.slot 6).d = 3 ∧ (s.slot 6).serial = 1)) = true :=
  ⟨⟨⟨rfl, .inl ⟨13600, _, rfl, by decide⟩⟩, ⟨rfl, .inl ⟨13600, _, rfl, by decide⟩⟩, ⟨rfl, .inl ⟨13600, _, rfl, by decide⟩⟩⟩,
    by decide, by decide, by decide +kernel⟩

/-- A slot that leaves VACANT at the step of a SYNC trip is coupled at rest at that step, and under QUICK it is not
(notes/assumptions/64.md). -/
theorem test_couple_after_leaving_vacant :
    let s (k : Cls) := ((follower.onSlot 6 (fun x => x.post ⟨some 3, .set { port := some 1, n := some 2, d := some 3 }⟩)).onSe
      (fun e => { e with waiting := [⟨3, 1, 6, .couple⟩] })).onTu (fun t => { t with state := .stopped, carried := k })
    let f := Instr.cycleFrame 13600 ⟨frame 7 0 0 0 true, 27, true⟩
    after f (s .sync) (fun s => decide (lastReply s 3 = some (1, .done) ∧ (s.slot 6).state = .coupled)) = true
      ∧ after f (s .quick) (fun s => decide (lastReply s 3 = some (1, .badState) ∧ (s.slot 6).state = .idle)) = true := by
  decide +kernel

/-- A setpoint record of slot 5. -/
def recordFive : SetpointRecord := ⟨5, 6, 100000, 0, .coupled, false, false, false, false⟩

/-- SetpointPublication: nothing armed, not yet due, due within the tolerance, and due beyond it. -/
theorem witness_SetpointPublication :
    let s := withFive follower { sectionFive with
      state := .coupled, tol := 1, armed := some ⟨recordFive, 1500⟩, published := some ⟨recordFive, false⟩ }
    let silent := withFive follower { sectionFive with
      state := .coupled, tol := 1, miss := 1, armed := some ⟨recordFive, 1500⟩, published := some ⟨recordFive, false⟩ }
    isDue 1500 1499 = false
      ∧ after (.setpointPublication 1500 5) s (fun s => decide ((s.slot 5).miss = 1 ∧ s.tu.causes = [])) = true
      ∧ after (.setpointPublication 1500 5) silent (fun s =>
        decide ((s.slot 5).miss = 2 ∧ ⟨.driveSilent, some 5⟩ ∈ s.tu.causes)) = true := by decide

/-- PickupAndDriveStatus: another role, slot 16, a VACANT slot, another port, and DONE. -/
theorem witness_PickupAndDriveStatus :
    let s := withFive follower { sectionFive with published := some ⟨recordFive, false⟩ }
    s.takes 0 0 [.drive] ∧ s.takes 3 0 [.desk] ∧ Role.desk ≠ .drive ∧ 16 ≤ 16 ∧ (s.slot 6).state = .vacant
      ∧ (s.slot 5).published.isSome = true ∧ (s.slot 5).state ≠ .vacant ∧ (0 : PortNo) = (s.slot 5).port
      ∧ (0 : PortNo) ≠ ((withFive s { sectionFive with port := 1 }).slot 5).port
      ∧ after (.setpointPickup 1001 0 0 (some 5)) s (fun s =>
        decide ((s.slot 5).published = some ⟨recordFive, true⟩)) = true
      ∧ after (.driveStatus 1001 0 0 (some 5) (some true) (some true) (some false) (some 16777215)) s (fun s =>
        decide (⟨.driveFault, some 5⟩ ∈ s.tu.causes)) = true := by unfold State.takes; decide

/-- MarkEdgeAndHoldOff: a captured edge that stays PENDING, one that is UNKNOWN, an ignored one, a hold-off just come. -/
theorem witness_MarkEdgeAndHoldOff :
    let s := follower.onInput 2 (fun x => { x with holdOff := 500 })
    let busy := follower.onInput 2 (fun x => { x with holdOffUntil := some 1500 })
    ((s.ru.inputs.get 2).edge = .rising ∧ (s.ru.inputs.get 2).pending = none ∧ (s.ru.inputs.get 2).holdOffUntil = none)
      ∧ s.su.tracker.angleAt 2000 = .pending ∧ s.su.tracker.angleAt 1999 = .unknown
      ∧ after (.markEdge 2000 2 .rising) s (fun s => decide ((s.ru.inputs.get 2).holdOffUntil = some 2500)) = true
      ∧ after (.markEdge 1999 2 .rising) s (fun s => decide ((s.ru.inputs.get 2).dropped = 1)) = true
      ∧ isDue 1500 1500 = true ∧ isDue 1500 1499 = false
      ∧ after (.holdOffExpiry 1500 2) busy (fun s => decide ((s.ru.inputs.get 2).holdOffUntil = none)) = true := by decide

/-- MarkEdgeAndHoldOff at the step: a capture one tick after the newest entry is answered by a new entry whose P has not
come, and goes to the loop of a COUPLED section; an edge that is answered at once. -/
theorem witness_MarkEdgeAndHoldOff_at_the_step :
    let c := Instr.cycleFrame 13600 ⟨frame 7 0 (BitVec.ofNat 36 (177960 * 4096)) 10 false, 27, true⟩
    let s := ((withFive follower { sectionFive with state := .coupled }).onLoop 5 (fun l =>
      { l with enable := true, source := .sensor 2, window := 20, minSpeed := 5 })).onInput 2 (fun m =>
        { m with map := 32, pending := some 2001 })
    let two := (s.onSu (fun u => { u with tracker := { u.tracker with
      lastV := 10, history := u.tracker.history ++ [⟨7, 3000, 1000, 1000, false, false⟩] } })).onInput 2 (fun m =>
        { m with pending := none })
    s.takesStep c ∧ (s.loop 5).source = .sensor 2 ∧ (s.slot 5).posted = []
      ∧ after c s (fun s => decide ((s.ru.inputs.get 2).pending = none ∧ (s.loop 5).lastE = some 10)) = true
      ∧ two.su.tracker.angleAt 2005 = .angle 5 ∧ two.loopActive 5 = true
      ∧ after (.markEdge 2005 2 .rising) two (fun s => decide ((s.loop 5).lastE = some 5)) = true :=
  ⟨⟨rfl, .inl ⟨13600, _, rfl, by decide⟩⟩, by decide, by decide, by decide +kernel⟩

/-- JudgedMark: an error at the window, and one beyond it, with the values that the statement names. -/
theorem witness_JudgedMark :
    let s := (withFive follower sectionFive).onLoop 5 (fun l => { l with mexp := 1000, window := 10, deadband := 9, gain := 128 })
    ((1010 : Angle) - (s.loop 5).mexp).toInt = 10 ∧ roundDiv (10 * ((s.slot 5).n : Int)) (s.slot 5).d = 10
      ∧ roundDiv (10 * ((s.loop 5).gain : Int)) 256 = 5 ∧ (s.loop 5).deadband < (10 : Int).natAbs
      ∧ ((s.judgeMark 5 1010).loop 5).state = .locked ∧ ((s.judgeMark 5 1010).slot 5).corrHeld = true
      ∧ ((s.judgeMark 5 1009).slot 5).corrHeld = false ∧ ((s.judgeMark 5 1011).loop 5).strays = 1 := by decide

/-- PassCompare: a compare that has just come with a loop passed at its last increment and one not yet passed. -/
theorem witness_PassCompare :
    let s := ((withFive follower { sectionFive with state := .coupled }).onLoop 5 (fun l =>
      { l with enable := true, state := .locked, mexp := 100, window := 10, missLimit := 1 })).onRu (fun r =>
      { r with judged := some 0, passCompare := some ⟨1500, 120⟩ })
    let early := s.onRu (fun r => { r with passCompare := some ⟨1500, 119⟩ })
    isDue 1500 1500 = true
      ∧ after (.passCompare 1500) s (fun s =>
        decide ((s.loop 5).state = .lost ∧ (s.loop 5).misses = 1 ∧ ⟨.registerLost, some 5⟩ ∈ s.tu.causes)) = true
      ∧ after (.passCompare 1500) early (fun s => decide ((s.loop 5).state = .locked ∧ s.ru.judged = some 119)) = true := by
  decide

/-- PassCompare at the step: a new entry whose P has not come arms the compare, and one whose P has come acts at once. -/
theorem witness_PassCompare_at_the_step :
    let c (dpub : Nat) := Instr.cycleFrame 13600 ⟨{ frame 7 0 0 0 true with dpub := dpub }, 27, true⟩
    follower.takesStep (c 55) ∧ follower.takesStep (c 54) ∧ isDue (13600 - 54 + 54) 13600 = true
      ∧ after (c 55) follower (fun s => decide (s.ru.passCompare = some ⟨13601, 0⟩ ∧ s.ru.judged = none)) = true
      ∧ after (c 54) follower (fun s => decide (s.ru.passCompare = none ∧ s.ru.judged = some 0)) = true :=
  ⟨⟨rfl, .inl ⟨13600, _, rfl, by decide⟩⟩, ⟨rfl, .inl ⟨13600, _, rfl, by decide⟩⟩, by decide, by decide +kernel⟩

/-- RegisterSets: both forms with values at and beyond their bounds. -/
theorem witness_RegisterSets :
    (({ holdOff := some 65536 } : InputItems) ≠ {} ∧ ∀ e ∈ (some 1 : Option Nat), e ≤ 1)
      ∧ (({ enable := some true } : LoopItems) ≠ {} ∧ (∀ m ∈ (some 16777215 : Option Nat), m < 16777216))
      ∧ after (.registerSetInputForm 1001 3 0 (some 7) { edge := some 1, holdOff := some 65535 }) follower (fun s =>
        decide ((s.ru.inputs.get 7).edge = .falling ∧ lastReply s 3 = some (0, .done))) = true
      ∧ after (.registerSetLoopForm 1001 3 0 (some 15) { enable := some true, source := some ⟨1, 3⟩, missLimit := some 0 })
        follower (fun s => decide ((s.loop 15).state = .seeking ∧ (s.loop 15).missLimit = 1
          ∧ (s.loop 15).source = .image 3 ∧ lastReply s 3 = some (0, .clamped))) = true := by decide

/-- TripEntry: each of the three events, from NORMAL and from RELEASING. -/
theorem witness_TripEntry :
    let r := follower.onTu (fun t => { t with state := .releasing })
    (follower.tu.state = .normal ∧ r.tu.state = .releasing) ∧ follower.tu.tripInLow = false ∧ follower.tu.webBrk = false
      ∧ follower.takes 3 0 [.desk, .panel] ∧ ⟨.tripIn, none⟩ ∉ follower.tu.causes ∧ ⟨.webBreak, none⟩ ∉ follower.tu.causes
      ∧ ⟨.operatorStop, none⟩ ∉ follower.tu.causes ∧ 2 ≤ (follower.tu.matrix.get .tripIn).rank
      ∧ 2 ≤ (follower.tu.matrix.get .webBreak).rank ∧ 2 ≤ (follower.tu.matrix.get .operatorStop).rank
      ∧ after (.tripIn 1001) (withFive follower { sectionFive with state := .coupled }) (fun s =>
        decide (s.tu.state = .capture ∧ (s.slot 5).state = .held)) = true
      ∧ after (.stopPress 1001 2 0) (withFive r { sectionFive with state := .coupled }) (fun s =>
        decide (s.tu.state = .capture ∧ (s.slot 5).state = .coupled)) = true := by unfold State.takes; decide

/-- A hub with changes and a correction sum at a COUPLED section 5, changes at VACANT slot 6, a FENCE for each, and a DECOUPLE
that waits. -/
def edited (s : State) : State :=
  ((withFive s { sectionFive with state := .coupled, posted := [⟨some 3, .nudge 9⟩], corrSum := 7, corrHeld := true }).onSlot 6
    (fun x => x.post ⟨some 3, .set { port := some 1, n := some 2, d := some 3 }⟩)).onSe (fun e =>
      { e with fences := [⟨3, 1, [5]⟩, ⟨2, 0, [6]⟩], waiting := [⟨3, 2, 5, .decouple⟩] })

/-- TripEntry, the orders: TRIP IN orders HELD from NORMAL and at a rise in STOPPING; no rise orders nothing. -/
theorem witness_TripEntry_orders :
    let t (s : State) (x : TripState) (c : Cause) := s.onTu (fun t => { t with state := x, causes := [⟨c, none⟩] })
    let gone (s : State) : Bool := decide ((s.slot 5).state = .held ∧ (s.slot 5).posted = [] ∧ (s.slot 5).corrSum = 0
      ∧ (s.slot 5).tt = -200 ∧ (s.slot 6).posted ≠ [] ∧ s.se.fences = [⟨2, 0, [6]⟩] ∧ s.se.waiting ≠ []
      ∧ lastReply s 3 = some (1, .discarded))
    after (.tripIn 1001) (edited follower) gone = true
      ∧ after (.tripIn 1001) (t (edited follower) .stopping .operatorStop) gone = true
      ∧ after (.tripIn 1001) (t (edited follower) .stopping .ringLost) (fun s => decide (s.se = (edited follower).se)) = true := by
  decide +kernel

/-- MissedDeadline, the second: every list, FENCE and waiting request is gone, answered. -/
theorem witness_MissedDeadline_discards :
    after (.deadlineExpiry 20000) ((edited follower).onRc (fun r => { r with missedDeadlines := 1 })) (fun s =>
      decide ((s.slot 5).posted = [] ∧ (s.slot 6).posted = [] ∧ (s.slot 5).serial = 41 ∧ s.se.fences = [] ∧ s.se.waiting = []
        ∧ (s.port 3).responses.map (fun r => (r.tag, r.status)) = [(1, .discarded), (2, .notRunning)]
        ∧ lastReply s 2 = some (0, .discarded))) = true := by decide +kernel

/-- TripEntry where no trip is entered: a cause of class NOTIFY in NORMAL, and a rise in STOPPING with a current record. -/
theorem witness_TripEntry_in_a_trip :
    let r : TripRecord := ⟨7, ⟨.operatorStop, none⟩, .sync, .sync, 6, 900, 0, 0, 0, [], [], [], false⟩
    let n := follower.onTu (fun t => { t with matrix := { t.matrix with webBreak := .notify } })
    let s := (withFive follower { sectionFive with state := .coupled }).onTu (fun t =>
      { t with state := .stopping, causes := [⟨.operatorStop, none⟩], records := [r], current := some 7 })
    (n.tu.matrix.get .webBreak).rank < 2 ∧ ⟨.webBreak, none⟩ ∉ n.tu.causes ∧ s.currentAt [] r []
      ∧ after (.webBrk 1001) n (fun s => decide (s.tu.state = .normal ∧ (s.port 3).pending = 16)) = true
      ∧ after (.tripIn 1001) s (fun s =>
        decide (s.tu.state = .stopping ∧ (s.slot 5).state = .held
          ∧ s.tu.records.map (fun r => (r.highest, r.secondary)) = [(.quick, [⟨.tripIn, none⟩])])) = true := by
  unfold State.currentAt; decide

/-- LinesAndMatrix: lines already active, a latched STOP PRESS, and a MATRIX SET at rest and not at rest. -/
theorem witness_LinesAndMatrix :
    let s := follower.onTu (fun t => { t with tripInLow := true, webBrk := true, causes := [⟨.operatorStop, none⟩] })
    s.tu.tripInLow = true ∧ s.tu.webBrk = true ∧ s.takes 2 0 [.desk, .panel] ∧ ⟨.operatorStop, none⟩ ∈ s.tu.causes
      ∧ follower.takes 3 0 [.desk] ∧ (∀ q ∈ [((8 : Nat), (3 : Nat)), (0, 0)], q.1 ≤ 8 ∧ q.2 ≤ 3)
      ∧ ([((8 : Nat), (3 : Nat)), (0, 0)].map (fun q => q.1)).Nodup ∧ follower.su.tracker.flags.atRest = true
      ∧ after (.matrixSet 1001 3 0 [(8, 3), (0, 0)]) follower (fun s =>
        decide (s.tu.matrix.followingError = .coast ∧ s.tu.matrix.tripIn = .quick ∧ lastReply s 3 = some (0, .clamped)))
        = true
      ∧ after (.matrixSet 1001 3 0 [(8, 3)]) (follower.onTu (fun t => { t with causes := [⟨.followingError, some 5⟩] }))
        (fun s => decide (s.tu.state = .capture ∧ (s.port 3).pending = 8 ∧ (s.port 0).pending = 0)) = true := by
  unfold State.takes; decide

/-- LinesAndMatrix: a MATRIX SET that makes two latched causes stop the press, and one that raises the class of a trip. -/
theorem witness_LinesAndMatrix_trips :
    let r : TripRecord := ⟨7, ⟨.operatorStop, none⟩, .sync, .sync, 6, 900, 0, 0, 0, [], [], [], false⟩
    let n := follower.onTu (fun t => { t with causes := [⟨.publicationLate, none⟩, ⟨.followingError, some 5⟩] })
    let s := follower.onTu (fun t =>
      { t with state := .stopped, causes := [⟨.operatorStop, none⟩], records := [r], current := some 7 })
    n.causesLaw = true ∧ s.currentAt [] r []
      ∧ after (.matrixSet 1001 3 0 [(8, 3), (7, 1)]) n (fun s =>
        decide (s.tu.records.map (fun r => (r.first, r.secondary, r.highest)) =
          [(⟨.publicationLate, none⟩, [⟨.followingError, some 5⟩], .coast)])) = true
      ∧ after (.matrixSet 1001 3 0 [(6, 2)]) s (fun s =>
        decide (s.tu.state = .stopped ∧ s.tu.records.map (fun r => r.highest) = [.quick])) = true := by
  unfold State.currentAt; decide

/-- TripResetAndRecordRelease: CAPTURE, LOCKOUT, NORMAL, STOPPED with and without a cause left, and a record. -/
theorem witness_TripResetAndRecordRelease :
    let st (x : TripState) (c : List CausePair) := follower.onTu (fun t => { t with state := x, causes := c, tripInLow := true })
    let r : TripRecord := ⟨7, ⟨.tripIn, none⟩, .quick, .quick, 6, 900, 0, 0, 0, [], [], [], false⟩
    let k := follower.onTu (fun t => { t with records := [r], current := some 7 })
    follower.takes 3 0 [.desk]
      ∧ [(TripState.capture, Status.badState), (.lockout, .lockedOut), (.normal, .done), (.stopped, .done)].all (fun q =>
        after (.tripReset 1001 3 0) (st q.1 []) (fun s => decide (lastReply s 3 = some (0, q.2)))) = true
      ∧ after (.tripReset 1001 3 0) (st .stopped [⟨.tripIn, none⟩]) (fun s =>
        decide (s.tu.state = .stopped ∧ lastReply s 3 = some (0, .stillActive)
          ∧ (s.port 3).responses.map (fun r => r.payload) = [valuesBytes [vlist [valuesBytes [val 1 0, none]]]])) = true
      ∧ after (.recordRelease 1001 3 0 (some 7)) k (fun s => decide (s.tu.records = [] ∧ s.tu.current = none)) = true
      ∧ after (.recordRelease 1001 3 0 (some 8)) k (fun s => decide (lastReply s 3 = some (0, .gone))) = true
      ∧ after (.recordRelease 1001 3 0 (some 7)) (k.onTu (fun t => { t with records := [r, { r with v := 5 }] })) (fun s =>
        decide (s.tu.records.map (fun r => r.v) = [5] ∧ s.tu.current = some 7)) = true := by
  unfold State.takes; decide

/-- FreezeWalk: a walk with a candidate, one whose candidate has left the directory while its id names another strip, and one
with none left, at rest in CAPTURE. -/
theorem witness_FreezeWalk :
    let s := (withStrip follower stripTwelve).onIs (fun i => { i with walk := some ⟨7, [some 12], []⟩ })
    let e := (follower.onIs (fun i => { i with walk := some ⟨7, [], []⟩ })).onTu (fun t => { t with state := .capture })
    (s.is.strips.map (fun x => x.id)).Nodup ∧ s.freezeLaw = true
      ∧ after (.freezeWalkExamination 1001) s (fun s => decide (s.is.walk = some ⟨7, [], [12]⟩)) = true
      ∧ after (.freezeWalkExamination 1001) (s.onStrip 12 (fun x => { x with receiving := true })) (fun s =>
        decide (s.is.walk = some ⟨7, [], []⟩)) = true
      ∧ after (.freezeWalkExamination 1001) (s.onIs (fun i => { i with walk := some ⟨7, [none], []⟩ })) (fun s =>
        decide (s.is.walk = some ⟨7, [], []⟩ ∧ s.frozenTiles = 0)) = true
      ∧ after (.freezeWalkCompletion 1001) e (fun s => decide (s.is.walk = none ∧ s.tu.state = .stopped)) = true := by decide

/-- CamerasAndTriggers: items in range, equal angles, nine angles, a firing just due and a pulse just ended. -/
theorem witness_CamerasAndTriggers :
    let s := follower.onCamera 3 (fun c => { c with armed := [⟨1500, 6⟩], pulseEnd := some 2000 })
    (({ pitch := some 65535, mode := some 1 } : CameraItems) ≠ {} ∧ (∀ n ∈ (some 65535 : Option Nat), 1 ≤ n ∧ n ≤ 65535))
      ∧ after (.triggerSet 1001 3 0 (some 3) (some [9, 16777215, 4])) follower (fun s =>
        decide ((s.camera 3).table = [4, 9, 16777215])) = true
      ∧ after (.triggerSet 1001 3 0 (some 3) (some [9, 9])) follower (fun s =>
        decide (lastReply s 3 = some (0, .badArgument))) = true
      ∧ after (.triggerSet 1001 3 0 (some 3) (some [1, 2, 3, 4, 5, 6, 7, 8, 9])) follower (fun s =>
        decide (lastReply s 3 = some (0, .full))) = true
      ∧ after (.freezeSpanSet 1001 3 0 (some 0)) follower (fun s => decide (s.is.span = 1)) = true
      ∧ isDue 1500 1500 = true
      ∧ after (.triggerFire 1500 3) s (fun s => decide ((s.camera 3).trigNumber = 1 ∧ (s.camera 3).pulseEnd = some 2000)) = true
      ∧ after (.triggerPulseEnd 2000 3) s (fun s => decide ((s.camera 3).pulseEnd = none)) = true := by decide

/-- CamerasAndTriggers at the step, with the numbers of the worked case of section 6.3: 10,000 increments on, 4,967 ticks on;
the interval's start is outside, the increment after it and its end inside; a PENDING stamp of the log becomes KNOWN. -/
theorem witness_CamerasAndTriggers_at_the_step :
    let c := Instr.cycleFrame 13600 ⟨frame 7 0 (BitVec.ofNat 36 (25166 * 4096)) 10 false, 27, true⟩
    let s := follower.onCamera 0 (fun k =>
      { k with table := [25166, 25167, 35166, 50332, 50333], log := [⟨1, 2000, .pending 2000 6⟩] })
    s.takesStep c
      ∧ after c s (fun s =>
        decide ((s.camera 0).armed = [⟨19796, 7⟩, ⟨24763, 7⟩, ⟨32296, 7⟩])) = true
      ∧ after c s (fun s => decide ((s.camera 0).log.map (fun e => e.stamp) = [.known 0 6]
        ∧ (s.camera 0).scheduled = some 50332)) = true :=
  ⟨⟨rfl, .inl ⟨13600, _, rfl, by decide⟩⟩, by decide +kernel⟩

/-- StripOpen: a width of 4,096 and 64 rows with room, and the same with too few tiles in CAPTURE. -/
theorem witness_StripOpen :
    let s := follower.onIs (fun i => { i with free := List.range 128 })
    let few := (follower.onIs (fun i => { i with free := List.range 127 })).onTu (fun t => { t with state := .capture })
    s.takes 1 0 [.vision] ∧ 4096 * (if (s.camera 0).mode = .grey then 1 else 4) * 64 ≤ 524288 ∧ s.is.strips.length < 256
      ∧ (s.is.strips.map (fun x => x.id)).Nodup ∧ 128 = (4096 * (if (s.camera 0).mode = .grey then 1 else 4) * 64 + 2047) / 2048
      ∧ 128 ≤ s.is.free.length ∧ few.is.free.length < 128 ∧ few.tu.state = .capture
      ∧ after (.stripOpen 1001 1 0 (some 0) (some 0) (some 4096) (some 64)) s (fun s =>
        decide (s.is.free = [] ∧ s.is.idCount = 1)) = true
      ∧ after (.stripOpen 1001 1 0 (some 0) (some 0) (some 4096) (some 64)) few (fun s =>
        decide (lastReply s 1 = some (0, .noRoom))) = true := by unfold State.takes; decide +kernel

/-- StripOpen: a directory of 256 strips; a COMPLETE unpinned strip reclaimed for its three tiles; none to reclaim. -/
theorem witness_StripOpen_reclaims :
    let full := follower.onIs (fun i => { i with strips := List.replicate 256 stripTwelve })
    let old := (withStrip follower stripTwelve).onIs (fun i => { i with free := [9] })
    let pinned := old.onStrip 12 (fun x => { x with sending := [3] })
    let c := Instr.stripOpen 1001 1 0 (some 0) (some 0) (some 2048) (some 2)
    (256 ≤ full.is.strips.length ∧ old.is.strips.length < 256 ∧ (old.is.strips.map (fun x => x.id)).Nodup
        ∧ old.is.age.Nodup ∧ old.is.free.length < 2 ∧ old.tu.state ≠ .capture
        ∧ 2 ≤ old.is.free.length + stripTwelve.tiles.length)
      ∧ after c full (fun s => decide (lastReply s 1 = some (0, .full))) = true
      ∧ after c old (fun s =>
        decide (s.is.strips.map (fun x => (x.id, x.tiles)) = [(13, [9, 0])] ∧ s.is.free = [1, 2] ∧ s.is.age = [])) = true
      ∧ after c pinned (fun s => decide (lastReply s 1 = some (0, .noRoom) ∧ s.is.free = [9])) = true := by decide +kernel

/-- A strip of one byte row that CP1 is writing. -/
def filling : Strip := newStrip 12 (.here 1) 1 .grey 4 2 8 [0, 1, 2] .unknown false

/-- StripDataIsStored: the last byte that fits is stored and read back; each refusal. -/
theorem witness_StripDataIsStored :
    let s := withStrip follower { filling with fill := 6 }
    let d (id off : Nat) (b : List Byte) := Instr.stripData 1001 1 0 (some id) (some off) b
    s.takes 1 0 [.vision] ∧ Memory.wf s.is.mem = true
      ∧ after (d 12 6 [7, 8]) s (fun s => decide (lastReply s 1 = some (0, .done) ∧ s.is.mem = [(6, 7), (7, 8)])) = true
      ∧ after (d 12 6 [7, 8, 9]) s (fun s => decide (lastReply s 1 = some (0, .badArgument))) = true
      ∧ after (d 12 5 [7]) s (fun s => decide (lastReply s 1 = some (0, .outOfOrder))) = true
      ∧ after (d 11 6 [7]) s (fun s => decide (lastReply s 1 = some (0, .gone))) = true
      ∧ after (d 12 5000 [7]) (withStrip follower stripTwelve) (fun s => decide (lastReply s 1 = some (0, .badState))) = true
      ∧ after (d 12 6 [7]) (withStrip follower { filling with origin := .here 2 }) (fun s =>
        decide (lastReply s 1 = some (0, .notYours))) = true := by unfold State.takes; decide

/-- StripClose: no whole row, and one of two rows, with the camera's mask naming hub 3. -/
theorem witness_StripClose :
    let s := (withStrip follower { filling with fill := 7 }).onCamera 1 (fun c => { c with mask := 0b1010 })
    let bare := withStrip follower { filling with fill := 3 }
    s.takes 1 0 [.vision] ∧ s.is.strips.find? (fun x => x.id == 12) = some { filling with fill := 7 }
      ∧ ({ filling with fill := 7 } : Strip).origin = .here 1 ∧ ({ filling with fill := 7 } : Strip).complete = false
      ∧ 1 = min filling.rows (7 / (filling.width * (if filling.mode = .grey then 1 else 4)))
      ∧ 0 = min filling.rows (3 / (filling.width * (if filling.mode = .grey then 1 else 4)))
      ∧ s.destinations 0b1010 = [3]
      ∧ after (.stripClose 1001 1 0 (some 12)) s (fun s => decide (s.im.sendQueue = [(12, 3)])) = true
      ∧ after (.stripClose 1001 1 0 (some 12)) bare (fun s => decide (s.is.strips = [])) = true := by unfold State.takes; decide

/-- StripClose, IMAGE DROPPED: the queue has one place for two hubs, the hub is not RUNNING, and no hub but itself is named. -/
theorem witness_StripClose_drops :
    let s (m : BitVec 32) := (withStrip follower { filling with fill := 7 }).onCamera 1 (fun c => { c with mask := m })
    let full := (s 0b1101).onIm (fun m => { m with sendQueue := (List.range 31).map (fun n => (100 + n, 2)) })
    let lost (m : BitVec 32) := (s m).onRc (fun r => { r with ringState := .lost })
    (∀ d ∈ full.destinations 0b1101, (12, d) ∉ full.im.sendQueue) ∧ full.destinations 0b1101 = [0, 2, 3]
      ∧ after (.stripClose 1001 1 0 (some 12)) full (fun s =>
        decide (s.im.sendQueue.length = 32 ∧ (s.port 1).pending = 256)) = true
      ∧ after (.stripClose 1001 1 0 (some 12)) (lost 0b1101) (fun s =>
        decide (s.im.sendQueue = [] ∧ (s.port 1).pending = 256)) = true
      ∧ after (.stripClose 1001 1 0 (some 12)) (lost 0b10) (fun s => decide ((s.port 1).pending = 0)) = true := by decide +kernel

/-- StripClose, the searches: two loops whose window holds row 0, with a scan of another strip in progress and room for one
job, and with none in progress. -/
theorem witness_StripClose_searches :
    let s := ((withStrip follower { filling with fill := 7, stamp := .known 1000 3 }).onLoop 2 (fun l =>
      { l with source := .image 1, mexp := 1000, window := 0 })).onLoop 9 (fun l => { l with source := .image 1, mexp := 999, window := 1 })
    let p : Scan := ⟨⟨13, 5⟩, 1, .grey, 4, 1000, 1, [0], 0, ⟨0, 0, .right, 128, 1⟩, 1500⟩
    let q := List.replicate 15 (⟨13, 6⟩ : Job)
    let busy := s.onMs (fun m => { m with scan := some p, queue := q })
    (s.ms.scan = none ∧ s.ms.queue = [] ∧ busy.ms.scan = some p ∧ p.job.strip ≠ 12 ∧ ∀ j ∈ busy.ms.queue, j.strip ≠ 12)
      ∧ after (.stripClose 1001 1 0 (some 12)) busy (fun s => decide (s.ms.queue = q ++ [⟨12, 2⟩] ∧ s.ms.skipped = 1)) = true
      ∧ after (.stripClose 1001 1 0 (some 12)) s (fun s => decide (s.ms.queue = [⟨12, 9⟩]
        ∧ s.ms.scan.map (fun p => (p.job, p.rows)) = some (⟨12, 2⟩, [0]))) = true := by decide +kernel

/-- StripDiscardAndHolds: a discard, a pinned strip, the fourth hold and the fifth. -/
theorem witness_StripDiscardAndHolds :
    let s := withStrip follower stripTwelve
    let held (n : Nat) := withStrip follower { stripTwelve with holds := (Table.const 4 0).set 2 n }
    s.takes 1 0 [.vision] ∧ s.takes 2 0 [.desk, .panel]
      ∧ after (.stripDiscard 1001 1 0 (some 12)) s (fun s => decide (s.is.strips = [])) = true
      ∧ after (.stripDiscard 1001 1 0 (some 12)) (held 1) (fun s => decide (lastReply s 1 = some (0, .busy))) = true
      ∧ after (.stripDiscard 1001 1 0 (some 12)) (s.onIs (fun i => { i with walk := some ⟨7, [some 12, some 13], []⟩ })) (fun s =>
        decide (s.is.walk = some ⟨7, [none, some 13], []⟩)) = true
      ∧ after (.stripHold 1001 2 0 (some 12)) (held 3) (fun s => decide (lastReply s 2 = some (0, .done))) = true
      ∧ after (.stripHold 1001 2 0 (some 12)) (held 4) (fun s => decide (lastReply s 2 = some (0, .full))) = true
      ∧ after (.stripUnhold 1001 2 0 (some 12)) (held 1) (fun s => decide (lastReply s 2 = some (0, .done))) = true
      ∧ after (.stripUnhold 1001 2 0 (some 12)) s (fun s => decide (lastReply s 2 = some (0, .badState))) = true := by
  unfold State.takes; decide

/-- The transfer of strip 12 to hub 3. -/
def transfer : Transfer := ⟨12, 3, 57, 1, 5, 0, none⟩

/-- A follower whose sender is in a state with a transfer and a timer. -/
def sending (st : SenderState) (k : Transfer) (timer : Option StepTimer) : State :=
  (withStrip follower { stripTwelve with sending := [3] }).onIm (fun m =>
    { m with sender := st, transfer := some k, timer := timer, transferCount := 57 })

/-- SenderAttempts: a strip at the head, a retry just due, the seventh attempt and the eighth, a COMPLETE that never came,
and no timer. -/
theorem witness_SenderAttempts :
    let q := (withStrip follower { stripTwelve with sending := [3] }).onIm (fun m => { m with sendQueue := [(12, 3)] })
    (q.im.sender = .idle ∧ q.rc.ringState = .running ∧ q.im.sendQueue = (12, 3) :: [] ∧ (q.strip 12).isSome = true
        ∧ stripTwelve.stamp.isPending = false ∧ q.rc.imagePending = none ∧ q.im.offered = [])
      ∧ ((sending .retryWait transfer (some ⟨2, 2⟩)).im.sender = .retryWait ∧ 2 ≤ 2)
      ∧ after (.retryWaitExpiry 1001) (sending .retryWait transfer (some ⟨2, 2⟩)) (fun s =>
        decide (s.im.transfer.map (fun k => k.number) = some 58)) = true
      ∧ after (.beginTimeout 1001) (sending .beginSent { transfer with attempt := 7 } (some ⟨4, 4⟩)) (fun s =>
        decide (s.im.transfer.map (fun k => k.attempt) = some 8)) = true
      ∧ after (.beginTimeout 1001) (sending .beginSent { transfer with attempt := 8 } (some ⟨4, 4⟩)) (fun s =>
        decide (s.im.transfer = none ∧ s.im.transfersDropped = 1)) = true
      ∧ ((sending .awaitComplete transfer (some ⟨8, 8⟩)).im.generalFree = true
        ∧ (sending .awaitComplete transfer (some ⟨8, 8⟩)).rc.controlQueue.length < 8)
      ∧ after (.awaitCompleteTimeout 1001) (sending .awaitComplete transfer (some ⟨8, 8⟩)) (fun s =>
        decide (s.rc.controlQueue = [⟨3, .imageAbort true 12 57 .timeout⟩])) = true
      ∧ (let next := (sending .beginSent { transfer with attempt := 8 } (some ⟨4, 4⟩)).onIm (fun m =>
          { m with sendQueue := [(12, 2)] })
        after (.beginTimeout 1001) next (fun s => decide (s.im.sender = .beginSent ∧ s.im.sendQueue = []
          ∧ s.im.transfer.map (fun k => (k.dst, k.number)) = some (2, 58) ∧ s.im.transfersDropped = 1)) = true)
      ∧ (sending .beginSent transfer none).im.timer = none := by decide

/-- SenderAnswers: hub 3 is a good source; ACCEPT, COMPLETE and an abort from it, and a reply with another number. -/
theorem witness_SenderAnswers :
    let s := sending .beginSent transfer (some ⟨1, 4⟩)
    s.rc.ringState = .running ∧ s.goodSource 3 = true ∧ s.im.transfer = some transfer ∧ transfer.dst = 3
      ∧ transfer.number = 57 ∧ s.strip transfer.strip = some { stripTwelve with sending := [3] } ∧ s.rc.imagePending = none
      ∧ s.im.offered = []
      ∧ after (.imageAbortToSender 1001 3 12 57 (.unlisted 9)) s (fun s =>
        decide (s.im.lastAbort = some (.unlisted 9) ∧ s.im.abortsToSender = 1)) = true
      ∧ s.im.transfer.all (fun k => decide (k.dst ≠ 3) || decide (k.number ≠ 56)) = true
      ∧ after (.imageReply 1001 3 12 57 .complete 40) (sending .awaitComplete transfer none) (fun s =>
        decide (s.im.transfersDone = 1 ∧ (s.strip 12).map (fun y => y.sending) = some [])) = true
      ∧ after (.imageAbortToSender 1001 3 12 57 .sequence) (sending .sending transfer none) (fun s =>
        decide (s.im.lastAbort = some .sequence)) = true := by decide

/-- ImageBeginIsJudged: malformed by one segment, both contexts in use, and a free context. -/
theorem witness_ImageBeginIsJudged :
    let f : BeginFields := ⟨12, 58, 1, 0, 2500, 2, 5000, 5, .known 77 3⟩
    let r : Reception := ⟨0, 3, 9, 7, [5], 1, 0, 0⟩
    let both := follower.onIm (fun m => { m with contexts := .const 2 (some r) })
    (follower.rc.ringState = .running ∧ follower.goodSource 3 = true ∧ follower.im.store = []
        ∧ follower.rc.controlQueue.length < 8 ∧ (∀ i : Fin 2, ∀ r ∈ both.im.contexts.get i, r.src ≠ 3 ∨ r.srcStrip ≠ f.strip))
      ∧ f.segCount = (f.byteSize + 1023) / 1024 ∧ follower.im.contexts.get 0 = none ∧ follower.is.strips.length < 256
      ∧ (f.byteSize + 2047) / 2048 ≤ 3
      ∧ after (.imageBegin 1001 3 { f with segCount := 6 }) follower (fun s =>
        decide (s.rc.controlQueue = [⟨3, .imageAbort false 12 58 .badBegin⟩])) = true
      ∧ (let none := both.onIm (fun m =>
          { m with store := List.replicate 2 ⟨⟨3, .imageReply 1 2 .busy 0⟩, .general⟩ })
        after (.imageBegin 1001 3 f) none (fun s => decide (s.im.notMade = 1 ∧ s.im.store.length = 2)) = true)
      ∧ after (.imageBegin 1001 3 f) both (fun s => decide (s.rc.controlQueue = [⟨3, .imageReply 12 58 .busy 0⟩])) = true
      ∧ after (.imageBegin 1001 3 f) follower (fun s =>
        decide (s.rc.controlQueue = [⟨3, .imageReply 12 58 .accept 1⟩])) = true := by decide +kernel

/-- A follower that receives strip 12 of hub 3, of one segment of two bytes, into tile 9. -/
def receiving (next timer : Nat) : State :=
  (withStrip follower { newStrip 40 (.remote 3 12) 1 .grey 1025 1 1025 [] .unknown true with id := 40 }).onIm (fun m =>
    { m with contexts := m.contexts.set 0 (some ⟨3, 12, 58, 40, [9], 2, next, timer⟩) })

/-- ReceptionGoesOn: the last segment, a wrong one, a timer just at 8, an abort, a segment in context 1, an abort that withdraws
the ACCEPT still waiting, and no reception. -/
theorem witness_ReceptionGoesOn :
    let s := receiving 1 0
    (s.rc.ringState = .running ∧ s.goodSource 3 = true ∧ s.im.contexts.get 0 = some ⟨3, 12, 58, 40, [9], 2, 1, 0⟩
        ∧ (s.strip 40).isSome = true ∧ s.im.store = [] ∧ s.rc.controlQueue.length < 8)
      ∧ after (.imageSegment 1001 3 12 58 1 1 [6]) s (fun s =>
        decide ((s.strip 40).map (fun y => (y.complete, y.tiles)) = some (true, [9]) ∧ s.im.receptionsDone = 1)) = true
      ∧ after (.imageSegment 1001 3 12 58 0 1 [6]) s (fun s =>
        decide (s.strip 40 = none ∧ s.rc.controlQueue = [⟨3, .imageAbort false 12 58 .sequence⟩])) = true
      ∧ after (.segmentTimeout 1001 0) (receiving 1 8) (fun s => decide (s.im.contexts.get 0 = none)) = true
      ∧ after (.segmentTimeout 1001 0) (receiving 1 7) (fun s => (s.im.contexts.get 0).isSome) = true
      ∧ after (.imageAbortToReceiver 1001 3 12 58 .timeout) s (fun s => decide (s.im.receptionsAbandoned = 1)) = true
      ∧ (let one := s.onIm (fun m => { m with contexts := (Table.const 2 none).set 1 (m.contexts.get 0) })
        (one.im.contexts.get 1 = s.im.contexts.get 0 ∧ one.im.contexts.get 0 = none)
          ∧ after (.imageSegment 1001 3 12 58 1 1 [6]) one (fun s => decide (s.im.receptionsDone = 1)) = true)
      ∧ (let held := (s.onIm (fun m => { m with store := [⟨⟨3, .imageReply 12 58 .accept 40⟩, .accept 0⟩] })).onRc (fun r =>
          { r with controlWaiters := [.imageMover, .viewUnit] })
        after (.imageAbortToReceiver 1001 3 12 58 .timeout) held (fun s =>
          decide (s.im.store = [] ∧ s.rc.controlWaiters = [.viewUnit])) = true)
      ∧ after (.imageSegment 1001 3 12 58 0 1 [6]) follower (fun s =>
        decide (s.rc.controlQueue = [⟨3, .imageAbort false 12 58 .noTransfer⟩])) = true := by decide

/-- ScanCompletion: a scan just complete whose row 0 holds a run, and the run itself. -/
theorem witness_ScanCompletion :
    let p : Scan := ⟨⟨12, 5⟩, 1, .grey, 4, 1000, 1, [0], 0, ⟨0, 0, .right, 128, 1⟩, 1500⟩
    let s := ((withStrip (withFive follower { sectionFive with state := .coupled }) { stripTwelve with scanning := true }).onMs
      (fun m => { m with scan := some p })).onLoop 5 (fun l =>
        { l with enable := true, state := .seeking, source := .image 1, mexp := 1000, window := 0 })
    let hit := s.onIs (fun i => { i with mem := [(2, 200)] })
    s.ms.scan = some p ∧ (s.strip p.job.strip).isSome = true ∧ isDue p.completeAt 1500 = true ∧ s.ms.queue = []
      ∧ isDue p.completeAt 1499 = false ∧ s.loopActive 5 = true ∧ 1 ≤ 1 ∧ follower.ms.scan = none
      ∧ after (.scanCompletion 1500) hit (fun s => decide ((s.loop 5).state = .locked ∧ s.ms.hits = 1)) = true
      ∧ after (.scanCompletion 1500) s (fun s => decide ((s.loop 5).misses = 1 ∧ s.ms.nones = 1)) = true := by decide +kernel

/-- ScanCompletion, the next job: one that is void and one that is taken up, in GREY, for LEFT from a column beyond the width. -/
theorem witness_ScanCompletion_takes_up :
    let p : Scan := ⟨⟨12, 5⟩, 1, .grey, 4, 1000, 1, [0], 0, ⟨0, 0, .right, 128, 1⟩, 1500⟩
    let s := ((((withStrip follower { stripTwelve with width := 4, rows := 1, scanning := true }).onMs (fun m =>
      { m with scan := some p, queue := [⟨12, 6⟩, ⟨12, 7⟩] })).onLoop 6 (fun l => { l with mexp := 78, window := 0 })).onLoop 7 (fun l =>
        { l with mexp := 80, window := 3, search := ⟨0, 9, .left, 128, 2⟩ })).onCamera 1 (fun c => { c with pitch := 1 })
    (s.ms.scan = some p ∧ isDue p.completeAt 1500 = true ∧ stripTwelve.stamp = .known 77 3)
      ∧ after (.scanCompletion 1500) s (fun s => decide (s.ms.void = 1 ∧ s.ms.queue = []
        ∧ s.ms.scan.map (fun p => (p.job, p.rows, p.startColumn, p.completeAt)) = some (⟨12, 7⟩, [0], 3, 1517)
        ∧ (s.strip 12).map (fun x => x.scanning) = some true)) = true := by decide +kernel

/-- A view of CP2. -/
def view (target : Option Nat) (st : ViewState) (ready : Bool) (stale : Nat) : View :=
  ⟨2, target, .slot 5, 0, st, ready, none, none, 4, stale⟩

/-- A follower with one view. -/
def withView (v : View) : State := follower.onVu (fun u => { u with views := u.views.set 0 (some v), subCount := 4 })

/-- ViewRequests: a local view, a remote one, a fetch, and a close by its owner and by another port. -/
theorem witness_ViewRequests :
    follower.takes 2 0 [.desk, .panel] ∧ viewKindOf 1 5 = some (.slot 5) ∧ viewKindOf 5 0 = none
      ∧ (∃ h ∈ (some 3 : Option Nat), h ≤ 31 ∧ follower.rc.hubAddress ≠ some h ∧ ∃ n ∈ follower.rc.hubCount, h < n)
      ∧ follower.vu.controlList = [] ∧ follower.rc.controlQueue.length < 8 ∧ follower.vu.views.get 0 = none
      ∧ (follower.rc.hubAddress = some 1 ∧ ∀ h ∈ follower.rc.hubAddress, h ≤ 31)
      ∧ after (.viewOpen 1001 2 0 (some 3) (some 1) (some 5) (some 3)) follower (fun s =>
        decide (s.rc.controlQueue = [⟨3, .subscribe 0 1 1 5 3⟩])) = true
      ∧ after (.viewFetch 1001 2 0) (withView (view none .initial true 0)) (fun s =>
        decide ((s.vu.views.get 0).map (fun v => (v.state, v.ready)) = some (.clean, false))) = true
      ∧ after (.viewClose 1001 2 0 (some 0)) (withView (view (some 3) .clean false 0)) (fun s =>
        decide (s.rc.controlQueue = [⟨3, .unsubscribe 0 4⟩])) = true
      ∧ after (.viewClose 1001 3 0 (some 0)) (withView (view none .clean false 0)) (fun s =>
        decide (lastReply s 3 = some (0, .notYours))) = true := by unfold State.takes; decide

/-- ViewRequests, of every command: a step changes the content of a CLEAN SHAFT view and not that of a CLEAN REGISTER view. -/
theorem witness_ViewRequests_marks :
    let v (k : ViewKind) := withView { view none .clean false 0 with kind := k }
    let c := Instr.cycleFrame 13600 ⟨frame 7 0 0 0 true, 27, true⟩
    (∀ st a b, c ≠ .hardwareReset st a b) ∧ ((v .shaft).vu.views.get 0).map (fun x => (x.target, x.state)) = some (none, .clean)
      ∧ after c (v .shaft) (fun s => decide ((s.vu.views.get 0).map (fun x => x.state) = some .dirty)) = true
      ∧ after c (v (.register 5)) (fun s => decide ((s.vu.views.get 0).map (fun x => x.state) = some .clean)) = true :=
  ⟨by simp, by decide +kernel⟩

/-- A command leaves the content of a view as it was and the view, CLEAN before, DIRTY. -/
def reverts (c : Instr) (s : State) (k : ViewKind) : Bool :=
  after c s (fun s' => decide (s'.content k = s.content k)
    && decide ((s'.vu.views.get 0).map (fun (x : View) => x.state) = some .dirty))

/-- ViewRequests and MarkEdgeAndHoldOff, a value changed and changed back by one cycle frame: mark seen, set by a mark and
cleared by a pass at once; a section coupled and decoupled; PUBLICATION LATE, of class NOTIFY, raised and reset. -/
theorem witness_ViewRequests_reverts :
    let v (k : ViewKind) := withView { view none .clean false 0 with kind := k }
    let c := Instr.cycleFrame 13600 ⟨{ frame 7 0 (BitVec.ofNat 36 (116000 * 4096)) 10 false with dpub := 54 }, 27, true⟩
    let marked := (((withFive (v (.register 5)) { sectionFive with state := .coupled }).onLoop 5 (fun l =>
      { l with enable := true, state := .locked, source := .sensor 2, window := 20, deadband := 100, lastE := some 10
               lastEs := some 10, lastC := some 0 })).onInput 2 (fun m =>
        { m with map := 32, pending := some 2001 })).onRu (fun r => { r with judged := some 0 })
    (marked.takesStep c ∧ marked.mayRevert c (.register 5) ∧ ∀ n : SlotNo, (marked.slot n).tol = 0 ∧ (marked.slot n).posted = [])
      ∧ reverts c marked (.register 5) = true
      ∧ reverts (.cycleFrame 13600 ⟨frame 7 0 0 0 true, 27, true⟩)
        ((withFive (v (.slot 5)) sectionFive).onSe (fun e =>
          { e with waiting := [⟨3, 1, 5, .couple⟩, ⟨3, 2, 5, .decouple⟩] })) (.slot 5) = true
      ∧ reverts (.cycleFrame 13600 ⟨{ frame 7 100 0 0 true with dpub := 53, resetRequest := true }, 27, true⟩)
        ((v .trips).onTu (fun t => { t with matrix := { t.matrix with publicationLate := .notify } })) .trips = true :=
  ⟨⟨⟨rfl, .inl ⟨13600, _, rfl, by decide⟩⟩, ⟨.inl ⟨13600, _, rfl⟩, by decide, by decide, 2, by decide⟩, by decide⟩,
    by decide +kernel, by decide +kernel, by decide +kernel⟩

/-- STRIP LIST: the SENDING destinations, hubs 3 and 1, are the mask 0Ah (section 11.2). -/
theorem test_strip_list_sending_mask :
    { stripTwelve with sending := [3, 1] }.pinValues.head? = some (some [0, 0, 0, 10]) := by decide

/-- A follower with one export to hub 3. -/
def withExport (st : ViewState) (steps : Nat) : State :=
  follower.onVu (fun u => { u with exports := u.exports.set 0 (some ⟨3, 2, 9, .slot 5, 0, st, .none, steps⟩) })

/-- RateTimers: the timer just come and not yet; a local view in INITIAL, a DIRTY export, with the view queue empty. -/
theorem witness_RateTimers :
    let s := withView (view none .initial false 0)
    isDue (s.vu.rateNext.get 0) 1000000 = true ∧ isDue (s.vu.rateNext.get 0) 999999 = false ∧ s.rc.ringState = .running
      ∧ s.rc.viewQueue = [] ∧ s.vu.offered = none
      ∧ after (.rateTimerExpiry 1000000 0) s (fun s => decide ((s.vu.views.get 0).map (fun v => v.ready) = some true)) = true
      ∧ after (.rateTimerExpiry 1000000 0) (withExport .dirty 0) (fun s =>
        decide (s.rc.viewQueue.length = 1 ∧ (s.vu.exports.get 0).map (fun e => e.state) = some .clean)) = true := by decide

/-- Exports: seven steps and eight, a subscription to the same view, to a new one and out of range. -/
theorem witness_Exports :
    let s := withExport .clean 8
    (∃ e, s.vu.exports.get 0 = some e ∧ 8 ≤ e.steps ∧ e.due = .none) ∧ s.goodSource 3 = true ∧ s.vu.controlList = []
      ∧ s.rc.controlQueue.length < 8 ∧ (∀ j : Fin 16, j ≠ 0 → s.vu.exports.get j = none)
      ∧ after (.exportKeepAlive 1001 0) s (fun s => decide (s.rc.viewQueue = [⟨3, .viewUpdate 2 9 none⟩])) = true
      ∧ after (.subscribe 1001 3 2 10 3 0 3) s (fun s =>
        decide ((s.vu.exports.get 0).map (fun e => (e.sub, e.kind)) = some (10, .trips))) = true
      ∧ after (.subscribe 1001 3 3 10 3 0 3) s (fun s => (s.vu.exports.get 1).isSome) = true
      ∧ after (.subscribe 1001 3 3 10 3 0 4) s (fun s =>
        decide (s.rc.controlQueue = [⟨3, .subscribeReply 3 10 .badArgument⟩])) = true
      ∧ after (.unsubscribe 1001 3 2 9) s (fun s => decide (s.vu.exports.get 0 = none)) = true :=
  ⟨⟨_, rfl, by decide, by decide⟩, by decide⟩

/-- Exports, of every command: a step that changes a section, and one that changes none. -/
theorem witness_Exports_marks :
    let c := Instr.cycleFrame 13600 ⟨frame 7 0 0 0 true, 27, true⟩
    let s := withExport .clean 0
    (∀ st a b, c ≠ .hardwareReset st a b) ∧ (s.vu.exports.get 0).map (fun e => e.state) = some .clean
      ∧ after c (withFive s { sectionFive with state := .coupled, ca := 0 }) (fun s =>
        decide ((s.vu.exports.get 0).map (fun e => e.state) = some .dirty)) = true
      ∧ after c s (fun s => decide ((s.vu.exports.get 0).map (fun e => e.state) = some .clean)) = true :=
  ⟨by simp, by decide +kernel⟩

/-- Imports: a reply, an update with the same content and with another, a stale count of 9 and of 10, and no such view. -/
theorem witness_Imports :
    let v := { view (some 3) .clean false 10 with received := some [⟨1, [3]⟩] }
    let s := withView v
    (s.rc.ringState = .running ∧ s.goodSource 3 = true ∧ s.vu.views.get 0 = some v ∧ v.target = some 3 ∧ v.state ≠ .gone
        ∧ v.sub = 4 ∧ 10 ≤ v.stale ∧ s.vu.controlList = [] ∧ s.rc.controlQueue.length < 8)
      ∧ (∀ v ∈ follower.vu.views.get 0, v.target ≠ some 3 ∨ v.state = .gone ∨ v.sub ≠ 4)
      ∧ after (.viewUpdate 1001 3 0 4 (some [⟨1, [3]⟩])) s (fun s =>
        decide ((s.vu.views.get 0).map (fun v => (v.state, v.stale)) = some (.clean, 0))) = true
      ∧ after (.viewUpdate 1001 3 0 4 (some [⟨1, [4]⟩])) s (fun s =>
        decide ((s.vu.views.get 0).map (fun v => v.state) = some .dirty)) = true
      ∧ after (.staleCountExpiry 1001 0) s (fun s =>
        decide ((s.vu.views.get 0).map (fun v => (v.state, v.sub)) = some (.stale, 5))) = true
      ∧ after (.staleCountExpiry 1001 0) (withView { v with stale := 9 }) (fun s =>
        decide ((s.vu.views.get 0).map (fun v => v.state) = some .clean)) = true
      ∧ after (.subscribeReply 1001 3 0 4 .full) s (fun s =>
        decide ((s.vu.views.get 0).map (fun v => (v.state, v.ready)) = some (.gone, true))) = true
      ∧ after (.subscribeReply 1001 3 0 4 (.unlisted 7)) s (fun t => decide (t.vu = s.vu)) = true := by decide

/-- Nudges: a local one at the limit and beyond, one for hub 3, an EDIT, its reply and its timeout. -/
theorem witness_Nudges :
    let s := withFive follower sectionFive
    let n : Nudge := ⟨2, 0, 3, 1, 16⟩
    let w := s.onVu (fun u => { u with nudges := [n] })
    (250 = max (-((s.slot 5).latest.nudgeLimit : Int)) (min 251 (s.slot 5).latest.nudgeLimit)) ∧ s.takes 2 0 [.desk, .panel]
      ∧ s.rc.hubAddress = some 1 ∧ (∃ x ∈ s.rc.hubAddress, x ≠ 3) ∧ s.rc.ringState = .running
      ∧ (∃ x ∈ s.rc.hubCount, 3 < x) ∧ s.vu.controlList = [] ∧ s.rc.controlQueue.length < 8 ∧ s.goodSource 3 = true
      ∧ s.se.replies = [] ∧ w.vu.nudges.find? (fun n => decide (n.ref = 1) && decide (16 ≤ n.steps)) = some n
      ∧ (∀ n ∈ s.vu.nudges, n.ref = 1 → n.steps < 16)
      ∧ after (.trimNudge 1001 2 0 (some 1) (some 5) (some 250)) s (fun s => decide (lastReply s 2 = some (0, .posted))) = true
      ∧ after (.trimNudge 1001 2 0 (some 1) (some 5) (some 251)) s (fun s => decide (lastReply s 2 = some (0, .clamped))) = true
      ∧ after (.trimNudge 1001 2 0 (some 3) (some 5) (some 40)) s (fun s =>
        decide (s.rc.controlQueue = [⟨3, .edit 1 5 40⟩] ∧ s.vu.nudges = [⟨2, 0, 3, 1, 0⟩])) = true
      ∧ after (.edit 1001 3 7 5 (-251)) s (fun s =>
        decide (s.rc.controlQueue = [⟨3, .editReply 7 .clamped (-250) 42⟩])) = true
      ∧ after (.editReply 1001 3 1 .posted 40 42) w (fun s => decide (lastReply s 2 = some (0, .posted))) = true
      ∧ after (.nudgeTimeout 1001 1) w (fun s => decide (lastReply s 2 = some (0, .timeout) ∧ s.vu.nudges = [])) = true := by
  unfold State.takes; decide

/-- Nudges where frames wait already: one of two places left in the control queue, a full control list, a hub that is not known,
another ring state, an EDIT of slot 16 and one that finds four replies. -/
theorem witness_Nudges_waiting :
    let s := withFive follower sectionFive
    let f : OwnFrame := ⟨3, .unsubscribe 1 2⟩
    let busy (n : Nat) := (s.onRc (fun r => { r with controlQueue := List.replicate 7 f })).onVu (fun u =>
      { u with controlList := List.replicate n f })
    let full := s.onSe (fun e => { e with replies := List.replicate 4 ⟨3, .editReply 1 .full 0 0⟩ })
    let nudge (h : Nat) : Instr := .trimNudge 1001 2 0 (some h) (some 5) (some 40)
    after (nudge 3) (busy 1) (fun s => decide (s.rc.controlQueue = List.replicate 8 f ∧ s.vu.controlList = [⟨3, .edit 1 5 40⟩])) = true
      ∧ after (nudge 3) (busy 16) (fun s => decide (lastReply s 2 = some (0, .busy))) = true
      ∧ after (nudge 4) s (fun s => decide (lastReply s 2 = some (0, .badArgument))) = true
      ∧ after (nudge 3) (s.onRc (fun r => { r with ringState := .lost })) (fun s =>
        decide (lastReply s 2 = some (0, .notRunning))) = true
      ∧ after (.edit 1001 3 7 5 1) full (fun s => decide (s.se = full.se)) = true
      ∧ after (.edit 1001 3 7 16 1) s (fun s => decide (s.rc.controlQueue.map (fun f => f.dst) = [3])) = true := by decide

/-- PutSpellsItsRow: COUPLE of slot 5 with tag 1, its kind, header and payload. -/
theorem witness_PutSpellsItsRow :
    ∃ kind : Byte, ∃ l, ([0x01#8, 0#8, 1#8, 5#8].length ≤ 1040)
      ∧ (0x40#8).toNat % 8 * 256 + (4#8).toNat = [0x01#8, 0#8, 1#8, 5#8].length
      ∧ checkForm kind.toNat [0x01#8, 0#8, 1#8, 5#8] = some l
      ∧ requestOf 1001 3 (headerTag 0x40) kind.toNat l = some (.couple 1001 3 1 (some 5)) :=
  ⟨0x12, [⟨1, [5]⟩], by decide⟩

/-- PutsThatSpellNone: two bytes, a payload length of 1,041, a payload cut short, four outstanding, a tag in use, an unknown
kind, another role, and a payload that fails the form check. -/
theorem witness_PutsThatSpellNone :
    let put (b : List Byte) (s : State) (p : Port → Bool) := after (.put 1001 3 b) s (fun s => p (s.port 3))
    let busy (n : BitVec 4) := follower.onPort 3 (fun q => { q with outstanding := n })
    ([1#8, 2#8].length < 3 ∧ 1040 < (0x04#8).toNat % 8 * 256 + (0x11#8).toNat)
      ∧ put [1, 2] follower (fun q => decide (q.frameErrors = 1)) = true
      ∧ put [1, 0, 3, 1] follower (fun q => decide (q.frameErrors = 1)) = true
      ∧ put [1, 0, 0] (busy 15) (fun q => decide (q.overruns = 1)) = true
      ∧ put [1, 0, 0] (busy 1) (fun q => decide (q.frameErrors = 1)) = true
      ∧ put [0xFE, 0, 0] follower (fun q => decide (q.responses = [⟨0, .unknownKind, []⟩])) = true
      ∧ put [0x12, 0, 1, 9] follower (fun q => decide (q.responses = [⟨0, .badArgument, []⟩])) = true := by decide

/-- GetsAndVoids: a port with no GET in progress, a GET at its last byte, two beyond it and one byte short, a void byte. -/
theorem witness_GetsAndVoids :
    let f : GetFixed := ⟨some ⟨0, .done, []⟩, 0, [12, 0, 0, 0, 0, 0]⟩
    let s := follower.onPort 3 (fun q => { q with outstanding := 1, responses := [⟨0, .done, []⟩], getting := some f })
    (follower.port 3).getting = none ∧ (s.port 3).getting = some f ∧ (0x52#8) ∉ [0x50#8, 0x51#8, 0xA0#8, 0xA1#8]
      ∧ after (.getCompletion 1001 3 6) s (fun s => decide ((s.port 3).outstanding = 0 ∧ (s.port 3).responses = [])) = true
      ∧ after (.getCompletion 1001 3 8) s (fun s =>
        decide ((s.port 3).outstanding = 0 ∧ (s.port 3).shifted = [12, 0, 0, 0, 0, 0, 0, 0])) = true
      ∧ after (.getCompletion 1001 3 5) s (fun s => decide ((s.port 3).frameErrors = 1 ∧ (s.port 3).outstanding = 1)) = true
      ∧ after (.voidTransaction 1001 3 0x52) s (fun s => decide ((s.port 3).frameErrors = 1)) = true := by decide

/-- GetsAndVoids, ATN: asserted by a response and by an enabled notice, fallen at the GET that returns both. -/
theorem witness_GetsAndVoids_atn :
    let s := follower.onPort 3 (fun q =>
      { q with outstanding := 1, responses := [⟨0, .done, []⟩], pending := 8
               getting := some ⟨some ⟨0, .done, []⟩, 8, [12, 0, 0, 0, 0, 8]⟩ })
    let hidden := follower.onPort 3 (fun q => { q with pending := 8, enabled := 7 })
    ((s.port 3).atn = true ∧ (hidden.port 3).atn = false ∧ (follower.port 3).atn = false)
      ∧ after (.getCompletion 1001 3 6) s (fun s => decide ((s.port 3).atn = false)) = true
      ∧ after (.noticeEnable 1001 3 0 (some 8)) hidden (fun s => decide ((s.port 3).atn = true)) = true := by decide

/-- NoticeRequests: a routable kind and one that is not, a port beyond 3, a kind named twice, a set of eleven kinds and a
twelfth. -/
theorem witness_NoticeRequests :
    follower.takes 3 0 [.desk] ∧ follower.takes 3 0 [.drive, .vision, .panel, .desk]
      ∧ after (.noticeRoute 1001 3 0 [(8, 16)]) follower (fun s => decide (lastReply s 3 = some (0, .badArgument))) = true
      ∧ after (.noticeRoute 1001 3 0 [(8, 1), (8, 2)]) follower (fun s => decide (lastReply s 3 = some (0, .badArgument))) = true
      ∧ after (.noticeRoute 1001 3 0 [(8, 15), (1, 0)]) follower (fun s =>
        decide (s.cp.routes.imageDropped = 15 ∧ s.cp.routes.trigger = 0)) = true
      ∧ after (.noticeRoute 1001 3 0 [(2, 15)]) follower (fun s => decide (lastReply s 3 = some (0, .badArgument))) = true
      ∧ after (.noticeEnable 1001 3 0 (some 2047)) follower (fun s => decide ((s.port 3).enabled = 2047)) = true
      ∧ after (.noticeEnable 1001 3 0 (some 2048)) follower (fun s => decide (lastReply s 3 = some (0, .badArgument))) = true := by
  unfold State.takes; decide

/-- ReadsChangeNothing: the reads of a hub with a record and a strip, to its last byte and beyond it. -/
theorem witness_ReadsChangeNothing :
    let r : TripRecord := ⟨7, ⟨.tripIn, none⟩, .quick, .quick, 6, 900, 0, 0, 0, [], [], [], false⟩
    let s := (withStrip follower stripTwelve).onTu (fun t => { t with records := [r] })
    s.takes 2 0 [.drive, .vision, .panel, .desk] ∧ s.takes 2 0 [.desk, .panel]
      ∧ s.tu.records.find? (fun y => y.number == r.number) = some r ∧ r.capturing = false
      ∧ s.is.strips.find? (fun y => y.id == 12) = some stripTwelve ∧ stripTwelve.receiving = false
      ∧ 4999 + 1 ≤ stripTwelve.fill
      ∧ after (.stripRead 1001 2 0 (some 12) (some 4999) (some 1)) s (fun s =>
        decide (lastReply s 2 = some (0, .done))) = true
      ∧ after (.stripRead 1001 2 0 (some 12) (some 4999) (some 2)) s (fun s =>
        decide (lastReply s 2 = some (0, .badArgument))) = true
      ∧ after (.registerRead 1001 2 0 none (some 7)) s (fun s =>
        decide ((s.port 2).responses.map (fun r => r.payload)
          = [[1, 0, 1, 0, 2, 0, 2, 0, 0, 3, 0, 2, 0, 0, 5, 0, 1, 0, 7, 0, 2, 0, 0]])) = true := by unfold State.takes; decide

/-! ### The queue -/

/-- A step runs the command at the front and leaves the rest; with none it is one tick. -/
theorem test_step_takes_the_front :
    (match step (follower.withQueue [.setCableComp 1001 3 0 (some 7), .inchStop 1002 3 1]) with
      | .next s => decide (s.rc.cableComp = 7 ∧ s.pending = [.inchStop 1002 3 1])
      | .fault _ | .refused _ => false) = true
    ∧ (match step follower with
      | .next s => decide (s.hubTime = 1001 ∧ s.cp = follower.cp)
      | .fault _ | .refused _ => false) = true := by decide

end Sys2Proof.Tests
end

section
/-! SUPPORT. Rounding of a quotient and the search of the interpolation service through the history. -/

namespace Sys2Proof.Machine

/-! ### Rounding -/

/-- With a divisor that is not negative, the rounded quotient has the sign of the dividend. -/
theorem roundDiv_natCast (a : Int) (m : Nat) :
    roundDiv a m = if a < 0 then -(((2 * a.natAbs + m) / (2 * m) : Nat) : Int)
      else ((2 * a.natAbs + m) / (2 * m) : Nat) := by
  by_cases ha : a < 0 <;> simp [roundDiv, ha]

/-- The rounded quotient of two magnitudes is within half a divisor of the exact one, and at a half it is the greater. -/
theorem roundQuot_nearest (n m : Nat) (hm : 0 < m) :
    let x := (2 * n + m) / (2 * m) * m
    2 * ((x : Int) - n).natAbs ≤ m ∧ (2 * ((x : Int) - n).natAbs = m → n ≤ x) := by
  intro x
  have low : 2 * x ≤ 2 * n + m := by
    calc 2 * x = (2 * n + m) / (2 * m) * (2 * m) := by ring
      _ ≤ 2 * n + m := Nat.div_mul_le_self _ _
  have high : 2 * n + m < 2 * x + 2 * m := by
    calc 2 * n + m < (2 * n + m) / (2 * m) * (2 * m) + 2 * m := Nat.lt_div_mul_add (by omega)
      _ = 2 * x + 2 * m := by ring
  omega

/-- A rounded quotient is nearest to the exact one, and a half goes away from zero (R42). -/
theorem roundDiv_nearest (a b : Int) (hb : 0 < b) :
    2 * (roundDiv a b * b - a).natAbs ≤ b.natAbs
      ∧ (2 * (roundDiv a b * b - a).natAbs = b.natAbs → a.natAbs ≤ (roundDiv a b).natAbs * b.natAbs) := by
  obtain ⟨m, rfl⟩ := Int.eq_ofNat_of_zero_le hb.le
  have hm : 0 < m := by omega
  obtain ⟨near, tie⟩ := roundQuot_nearest a.natAbs m hm
  rw [roundDiv_natCast a m]
  generalize (2 * a.natAbs + m) / (2 * m) = q at near tie ⊢
  split
  · rw [Int.neg_mul, Int.natAbs_neg, Int.natAbs_natCast, Int.natAbs_natCast]; omega
  · rw [Int.natAbs_natCast, Int.natAbs_natCast]; omega

/-! ### The search through the history -/

variable {t : HubTime}

/-- One entry of the search (R42): where it is not later than the time asked for, the entry after it decides. -/
theorem interpolateFrom_cons (e : HistEntry) (older : List HistEntry) (next : Option HistEntry) :
    interpolateFrom t next (e :: older) =
      if sdiff e.p t ≤ 0 then next.elim .pending (fun n => .angle (interpolateBetween e n t))
      else interpolateFrom t (some e) older := by cases next <;> rfl

/-- The search passes over entries that are later than the time asked for, and keeps the last of them as the next entry. -/
theorem interpolateFrom_later (l older : List HistEntry) (next : Option HistEntry) (h : ∀ x ∈ l, 0 < sdiff x.p t) :
    interpolateFrom t next (l ++ older) = interpolateFrom t (l.getLast?.or next) older := by
  induction l generalizing next with
  | nil => rfl
  | cons x l ih =>
    have hx : ¬ sdiff x.p t ≤ 0 := not_le.mpr (h x (by simp))
    rw [List.cons_append, interpolateFrom_cons, if_neg hx, ih _ (fun y hy => h y (by simp [hy])), List.getLast?_cons]
    cases l.getLast? <;> rfl

variable {k : Tracker}

theorem angleAt_unknown (h : ∀ e ∈ k.history, 0 < sdiff e.p t) : k.angleAt t = .unknown := by
  have hs := interpolateFrom_later k.history.reverse [] none (fun x hx => h x (List.mem_reverse.mp hx))
  rw [List.append_nil] at hs
  exact hs

theorem angleAt_pending {e : HistEntry} (hl : k.history.getLast? = some e) (h : sdiff e.p t ≤ 0) :
    k.angleAt t = .pending := by
  obtain ⟨older, hk⟩ := List.getLast?_eq_some_iff.mp hl
  rw [Tracker.angleAt, hk, List.reverse_concat, interpolateFrom_cons, if_pos h]
  rfl

theorem angleAt_between {older newer : List HistEntry} {e next : HistEntry} (hk : k.history = older ++ e :: next :: newer)
    (h : sdiff e.p t ≤ 0) (hn : ∀ x ∈ next :: newer, 0 < sdiff x.p t) :
    k.angleAt t = .angle (interpolateBetween e next t) := by
  have hr : k.history.reverse = (next :: newer).reverse ++ e :: older.reverse := by simp [hk]
  rw [Tracker.angleAt, hr, interpolateFrom_later _ _ _ (fun x hx => hn x (List.mem_reverse.mp hx)),
    interpolateFrom_cons, if_pos h, List.getLast?_reverse]
  rfl

end Sys2Proof.Machine

open Sys2Proof.Machine

/-- Settles O22, by following the search from the newest entry, and by the distance of a rounded quotient. -/
theorem interpolation : Obligations.Interpolation := by
  intro k t
  refine ⟨angleAt_unknown, fun e => angleAt_pending, fun older newer e next hk he hn => ?_⟩
  exact ⟨angleAt_between hk he hn, roundDiv_nearest⟩

end

section
/-! SUPPORT. What a request to the generator does at the master: its new settings and its answer. -/

namespace Sys2Proof.Machine

/-! ### A request to the generator at its port -/

/-- The hub when a request has been taken at a port and its block begins to act. -/
def State.handed (s : State) (t : HubTime) (p : PortNo) (g : Tag) : State := (s.advance t).onPort p (fun q => q.taken g)

variable {s : State} {t : HubTime} {p : PortNo} {g : Tag}

theorem onGen_id (s : State) : s.onGen id = s := rfl

/-- A permitted request whose block changes the generator alone and answers with no data: the generator is changed, the
answer is ready, and nothing else has changed. -/
theorem generatorRequest_answered {roles : List Role} {block : State → State × Reply} {f : Generator → Generator}
    {st : Status} (h : s.takes p g roles)
    (hb : block (s.handed t p g) = ((s.handed t p g).onGen f, status st)) :
    ∃ s', finishRequest s t p g roles block = .next s' ∧ s.frame s' t [.su, .cp]
      ∧ s'.su = { s.su with gen := f s.su.gen } ∧ s'.cp = s.cp.answered p g st [] := by
  have ht : (s.advance t).takes p g roles := h
  have hr : (s.advance t).request p g roles block = State.answer ((s.handed t p g).onGen f, status st) p g := by
    rw [request_taken _ _ _ ht, ← hb]; rfl
  refine ⟨markDirty s (State.answer ((s.handed t p g).onGen f, status st) p g), ?_, frame_finish ?_, rfl, ?_⟩
  · rw [finishRequest, hr]; rfl
  · exact (((keeps_onPort (s.advance t) p _).mono (by decide)).trans ((keeps_onSu _ _).mono (by decide))).trans
      ((keeps_respond _ p g st []).mono (by decide))
  · exact answered_cp (s.advance t) p g rfl

/-- The answer to a request that clamps: DONE exactly when the values were in range. -/
theorem doneOrClamped_decide {changed inRange : Prop} [Decidable changed] [Decidable inRange] (h : ¬ changed ↔ inRange) :
    doneOrClamped (decide changed) = status (if inRange then .done else .clamped) := by
  by_cases hc : changed
  · simp [doneOrClamped, hc, mt h.mpr (not_not_intro hc)]
  · simp [doneOrClamped, hc, h.mp hc]

/-! ### The three settings at the master (R33 to R35) -/

theorem reqSetSpeed_inching (hm : s.isMaster = true) (hi : s.su.gen.inching = true) (v : Int) :
    reqSetSpeed (some v) s = (s.onGen id, status .busy) := by
  simp [reqSetSpeed, State.atMaster, hm, hi, onGen_id]

theorem reqSetSpeed_clamps (hm : s.isMaster = true) (hi : s.su.gen.inching = false) (v : Int) :
    reqSetSpeed (some v) s =
      (s.onGen (fun g => { g with vt := if v < 0 then 0 else min v s.su.gen.vmax }),
        status (if 0 ≤ v ∧ v ≤ s.su.gen.vmax then .done else .clamped)) := by
  have hc : clampInt 0 s.su.gen.vmax v = if v < 0 then 0 else min v s.su.gen.vmax := by unfold clampInt; omega
  simp only [reqSetSpeed, State.atMaster, hm, hi, if_true, ← hc]
  refine congrArg (Prod.mk _) (doneOrClamped_decide ?_)
  rw [not_not, clampInt_eq_self _ _ _ (by omega)]

theorem reqSetRamp_clamps (hm : s.isMaster = true) (a dn de : Nat) :
    reqSetRamp (some a) (some dn) (some de) s =
      (s.onGen (fun g => { g with
          a := max 1 (min a 1048575), dn := max 1 (min dn 1048575), de := max 1 (min de 1048575) }),
        status (if (1 ≤ a ∧ a ≤ 1048575) ∧ (1 ≤ dn ∧ dn ≤ 1048575) ∧ (1 ≤ de ∧ de ≤ 1048575) then .done
          else .clamped)) := by
  have hr : ∀ v, clampNat 1 1048575 v = max 1 (min v 1048575) := fun v => clampNat_eq _ _ v (by decide)
  have hk : ∀ v, max 1 (min v 1048575) = v ↔ 1 ≤ v ∧ v ≤ 1048575 := by omega
  simp only [reqSetRamp, State.atMaster, hm, if_true, hr]
  refine congrArg (Prod.mk _) (doneOrClamped_decide ?_)
  simp only [not_or, not_not, hk]

theorem reqSetVmax_moving (hm : s.isMaster = true) (hr : s.genAtRest = false) (m : Nat) :
    reqSetVmax (some m) s = (s.onGen id, status .notAtRest) := by
  simp [reqSetVmax, State.atMaster, hm, hr, onGen_id]

/-- Clamping to a magnitude keeps the sign (R35). -/
theorem clampInt_magnitude (m : Nat) (v : Int) :
    clampInt (-m) m v = if v.natAbs ≤ m then v else if v < 0 then -m else m := by unfold clampInt; omega

theorem reqSetVmax_atRest (hm : s.isMaster = true) (hr : s.genAtRest = true) (m : Nat) :
    reqSetVmax (some m) s =
      (s.onGen (fun g => { g with
          vmax := min m 2147479552
          vt := min s.su.gen.vt (min m 2147479552 : Nat)
          vi := if s.su.gen.vi.natAbs ≤ min m 2147479552 then s.su.gen.vi
            else if s.su.gen.vi < 0 then -(min m 2147479552 : Nat) else (min m 2147479552 : Nat) }),
        status (if m ≤ 2147479552 ∧ s.su.gen.vt ≤ (min m 2147479552 : Nat) ∧ s.su.gen.vi.natAbs ≤ min m 2147479552
          then .done else .clamped)) := by
  have hc : clampNat 0 2147479552 m = min m 2147479552 := by rw [clampNat_eq _ _ _ (by decide)]; omega
  have hv : ∀ (n : Nat) (v : Int), (if (n : Int) < v then (n : Int) else v) = min v n := by omega
  simp only [reqSetVmax, State.atMaster, hm, hr, if_true, hc, hv, clampInt_magnitude]
  rw [if_neg (by decide)]
  refine congrArg (Prod.mk _) (doneOrClamped_decide ?_)
  omega

end Sys2Proof.Machine

open Sys2Proof.Machine

/-- Settles O18: each of the three requests is one change of the generator with one answer, refusals being the change that
keeps it. -/
theorem generatorSettings : Obligations.GeneratorSettings := by
  intro s t p g v a dn de m h hm
  have hm : (s.handed t p g).isMaster = true := hm
  have ramp := generatorRequest_answered h (reqSetRamp_clamps hm a dn de)
  refine ⟨?speed, ramp, ?vmax⟩
  case speed =>
    cases hi : s.su.gen.inching
    · exact generatorRequest_answered h (reqSetSpeed_clamps hm hi v)
    · exact generatorRequest_answered h (reqSetSpeed_inching hm hi v)
  case vmax =>
    cases hr : s.genAtRest
    · exact generatorRequest_answered h (reqSetVmax_moving hm hr m)
    · exact generatorRequest_answered h (reqSetVmax_atRest hm hr m)

end

section
/-! SUPPORT. What a permitted request does whose block answers at once and leaves the ports alone. -/

namespace Sys2Proof.Machine

/-- After a request answered at once, every block but the View Unit and the Client Ports is as its block `a` left it, and the
View Unit but for marks. -/
structure Answered (s a s' : State) (p : PortNo) (g : Tag) (st : Status) (bytes : List Byte) : Prop where
  rc : s'.rc = a.rc
  su : s'.su = a.su
  se : s'.se = a.se
  ru : s'.ru = a.ru
  tu : s'.tu = a.tu
  is : s'.is = a.is
  im : s'.im = a.im
  ms : s'.ms = a.ms
  vu : a.vu.kept s'.vu
  cp : s'.cp = s.cp.answered p g st bytes

variable {s a : State} {t : HubTime} {p : PortNo} {g : Tag} {roles : List Role} {block : State → State × Reply}
  {st : Status} {bytes : List Byte} {l l' : List Blk}

theorem finishRequest_taken (h : s.takes p g roles) :
    finishRequest s t p g roles block = .next (markDirty s (State.answer (block (s.handed t p g)) p g)) := by
  have ht : (s.advance t).takes p g roles := h
  rw [finishRequest, request_taken _ _ _ ht]
  rfl

/-- A permitted request whose block leaves the ports alone and answers at once. -/
theorem request_answered (h : s.takes p g roles) (hb : block (s.handed t p g) = (a, some (st, bytes)))
    (hk : Keeps l (s.handed t p g) a) (hc : Blk.cp ∉ l) (hl : ∀ b ∈ Blk.cp :: l, b ∈ l') :
    ∃ s', finishRequest s t p g roles block = .next s' ∧ s.frame s' t l' ∧ Answered s a s' p g st bytes := by
  refine ⟨_, finishRequest_taken h, ?_, ?_⟩
  · rw [hb]
    have hp : Keeps l' (s.advance t) (s.handed t p g) :=
      (keeps_onPort _ _ _).mono (fun b hb => hl b (by simp_all))
    have hr : Keeps l' a (State.answer (a, some (st, bytes)) p g) :=
      (keeps_respond a p g st bytes).mono (fun b hb => hl b (by simp_all))
    exact frame_finish ((hp.trans (hk.mono fun b hb => hl b (by simp [hb]))).trans hr)
  · rw [hb]
    exact ⟨rfl, rfl, rfl, rfl, rfl, rfl, rfl, rfl, kept_markDirty s _, answered_cp s p g (hk.2.2.2 .cp hc)⟩

end Sys2Proof.Machine
end

section
namespace Sys2Proof.Machine
/-! SUPPORT. The settings of the Ring Controller, the inch requests, and the generator requests at a follower. -/

variable {s : State} {t : HubTime} {p : PortNo} {g : Tag}

theorem clamp_below (hi v : Nat) : clampNat 0 hi v = min v hi := by
  rw [clampNat_eq _ _ _ (Nat.zero_le _), Nat.max_eq_right (Nat.zero_le _)]

/-- The answer to a value clamped from above. -/
theorem clamped_below (hi v : Nat) :
    (if clampNat 0 hi v ≠ v then Status.clamped else .done) = if v ≤ hi then .done else .clamped := by
  rw [ite_not]
  refine if_congr ?_ rfl rfl
  rw [clamp_below, min_eq_left_iff]

theorem reqSetCableComp_clamps (v : Nat) (s : State) :
    reqSetCableComp (some v) s =
      (s.onRc (fun r => { r with cableComp := min v 4095 }), status (if v ≤ 4095 then .done else .clamped)) := by
  rw [← clamp_below, ← clamped_below]
  rfl

theorem reqSetPublicationOffset_master (hm : s.isMaster = true) (v : Nat) :
    reqSetPublicationOffset (some v) s =
      (s.onRc (fun r => { r with dpub := some (min v s.periodTicks) }),
        status (if v ≤ s.periodTicks then .done else .clamped)) := by
  refine (if_neg (by rw [hm]; exact Bool.noConfusion)).trans ?_
  rw [← clamp_below, ← clamped_below]

/-- At a follower a request to the generator is refused, whatever it asks. -/
theorem atMaster_follower (hm : s.isMaster = false) (act : State × Reply) : s.atMaster act = (s, status .notMaster) := by
  simp [State.atMaster, hm]

theorem atMaster_master (hm : s.isMaster = true) (act : State × Reply) : s.atMaster act = act := by
  simp [State.atMaster, hm]

/-- A request whose block refuses changes nothing but the ports. -/
theorem request_refused {roles : List Role} {block : State → State × Reply} {st : Status} {l : List Blk}
    (h : s.takes p g roles) (hb : block (s.handed t p g) = (s.handed t p g, status st)) (hl : Blk.cp ∈ l) :
    ∃ s', finishRequest s t p g roles block = .next s' ∧ s.frame s' t l ∧ Answered s (s.handed t p g) s' p g st [] :=
  request_answered (l := []) h hb (.refl _ _) (by simp) (by simpa using hl)

/-- What an INCH START at the master does to the generator, check by check (R36). -/
noncomputable def State.inchGen (s : State) (v : Int) : Generator → Generator :=
  if s.rc.ringState ≠ .running then id
  else if s.tu.state = .lockout then id
  else if s.effectiveClass.stops then id
  else if s.genAtRest = false then id
  else fun g => { g with
    vi := if v < -(s.su.gen.vmax : Int) then -(s.su.gen.vmax : Int) else min v s.su.gen.vmax, inching := true }

/-- How an INCH START at the master is answered, check by check (R36). -/
noncomputable def State.inchAnswer (s : State) (v : Int) : Status :=
  if s.rc.ringState ≠ .running then .notRunning
  else if s.tu.state = .lockout then .lockedOut
  else if s.effectiveClass.stops then .badState
  else if s.genAtRest = false then .notAtRest
  else if v.natAbs ≤ s.su.gen.vmax then .done else .clamped

/-- A generator request that is refused under a condition leaves the generator. -/
theorem onGen_refusing {c : Prop} [Decidable c] (f : Generator → Generator) (st st' : Status) :
    (if c then (s, status st) else (s.onGen f, status st'))
      = (s.onGen (if c then id else f), status (if c then st else st')) := by
  split
  · rfl
  · rfl

theorem reqInchStart_master (hm : s.isMaster = true) (v : Int) :
    reqInchStart (some v) s = (s.onGen (s.inchGen v), status (s.inchAnswer v)) := by
  have hc : clampInt (-s.su.gen.vmax) s.su.gen.vmax v
      = if v < -(s.su.gen.vmax : Int) then -(s.su.gen.vmax : Int) else min v s.su.gen.vmax := by
    refine if_congr Iff.rfl rfl ?_
    split
    next h => exact (min_eq_right (Int.le_of_lt h)).symm
    next h => exact (min_eq_left (Int.not_lt.1 h)).symm
  have range : -(s.su.gen.vmax : Int) ≤ v ∧ v ≤ s.su.gen.vmax ↔ v.natAbs ≤ s.su.gen.vmax := by omega
  have hd : doneOrClamped (decide (clampInt (-s.su.gen.vmax) s.su.gen.vmax v ≠ v))
      = status (if v.natAbs ≤ s.su.gen.vmax then .done else .clamped) :=
    doneOrClamped_decide (by rw [not_not, clampInt_eq_self _ _ _ (by omega), range])
  rw [hc] at hd
  simp only [reqInchStart, atMaster_master hm, hc, hd, onGen_refusing]
  rfl

end Sys2Proof.Machine

open Sys2Proof Sys2Proof.Machine

/-- Settles O1, by the definition of a step. -/
theorem stepRunsTheFrontCommand : Obligations.StepRunsTheFrontCommand := by
  intro c q s
  refine ⟨rfl, ?_⟩
  show Host.Outcome.next ((s.withQueue []).advance (s.hubTime + 1)) = _
  have h1 : (s.hubTime + 1 - s.hubTime).toNat = 1 := by
    rw [BitVec.add_comm, BitVec.add_sub_cancel]; rfl
  show Host.Outcome.next { s.withQueue [] with
    hubTime := s.hubTime + 1, rc := { s.rc with outLeft := s.rc.outLeft - (s.hubTime + 1 - s.hubTime).toNat } } = _
  rw [h1]

/-- Settles O17: each setting is one change of the Ring Controller with one answer. -/
theorem ringSettings : Obligations.RingSettings := by
  intro s t p g v h
  constructor
  · obtain ⟨s', he, hf, ha⟩ := request_answered h (reqSetCableComp_clamps v (s.handed t p g))
      (keeps_onRc _ _) (by decide) (l' := [.rc, .cp]) (by decide)
    exact ⟨s', he, hf, ha.rc, ha.cp⟩
  · cases hm : s.isMaster
    · have hb : reqSetPublicationOffset (some v) (s.handed t p g) = (s.handed t p g, status .notMaster) :=
        if_pos hm
      obtain ⟨s', he, hf, ha⟩ := request_refused (l := [.rc, .cp]) h hb (by decide)
      exact ⟨s', he, hf, ha.rc, ha.cp⟩
    · obtain ⟨s', he, hf, ha⟩ := request_answered h (reqSetPublicationOffset_master (s := s.handed t p g) hm v)
        (keeps_onRc _ _) (by decide) (l' := [.rc, .cp]) (by decide)
      exact ⟨s', he, hf, ha.rc, ha.cp⟩

/-- Settles O19: the checks of INCH START in their order, the one effect of INCH STOP, and the refusal at a follower. -/
theorem inchRequests : Obligations.InchRequests := by
  intro s t p g v x a dn de m h
  refine ⟨fun hm => ?start, fun hm => ?stop, fun hm c hc => ?follower⟩
  case start =>
    obtain ⟨s', he, hf, hs, hcp⟩ := generatorRequest_answered h (reqInchStart_master (s := s.handed t p g) hm v)
    have hs : s'.su = { s.su with gen := s.inchGen v s.su.gen } := hs
    have hcp : s'.cp = s.cp.answered p g (s.inchAnswer v) [] := hcp
    refine ⟨s', he, hf, ?_⟩
    unfold State.inchGen at hs
    unfold State.inchAnswer at hcp
    by_cases h1 : s.rc.ringState ≠ .running
    · rw [if_pos h1] at hs hcp ⊢; exact ⟨hs, hcp⟩
    by_cases h2 : s.tu.state = .lockout
    · rw [if_neg h1, if_pos h2] at hs hcp ⊢; exact ⟨hs, hcp⟩
    by_cases h3 : s.effectiveClass.stops = true
    · rw [if_neg h1, if_neg h2, if_pos h3] at hs hcp ⊢; exact ⟨hs, hcp⟩
    by_cases h4 : s.genAtRest = false
    · rw [if_neg h1, if_neg h2, if_neg h3, if_pos h4] at hs hcp ⊢; exact ⟨hs, hcp⟩
    · rw [if_neg h1, if_neg h2, if_neg h3, if_neg h4] at hs hcp ⊢; exact ⟨hs, hcp⟩
  case stop => exact generatorRequest_answered (block := reqInchStop) h (atMaster_master (s := s.handed t p g) hm _)
  case follower =>
    have refuse : ∀ block : State → State × Reply, (∀ b : State, ∃ act, block b = b.atMaster act) →
        ∃ s', finishRequest s t p g [.desk] block = .next s' ∧ s.frame s' t [.cp]
          ∧ s'.cp = s.cp.answered p g .notMaster [] := by
      intro block hb
      obtain ⟨act, hb⟩ := hb (s.handed t p g)
      obtain ⟨s', he, hf, ha⟩ := request_refused (l := [.cp]) h
        (hb.trans (atMaster_follower (s := s.handed t p g) hm act)) (by decide)
      exact ⟨s', he, hf, ha.cp⟩
    simp only [List.mem_cons, List.not_mem_nil, or_false] at hc
    rcases hc with rfl | rfl | rfl | rfl | rfl
    · exact refuse (reqSetSpeed x) (fun b => ⟨_, rfl⟩)
    · exact refuse (reqSetRamp a dn de) (fun b => ⟨_, rfl⟩)
    · exact refuse (reqSetVmax m) (fun b => ⟨_, rfl⟩)
    · exact refuse (reqInchStart x) (fun b => ⟨_, rfl⟩)
    · exact refuse reqInchStop (fun b => ⟨_, rfl⟩)

end

section
namespace Sys2Proof.Instr

/-- The port and the tag of a request beside those of its row: a block that may leave it waiting keeps them, and NOTICE ENABLE
changes its own port. -/
noncomputable def asker : Sys2Proof.Instr → Option (PortNo × Tag)
  | .fence _ q h | .couple _ q h _ | .decouple _ q h _ | .setPosition _ q h _ _ | .trimNudge _ q h _ _ _
  | .noticeEnable _ q h _ => some (q, h)
  | _ => none

/-- The port and the tag that a request names beside those of its row are its own. -/
def waitsAs (p : PortNo) (g : Tag) (c : Sys2Proof.Instr) : Prop := c.asker.getD (p, g) = (p, g)

end Sys2Proof.Instr

namespace Sys2Proof.Machine
/-! SUPPORT. A PUT: the row that its bytes spell, and what becomes of one that spells none. -/

variable {s : State} {t : HubTime} {p : PortNo} {g : Tag}

/-- A row of a request kind: it has the roles that may issue the kind and a block, and it is of the port and the tag. -/
def SpelledRow (t : HubTime) (p : PortNo) (g : Tag) (kind : Nat) (c : Instr) : Prop :=
  ∃ roles block, requestRoles kind = some roles ∧ blockOf c = some block ∧ c.waitsAs p g
    ∧ ∀ s, exec c s = finishRequest s t p g roles block

/-- Every row that a kind spells is a row of it. -/
def Spells (t : HubTime) (p : PortNo) (g : Tag) (l : List Item) (kind : Nat) : Prop :=
  ∀ c, requestOf t p g kind l = some c → SpelledRow t p g kind c

theorem spells_some {kind : Nat} {l : List Item} {c : Instr} (h : requestOf t p g kind l = some c)
    (hc : SpelledRow t p g kind c) : Spells t p g l kind :=
  fun _ h' => Option.some.inj (h.symm.trans h') ▸ hc

theorem spells_none {kind : Nat} {l : List Item} (h : requestOf t p g kind l = none) : Spells t p g l kind :=
  fun _ h' => nomatch h.symm.trans h'

theorem spells_ite {kind : Nat} {l : List Item} {a : Prop} [Decidable a] {x y : Option Instr}
    (h : requestOf t p g kind l = if a then x else y)
    (hx : requestOf t p g kind l = x → Spells t p g l kind) (hy : requestOf t p g kind l = y → Spells t p g l kind) :
    Spells t p g l kind := by
  by_cases ha : a
  · exact hx (h.trans (if_pos ha))
  · exact hy (h.trans (if_neg ha))

/-- No kind follows the last of the catalogue. -/
theorem requestOf_beyond {n : Nat} {l : List Item} : requestOf t p g (n + 43) l = none := rfl

/-- What holds of all below a number and of the number holds of all below the next. -/
theorem below_succ {P : Nat → Prop} {n : Nat} (h : ∀ k < n, P k) (hn : P n) : ∀ k < n + 1, P k :=
  fun k hk => (Nat.lt_succ_iff_lt_or_eq.mp hk).elim (h k) (fun e => e ▸ hn)

theorem spells_registerSet {l : List Item} : Spells t p g l 0x15 :=
  spells_ite (Eq.refl _) (fun h => spells_some h ⟨_, _, rfl, rfl, rfl, fun _ => rfl⟩)
    (fun h => spells_ite h (fun h => spells_some h ⟨_, _, rfl, rfl, rfl, fun _ => rfl⟩) spells_none)

theorem spells_first {l : List Item} : ∀ kind < 0x15, Spells t p g l kind := by
  iterate 20 refine below_succ ?_ ?_
  · exact below_succ (fun _ h => absurd h (Nat.not_lt_zero _)) (spells_none rfl)
  all_goals exact spells_some rfl ⟨_, _, rfl, rfl, rfl, fun _ => rfl⟩

theorem spells_listed {l : List Item} : ∀ kind < 0x2B, Spells t p g l kind := by
  iterate 21 refine below_succ ?_ ?_
  · exact below_succ spells_first spells_registerSet
  all_goals exact spells_some rfl ⟨_, _, rfl, rfl, rfl, fun _ => rfl⟩

/-- A request kind that spells a row gives the row's block and the roles that may issue it, and the row is of that port and tag. -/
theorem requestOf_row {kind : Nat} {l : List Item} {c : Instr} (h : requestOf t p g kind l = some c) :
    ∃ roles block, requestRoles kind = some roles ∧ blockOf c = some block ∧ c.waitsAs p g
      ∧ ∀ s, exec c s = finishRequest s t p g roles block := by
  rcases Nat.lt_or_ge kind 0x2B with hk | hk
  · exact spells_listed kind hk c h
  · obtain ⟨n, rfl⟩ := Nat.exists_eq_add_of_le' hk
    exact nomatch requestOf_beyond.symm.trans h

/-- The rows that a request frame spells name its port and its tag. -/
theorem requestOf_waitsAs {kind : Nat} {l : List Item} {c : Instr} (h : requestOf t p g kind l = some c) : c.waitsAs p g :=
  have ⟨_, _, _, _, hw, _⟩ := requestOf_row h
  hw

/-- A taken frame that spells a row is handled as the row's request. -/
theorem handFrame_row {kind : Nat} {payload : List Byte} {l : List Item} {c : Instr} {roles : List Role}
    {block : State → State × Reply} (hf : checkForm kind payload = some l)
    (hc : requestOf s.hubTime p g kind l = some c) (hr : requestRoles kind = some roles) (hb : blockOf c = some block) :
    s.handFrame p g kind payload = s.handRequest p g roles block := by
  unfold State.handFrame State.handRequest
  rw [hr, hf, Option.bind_some, hc, Option.bind_some, hb]

/-- Two ways to hand on a frame agree where they agree on the port that has taken it. -/
theorem takeFrame_congr {f f' : State → State} (h : f (s.onPort p (fun q => q.taken g)) = f' (s.onPort p (fun q => q.taken g))) :
    s.takeFrame p g f = s.takeFrame p g f' := by
  unfold State.takeFrame
  dsimp only
  split
  · rfl
  split
  · rfl
  · exact h

/-- A PUT with a whole frame judges the frame of its payload. -/
theorem putBytes_whole {kind b1 b2 : Byte} {rest : List Byte} (h1 : headerLength b1 b2 ≤ 1040)
    (h2 : headerLength b1 b2 ≤ rest.length) : s.putBytes p (kind :: b1 :: b2 :: rest) =
      s.takeFrame p (headerTag b1)
        (fun s1 => s1.handFrame p (headerTag b1) kind.toNat (rest.take (headerLength b1 b2))) :=
  if_neg (by omega)

theorem putBytes_long {kind b1 b2 : Byte} {rest : List Byte}
    (h : 1040 < headerLength b1 b2 ∨ rest.length < headerLength b1 b2) :
    s.putBytes p (kind :: b1 :: b2 :: rest) = s.frameError p := if_pos h

theorem putBytes_short {bytes : List Byte} (h : bytes.length < 3) : s.putBytes p bytes = s.frameError p := by
  rcases bytes with _ | ⟨a, _ | ⟨b, _ | ⟨c, r⟩⟩⟩
  · rfl
  · rfl
  · rfl
  · simp at h; omega

/-- A command that changes the Client Ports alone. -/
theorem finish_cp {a : State} (h : Keeps [.cp] (s.advance t) a) :
    ∃ s', finish s a = .next s' ∧ s.frame s' t [.cp] ∧ s'.cp = a.cp := ⟨_, rfl, frame_finish h, rfl⟩

/-- A taken request that is answered at once with the ports alone changed. -/
theorem taken_responded (st : Status) :
    ∃ s', finish s (((s.advance t).onPort p (fun q => q.taken g)).respond p g st []) = .next s' ∧ s.frame s' t [.cp]
      ∧ s'.cp = s.cp.answered p g st [] := by
  obtain ⟨s', he, hf, hc⟩ := finish_cp (s := s) (t := t)
    (a := ((s.advance t).onPort p (fun q => q.taken g)).respond p g st []) ((keeps_onPort _ _ _).trans (keeps_respond _ _ _ _ _))
  refine ⟨s', he, hf, ?_⟩
  rw [hc]
  exact answered_cp (b := (s.advance t).onPort p (fun q => q.taken g)) (s.advance t) p g rfl

end Sys2Proof.Machine

open Sys2Proof Sys2Proof.Machine

/-- Settles O54: the bytes are judged as a frame of that tag, and what is handed on is the row's own block. -/
theorem putSpellsItsRow : Obligations.PutSpellsItsRow := by
  intro s t p kind b1 b2 payload more l c hlen hl hf hc
  obtain ⟨roles, block, hr, hb, -, he⟩ := requestOf_row hc
  have hl : headerLength b1 b2 = payload.length := hl
  have ht : (payload ++ more).take (headerLength b1 b2) = payload := by rw [hl]; exact List.take_left' rfl
  rw [he]
  show finish s ((s.advance t).putBytes p (kind :: b1 :: b2 :: (payload ++ more))) = _
  rw [putBytes_whole (by omega) (by rw [hl, List.length_append]; omega), ht]
  refine congrArg (finish s) (takeFrame_congr ?_)
  exact handFrame_row hf hc hr hb

/-- Settles O10: the return is marked, counted corrupt, or ignored, and each is one change of the Ring Controller. -/
theorem returnedTripWord : Obligations.ReturnedTripWord := by
  intro s t f hm
  have hcor : cycleCorrupt f = false ↔ f.crcGood = true ∧ f.length = 27 := by
    rw [cycleCorrupt, frameCorrupt, Bool.or_eq_false_iff, Bool.not_eq_false', decide_eq_false_iff_not, not_not]
    exact and_congr_right fun _ => ⟨fun h => (Option.some.inj h).symm, fun h => congrArg some h.symm⟩
  have hm' : ¬ (s.advance t).isMaster = false := by
    show ¬ s.isMaster = false
    simp [hm]
  show ∃ s', finish s ((s.advance t).takeReturnedCycle f) = .next s' ∧ _
  unfold State.takeReturnedCycle
  rw [if_neg hm']
  by_cases hc : f.crcGood = true ∧ f.length = 27
  · rw [if_neg (by simp [hcor.2 hc]), if_pos hc]
    by_cases h : f.fields.number = s.rc.cycleNumber ∧ s.rc.lastCycle.isSome = true ∧ s.rc.ringState ≠ .conflict
    · rw [if_pos (by obtain ⟨a, b, c⟩ := h; exact ⟨b, a, c⟩), if_pos h]
      exact ⟨_, rfl, frame_finish (keeps_onRc _ _), rfl⟩
    · rw [if_neg (by rintro ⟨a, b, c⟩; exact h ⟨b, a, c⟩), if_neg h]
      exact ⟨_, rfl, frame_finish (Keeps.refl _ _), rfl⟩
  · rw [if_pos (by simpa using mt hcor.1 hc), if_neg hc]
    exact ⟨_, rfl, frame_finish (keeps_onRc _ _), rfl⟩

end

section
namespace Sys2Proof.Machine
/-! SUPPORT. The routing table after the pairs of a NOTICE ROUTE. -/

theorem routableOf_isSome (n : Nat) : (routableOf n).isSome = true ↔ n ∈ [1, 3, 4, 5, 6, 7, 8] := by
  unfold routableOf
  split <;> simp_all

/-- Replacing the set of one routable kind, read back for any kind. -/
theorem of_put (r : Routes) {n : Nat} {j : Notice} (hj : routableOf n = some j) (set : BitVec 4) (k : Notice) :
    (r.put j set).of k = if n = k.index then set else r.of k := by
  unfold routableOf at hj
  split at hj <;> cases hj <;> cases k <;> rfl

theorem of_foldl_putPair (k : Notice) (pairs : List (Nat × Nat)) (r : Routes)
    (ho : ∀ q ∈ pairs, (routableOf q.1).isSome = true) (hd : (pairs.map (fun q => q.1)).Nodup) :
    (pairs.foldl Routes.putPair r).of k = ((pairs.find? (fun q => q.1 == k.index)).map (fun q => BitVec.ofNat 4 q.2)).getD (r.of k) := by
  induction pairs generalizing r with
  | nil => rfl
  | cons q l ih =>
    obtain ⟨j, hj⟩ := Option.isSome_iff_exists.1 (ho q (by simp))
    obtain ⟨hq, hl⟩ := List.nodup_cons.1 hd
    have hput : r.putPair q = r.put j (BitVec.ofNat 4 q.2) := by unfold Routes.putPair; rw [hj]
    rw [List.foldl_cons, hput, ih _ (fun x hx => ho x (by simp [hx])) hl, of_put r hj]
    by_cases e : q.1 = k.index
    · have hn : l.find? (fun q => q.1 == k.index) = none := by
        rw [List.find?_eq_none]
        intro x hx hk
        exact hq (List.mem_map.2 ⟨x, hx, (beq_iff_eq.1 hk).trans e.symm⟩)
      simp [e, hn]
    · simp [e]

theorem keysDistinct_iff {β : Type} (l : List (Nat × β)) : keysDistinct l = true ↔ (l.map (fun q => q.1)).Nodup := by
  induction l with
  | nil => simp [keysDistinct]
  | cons q l ih =>
    rw [keysDistinct, Bool.and_eq_true, ih, List.map_cons, List.nodup_cons, List.all_eq_true]
    refine and_congr_left fun _ => ⟨fun h c => ?_, fun h x hx => ?_⟩
    · obtain ⟨x, hx, e⟩ := List.mem_map.1 c
      exact absurd e (bne_iff_ne.1 (h x hx))
    · exact bne_iff_ne.2 fun e => h (List.mem_map.2 ⟨x, hx, e⟩)

/-- A request whose block changes the Client Ports alone and answers at once. -/
theorem request_answered_cp {roles : List Role} {block : State → State × Reply} {f : CP → CP} {st : Status}
    {s : State} {t : HubTime} {p : PortNo} {g : Tag} (h : s.takes p g roles)
    (hb : block (s.handed t p g) = ((s.handed t p g).onCp f, status st)) :
    ∃ s', finishRequest s t p g roles block = .next s' ∧ s.frame s' t [.cp]
      ∧ s'.cp = (f (s.cp.waiting p g)).withPort p (((f (s.cp.waiting p g)).ports.get p).ready g st []) := by
  refine ⟨_, finishRequest_taken h, ?_, ?_⟩
  · rw [hb]
    exact frame_finish (((keeps_onPort _ _ _).trans (keeps_onCp _ _)).trans (keeps_respond _ p g st []))
  · rw [hb]; rfl

end Sys2Proof.Machine

open Sys2Proof Sys2Proof.Machine

/-- Settles O57: the pairs replace their kinds' sets one after another, and the enabled set is one field of the port. -/
theorem noticeRequests : Obligations.NoticeRequests := by
  intro s t p g pairs v k
  refine ⟨fun h => ?route, fun h => ?enable⟩
  case route =>
    have hbad : (pairs.isEmpty = true ∨ ¬ pairs.all routePairOk = true ∨ ¬ keysDistinct pairs = true)
        ↔ (pairs = [] ∨ (∃ q ∈ pairs, q.1 ∉ [1, 3, 4, 5, 6, 7, 8] ∨ 16 ≤ q.2) ∨ ¬ (pairs.map (fun q => q.1)).Nodup) := by
      rw [keysDistinct_iff, List.isEmpty_iff, List.all_eq_true]
      simp only [routePairOk, Bool.and_eq_true, routableOf_isSome, decide_eq_true_eq, not_forall, not_and_or, not_lt,
        exists_prop]
    by_cases hc : pairs = [] ∨ (∃ q ∈ pairs, q.1 ∉ [1, 3, 4, 5, 6, 7, 8] ∨ 16 ≤ q.2) ∨ ¬ (pairs.map (fun q => q.1)).Nodup
    · exact (request_refused (l := [.cp]) (block := reqNoticeRoute pairs) h (if_pos (hbad.2 hc)) (by decide)).imp fun s' a =>
        ⟨a.1, a.2.1, by rw [if_pos hc]; exact a.2.2.cp⟩
    · obtain ⟨s', he, hf, hcp⟩ := request_answered_cp (block := reqNoticeRoute pairs) h (if_neg (mt hbad.1 hc))
      refine ⟨s', he, hf, ?_⟩
      rw [if_neg hc, hcp]
      have hroutes := of_foldl_putPair k pairs s.cp.routes
        (fun q hq => (routableOf_isSome _).2 (by
          by_contra hn
          exact hc (.inr (.inl ⟨q, hq, .inl hn⟩))))
        (by by_contra hn; exact hc (.inr (.inr hn)))
      refine ⟨?_, ?_⟩
      · simp only [CP.withPort, CP.waiting, CP.answered, Table.get_set_self, Table.set_set]
      · refine Eq.trans (show _ = (pairs.foldl Routes.putPair s.cp.routes).of k from rfl) (hroutes.trans ?_)
        cases pairs.find? (fun q => q.1 == k.index) <;> rfl
  case enable =>
    by_cases hv : v < 2048
    · have hb : reqNoticeEnable p (some v) (s.handed t p g) = ((s.handed t p g).onCp
          (fun c => { c with ports := c.ports.modify p (fun q => { q with enabled := BitVec.ofNat 11 v }) }), status .done) := by
        unfold reqNoticeEnable
        rw [show argFin 2048 (some v) = some ⟨v, hv⟩ from dif_pos hv]
        rfl
      obtain ⟨s', he, hf, hcp⟩ := request_answered_cp h hb
      refine ⟨s', he, hf, ?_⟩
      rw [if_pos hv, hcp]
      simp only [CP.withPort, CP.waiting, Table.modify, Table.get_set_self, Table.set_set]
      rfl
    · have hb : reqNoticeEnable p (some v) (s.handed t p g) = (s.handed t p g, status .badArgument) := by
        unfold reqNoticeEnable
        rw [show argFin 2048 (some v) = none from dif_neg hv]
      exact (request_refused (l := [.cp]) h hb (by decide)).imp fun s' a =>
        ⟨a.1, a.2.1, by rw [if_neg hv]; exact a.2.2.cp⟩

end

section
namespace Sys2Proof.Machine
/-! SUPPORT. Bytes written and read back: numbers, item lists, and the payloads of data frames. -/

theorem beBytes_succ (n : Nat) (v : Int) : beBytes (n + 1) v = beBytes n (v / 256) ++ [BitVec.ofInt 8 v] := by
  unfold beBytes
  rw [List.range_succ, List.map_append, List.map_singleton]
  congr 1
  · refine List.map_congr_left fun i hi => ?_
    have hi := List.mem_range.1 hi
    rw [Int.ediv_ediv_of_nonneg (by decide), ← pow_succ', show n - 1 - i + 1 = n + 1 - 1 - i by
      rw [Nat.sub_right_comm, Nat.sub_add_cancel (Nat.sub_pos_of_lt hi), Nat.add_sub_cancel]]
  · simp

theorem ofBytes_concat (l : List Byte) (b : Byte) : ofBytes (l ++ [b]) = ofBytes l * 256 + b.toNat := by
  simp [ofBytes]

theorem ofBytes_beBytes (n : Nat) (v : Int) : (ofBytes (beBytes n v) : Int) = v % 256 ^ n := by
  induction n generalizing v with
  | zero => simp [beBytes, ofBytes]
  | succ n ih =>
    have hb : ((BitVec.ofInt 8 v).toNat : Int) = v % 256 := by
      rw [BitVec.toNat_ofInt, Int.toNat_of_nonneg (Int.emod_nonneg _ (by decide))]; rfl
    have hm : (0 : Int) < 256 ^ n := by positivity
    have hr := Int.emod_nonneg (v / 256) hm.ne'
    have hr' := Int.emod_lt_of_pos (v / 256) hm
    have hs := Int.emod_nonneg v (show (256 : Int) ≠ 0 by decide)
    have hs' := Int.emod_lt_of_pos v (show (0 : Int) < 256 by decide)
    have hv : v = v / 256 % 256 ^ n * 256 + v % 256 + 256 ^ (n + 1) * (v / 256 / 256 ^ n) := by
      calc v = 256 * (v / 256) + v % 256 := (Int.mul_ediv_add_emod v 256).symm
        _ = 256 * (256 ^ n * (v / 256 / 256 ^ n) + v / 256 % 256 ^ n) + v % 256 := by
          rw [show 256 ^ n * (v / 256 / 256 ^ n) + v / 256 % 256 ^ n = v / 256 from Int.mul_ediv_add_emod _ _]
        _ = _ := by ring
    rw [beBytes_succ, ofBytes_concat, Nat.cast_add, Nat.cast_mul, ih, hb]
    conv_rhs => rw [hv, Int.add_mul_emod_self_left]
    refine (Int.emod_eq_of_lt (by positivity) ?_).symm
    rw [pow_succ]
    push_cast
    omega

/-- A number that fits its bytes is read back. -/
theorem ofBytes_fits {k v : Nat} (h : v < 256 ^ k) : ofBytes (beBytes k v) = v := by
  have : (ofBytes (beBytes k v) : Int) = (v : Int) := by
    rw [ofBytes_beBytes]
    exact Int.emod_eq_of_lt (by omega) (by exact_mod_cast h)
  exact_mod_cast this

theorem ofBytesSigned_fits {k : Nat} {v : Int} (h : fitsSigned k v = true) : ofBytesSigned (beBytes k v) = v := by
  simp only [fitsSigned, Bool.and_eq_true, decide_eq_true_eq] at h
  obtain ⟨lo, hi⟩ := h
  unfold ofBytesSigned
  rw [beBytes_length, ofBytes_beBytes]
  have hp : (0 : Int) < 256 ^ k := by positivity
  by_cases hv : 0 ≤ v
  · rw [Int.emod_eq_of_lt hv (by omega), if_pos hi]
  · have : v % 256 ^ k = v + 256 ^ k := by
      rw [← Int.add_emod_right, Int.emod_eq_of_lt (by omega) (by omega)]
    rw [this, if_neg (by omega)]; omega

/-- A bit string that fits its bytes is read back. -/
theorem ofBytes_bits {k w : Nat} (x : BitVec w) (h : w ≤ 8 * k) : ofBytes (beBytes k (x.toNat : Int)) = x.toNat :=
  ofBytes_fits (x.isLt.trans_le (by rw [show (256 : Nat) = 2 ^ 8 from rfl, ← pow_mul]; exact Nat.pow_le_pow_right (by decide) h))

/-! ### Fields of a byte string -/

/-- The field at the start of a byte string. -/
theorem field_first (a b : List Byte) : field (a ++ b) 0 a.length = ofBytes a := by
  simp [field]

/-- A field after the first part of a byte string. -/
theorem field_after (a b : List Byte) (off n : Nat) : field (a ++ b) (a.length + off) n = field b off n := by
  simp [field]

theorem field_beBytes (k : Nat) (v : Int) (b : List Byte) : field (beBytes k v ++ b) 0 k = ofBytes (beBytes k v) := by
  have := field_first (beBytes k v) b
  rwa [beBytes_length] at this

theorem field_beBytes_self (k : Nat) (v : Int) : field (beBytes k v) 0 k = ofBytes (beBytes k v) := by
  have := field_beBytes k v []
  rwa [List.append_nil] at this

theorem field_skip {k off : Nat} (v : Int) (b : List Byte) (n : Nat) (h : k ≤ off) :
    field (beBytes k v ++ b) off n = field b (off - k) n := by
  have := field_after (beBytes k v) b (off - k) n
  rwa [beBytes_length, Nat.add_sub_cancel' h] at this

/-- A bit string of two bytes is read back. -/
theorem ofNat_ofBytes_bits {w k : Nat} (x : BitVec w) (h : w ≤ 8 * k) :
    BitVec.ofNat w (ofBytes (beBytes k (x.toNat : Int))) = x := by
  rw [ofBytes_bits x h, BitVec.ofNat_toNat, BitVec.setWidth_eq]

/-! ### Codes -/

theorem statusCode_lt (st : Status) : Status.code st < 256 := by
  cases st <;> first | exact (BitVec.isLt _) | exact by decide

theorem statusOf_code {st : Status} (h : st.wellFormed = true) : statusOf (Status.code st) = st := by
  cases st
  case unlisted c =>
    obtain ⟨k, hk⟩ := Nat.exists_eq_add_of_le' (show 21 ≤ c.toNat from of_decide_eq_true h)
    have code : statusOf (k + 21) = .unlisted (BitVec.ofNat 8 (k + 21)) := rfl
    exact (congrArg statusOf hk).trans (code.trans (by rw [← hk, BitVec.ofNat_toNat, BitVec.setWidth_eq]))
  all_goals rfl

theorem replyStatusCode_lt (st : ReplyStatus) : replyStatusCode st < 256 := by
  cases st <;> first | exact (BitVec.isLt _) | exact by decide

theorem replyStatusOf_code {st : ReplyStatus} (h : st.wellFormed = true) : replyStatusOf (replyStatusCode st) = st := by
  cases st
  case unlisted c =>
    obtain ⟨k, hk⟩ := Nat.exists_eq_add_of_le' (show 3 ≤ c.toNat from of_decide_eq_true h)
    have code : replyStatusOf (k + 3) = .unlisted (BitVec.ofNat 8 (k + 3)) := rfl
    exact (congrArg replyStatusOf hk).trans (code.trans (by rw [← hk, BitVec.ofNat_toNat, BitVec.setWidth_eq]))
  all_goals rfl

theorem abortReasonCode_lt (r : AbortReason) : abortReasonCode r < 256 := by
  cases r <;> first | exact (BitVec.isLt _) | exact by decide

theorem abortReasonOf_code {r : AbortReason} (h : r.wellFormed = true) : abortReasonOf (abortReasonCode r) = r := by
  cases r
  case unlisted c =>
    obtain ⟨k, hk⟩ := Nat.exists_eq_add_of_le' (show 4 ≤ c.toNat from of_decide_eq_true h)
    have code : abortReasonOf (k + 4) = .unlisted (BitVec.ofNat 8 (k + 4)) := rfl
    exact (congrArg abortReasonOf hk).trans (code.trans (by rw [← hk, BitVec.ofNat_toNat, BitVec.setWidth_eq]))
  all_goals rfl

theorem subStatusCode_lt (st : SubStatus) : subStatusCode st < 256 := by
  cases st <;> first | exact (BitVec.isLt _) | exact by decide

theorem subStatusOf_code {st : SubStatus} (h : st.wellFormed = true) : subStatusOf (subStatusCode st) = st := by
  cases st
  case unlisted c =>
    obtain ⟨k, hk⟩ := Nat.exists_eq_add_of_le' (show 3 ≤ c.toNat from of_decide_eq_true h)
    have code : subStatusOf (k + 3) = .unlisted (BitVec.ofNat 8 (k + 3)) := rfl
    exact (congrArg subStatusOf hk).trans (code.trans (by rw [← hk, BitVec.ofNat_toNat, BitVec.setWidth_eq]))
  all_goals rfl

/-! ### Item lists -/

theorem beBytes_one (v : Int) : beBytes 1 v = [BitVec.ofInt 8 v] := by simp [beBytes]
theorem beBytes_two (v : Int) : beBytes 2 v = [BitVec.ofInt 8 (v / 256), BitVec.ofInt 8 v] := by
  rw [beBytes_succ, beBytes_one]; rfl

theorem readItemsFuel_cons (k : Nat) (n h l : Byte) (rest : List Byte) : readItemsFuel (k + 1) (n :: h :: l :: rest) =
    ⟨n.toNat, rest.take (h.toNat * 256 + l.toNat)⟩ :: readItemsFuel k (rest.drop (h.toNat * 256 + l.toNat)) := rfl

/-- An item list is read back, given fuel for every item. -/
theorem readItemsFuel_itemsBytes {l : List Item} (h : ∀ i ∈ l, i.num < 256 ∧ i.value.length < 65536) {k : Nat}
    (hk : l.length ≤ k) : readItemsFuel k (itemsBytes l) = l := by
  induction l generalizing k with
  | nil => cases k <;> rfl
  | cons i l ih =>
    obtain ⟨k, rfl⟩ : ∃ m, k = m + 1 := ⟨k - 1, by simp at hk; omega⟩
    obtain ⟨hn, hv⟩ := h i (by simp)
    have hb : itemsBytes (i :: l) = BitVec.ofInt 8 (i.num : Int) :: BitVec.ofInt 8 ((i.value.length : Int) / 256)
        :: BitVec.ofInt 8 (i.value.length : Int) :: (i.value ++ itemsBytes l) := by
      simp [itemsBytes, itemBytes, beBytes_one, beBytes_two]
    have hnum : (BitVec.ofInt 8 (i.num : Int)).toNat = i.num := by
      have := ofBytes_fits (k := 1) (v := i.num) (by simpa using hn)
      rwa [beBytes_one, ofBytes, List.foldl_cons, List.foldl_nil, Nat.zero_mul, Nat.zero_add] at this
    have hlen : (BitVec.ofInt 8 ((i.value.length : Int) / 256)).toNat * 256
        + (BitVec.ofInt 8 (i.value.length : Int)).toNat = i.value.length := by
      have := ofBytes_fits (k := 2) (v := i.value.length) (by simpa using hv)
      rwa [beBytes_two, ofBytes, List.foldl_cons, List.foldl_cons, List.foldl_nil, Nat.zero_mul, Nat.zero_add] at this
    rw [hb, readItemsFuel_cons, hnum, hlen, List.take_left' rfl, List.drop_left' rfl,
      ih (fun j hj => h j (by simp [hj])) (by simpa using hk)]

theorem length_le_itemsBytes (l : List Item) : l.length ≤ (itemsBytes l).length := by
  induction l with
  | nil => exact Nat.zero_le _
  | cons i l ih =>
    have : itemsBytes (i :: l) = itemBytes i ++ itemsBytes l := rfl
    rw [this, List.length_append, List.length_cons]
    have : 1 ≤ (itemBytes i).length := by simp [itemBytes, beBytes_length]
    omega

theorem itemsBytes_length (l : List Item) : (itemsBytes l).length = (l.map (fun i => 3 + i.value.length)).sum := by
  induction l with
  | nil => rfl
  | cons i l ih =>
    have : itemsBytes (i :: l) = itemBytes i ++ itemsBytes l := rfl
    rw [this, List.length_append, ih]
    simp [itemBytes, beBytes_length]; omega

/-! ### Payloads -/

/-- The bytes of a payload fit its kind. -/
theorem payloadFits_bytes {p : DataPayload} (h : p.wellFormed = true) : payloadFits p.kind p.bytes = true := by
  cases p with
  | edit ref slot amount => rfl
  | editReply ref st amount serial => rfl
  | imageBegin f =>
    have hs : (stampBytes f.stamp).length = 6 := by cases f.stamp <;> rfl
    show decide ((stampBytes f.stamp).length + 15 = 21) = true
    rw [hs]
    rfl
  | imageReply strip number st rx => rfl
  | imageSegment strip number seg count bytes =>
    simp only [DataPayload.wellFormed, deliveryRow, Instr.wellFormed, Bool.and_eq_true, decide_eq_true_eq] at h
    have hc : ofBytes (beBytes 2 (count : Int)) = count := ofBytes_fits (by omega)
    show (decide (8 ≤ bytes.length + 8) && decide (bytes.length + 8 = 8 + ofBytes (beBytes 2 count))) = true
    rw [hc, Bool.and_eq_true, decide_eq_true_iff, decide_eq_true_iff]
    exact ⟨Nat.le_add_left _ _, by omega⟩
  | imageAbort d strip number reason => rfl
  | subscribe view sub kind index rate => rfl
  | subscribeReply view sub st => rfl
  | unsubscribe view sub => rfl
  | viewUpdate view sub content =>
    cases content with
    | none =>
      have h0 : ofBytes (beBytes 2 0) = 0 := by decide
      simp [payloadFits, DataPayload.kind, DataPayload.bytes, beBytes_length, field_skip, field_beBytes_self, h0]
    | some l =>
      simp only [DataPayload.wellFormed, deliveryRow, Instr.wellFormed, optFits, contentWellFormed, fitsBytes,
        Bool.and_eq_true, decide_eq_true_eq] at h
      have hc : ofBytes (beBytes 2 ((itemsBytes l).length : Int)) = (itemsBytes l).length :=
        ofBytes_fits (by rw [itemsBytes_length]; exact h.1.2.2)
      show (decide (5 ≤ (itemsBytes l).length + 5) && decide ((itemsBytes l).length + 5 = 5 + ofBytes (beBytes 2 (itemsBytes l).length))) = true
      rw [hc, Bool.and_eq_true, decide_eq_true_iff, decide_eq_true_iff]
      exact ⟨Nat.le_add_left _ _, Nat.add_comm _ _⟩

/-- A bit string of 16 bits as its two bytes give it back. -/
noncomputable def readBits (x : BitVec 16) : BitVec 16 := BitVec.ofNat 16 (ofBytes (beBytes 2 x.toNat))

theorem readBits_eq (x : BitVec 16) : readBits x = x := ofNat_ofBytes_bits x (by decide)

theorem stamp_read (st : SentStamp) : (if field (stampBytes st) 0 1 = 1 then
    SentStamp.known (BitVec.ofNat 24 (field (stampBytes st) 1 3)) (BitVec.ofNat 16 (field (stampBytes st) 4 2)) else .unknown) = st := by
  cases st with
  | known a c =>
    refine (if_pos (show ofBytes (beBytes 1 1) = 1 by decide)).trans ?_
    show SentStamp.known (BitVec.ofNat 24 (ofBytes (beBytes 3 a.toNat))) (readBits c) = _
    rw [ofNat_ofBytes_bits a (by decide), readBits_eq]
  | unknown => exact if_neg (by decide)

/-- The bytes of a payload read back field by field. -/
theorem payloadFields_bytes {p : DataPayload} (h : p.wellFormed = true) : payloadFields p.kind p.bytes = p := by
  cases p with
  | edit ref slot amount =>
    simp only [DataPayload.wellFormed, deliveryRow, Instr.wellFormed, fitsBytes, Bool.and_eq_true, decide_eq_true_eq] at h
    obtain ⟨⟨⟨-, hs⟩, ha⟩, -⟩ := h
    show DataPayload.edit (readBits ref) (ofBytes (beBytes 1 slot)) (ofBytesSigned (beBytes 4 amount)) = _
    rw [readBits_eq, ofBytes_fits hs, ofBytesSigned_fits ha]
  | editReply ref st amount serial =>
    simp only [DataPayload.wellFormed, deliveryRow, Instr.wellFormed, fitsBytes, Bool.and_eq_true, decide_eq_true_eq] at h
    obtain ⟨⟨⟨-, hs⟩, ha⟩, -⟩ := h
    show DataPayload.editReply (readBits ref) (statusOf (ofBytes (beBytes 1 (Status.code st)))) (ofBytesSigned (beBytes 4 amount))
      (readBits serial) = _
    rw [readBits_eq, readBits_eq, ofBytes_fits (k := 1) (statusCode_lt st), statusOf_code hs, ofBytesSigned_fits ha]
  | imageBegin f =>
    simp only [DataPayload.wellFormed, deliveryRow, Instr.wellFormed, BeginFields.wellFormed, fitsBytes, Bool.and_eq_true,
      decide_eq_true_eq] at h
    obtain ⟨⟨-, ⟨⟨⟨⟨⟨⟨hx, hc⟩, hm⟩, hw⟩, hr⟩, hb⟩, hs⟩⟩, -⟩ := h
    show DataPayload.imageBegin
      { strip := ofBytes (beBytes 2 f.strip), number := readBits f.number, camera := ofBytes (beBytes 1 f.camera)
        mode := ofBytes (beBytes 1 f.mode), width := ofBytes (beBytes 2 f.width), rows := ofBytes (beBytes 1 f.rows)
        byteSize := ofBytes (beBytes 4 f.byteSize), segCount := ofBytes (beBytes 2 f.segCount)
        stamp := if field (stampBytes f.stamp) 0 1 = 1 then
          .known (BitVec.ofNat 24 (field (stampBytes f.stamp) 1 3)) (BitVec.ofNat 16 (field (stampBytes f.stamp) 4 2)) else .unknown } = _
    rw [readBits_eq, ofBytes_fits hx, ofBytes_fits hc, ofBytes_fits hm, ofBytes_fits hw, ofBytes_fits hr, ofBytes_fits hb,
      ofBytes_fits hs, stamp_read]
  | imageReply strip number st rx =>
    simp only [DataPayload.wellFormed, deliveryRow, Instr.wellFormed, fitsBytes, Bool.and_eq_true, decide_eq_true_eq] at h
    obtain ⟨⟨⟨⟨-, hx⟩, hs⟩, hr⟩, -⟩ := h
    show DataPayload.imageReply (ofBytes (beBytes 2 strip)) (readBits number) (replyStatusOf (ofBytes (beBytes 1 (replyStatusCode st))))
      (ofBytes (beBytes 2 rx)) = _
    rw [readBits_eq, ofBytes_fits (k := 1) (replyStatusCode_lt st), replyStatusOf_code hs, ofBytes_fits hx, ofBytes_fits hr]
  | imageSegment strip number seg count bytes =>
    simp only [DataPayload.wellFormed, deliveryRow, Instr.wellFormed, fitsBytes, Bool.and_eq_true, decide_eq_true_eq] at h
    obtain ⟨⟨⟨⟨⟨-, hx⟩, hs⟩, -⟩, hc⟩, -⟩ := h
    show DataPayload.imageSegment (ofBytes (beBytes 2 strip)) (readBits number) (ofBytes (beBytes 2 seg)) (ofBytes (beBytes 2 count))
      bytes = _
    rw [readBits_eq, ofBytes_fits hx, ofBytes_fits hs, ofBytes_fits (show count < 256 ^ 2 by omega)]
  | imageAbort d strip number reason =>
    have h' : fitsBytes 2 strip = true ∧ reason.wellFormed = true := by
      cases d <;> simpa [DataPayload.wellFormed, deliveryRow, Instr.wellFormed, fitsBytes] using h
    obtain ⟨hx, hr⟩ := h'
    have hd : decide (ofBytes (flagByte d) = 1) = d := by cases d <;> decide
    show DataPayload.imageAbort (decide (ofBytes (flagByte d) = 1)) (ofBytes (beBytes 2 strip)) (readBits number)
      (abortReasonOf (ofBytes (beBytes 1 (abortReasonCode reason)))) = _
    rw [hd, readBits_eq, ofBytes_fits (k := 1) (abortReasonCode_lt reason), abortReasonOf_code hr, ofBytes_fits (of_decide_eq_true hx)]
  | subscribe view sub kind index rate =>
    simp only [DataPayload.wellFormed, deliveryRow, Instr.wellFormed, fitsBytes, Bool.and_eq_true, decide_eq_true_eq] at h
    obtain ⟨⟨⟨⟨⟨-, hv⟩, hk⟩, hi⟩, hr⟩, -⟩ := h
    show DataPayload.subscribe (ofBytes (beBytes 1 view)) (readBits sub) (ofBytes (beBytes 1 kind)) (ofBytes (beBytes 1 index))
      (ofBytes (beBytes 1 rate)) = _
    rw [readBits_eq, ofBytes_fits hv, ofBytes_fits hk, ofBytes_fits hi, ofBytes_fits hr]
  | subscribeReply view sub st =>
    simp only [DataPayload.wellFormed, deliveryRow, Instr.wellFormed, fitsBytes, Bool.and_eq_true, decide_eq_true_eq] at h
    obtain ⟨⟨⟨-, hv⟩, hs⟩, -⟩ := h
    show DataPayload.subscribeReply (ofBytes (beBytes 1 view)) (readBits sub) (subStatusOf (ofBytes (beBytes 1 (subStatusCode st)))) = _
    rw [readBits_eq, ofBytes_fits (k := 1) (subStatusCode_lt st), subStatusOf_code hs, ofBytes_fits hv]
  | unsubscribe view sub =>
    simp only [DataPayload.wellFormed, deliveryRow, Instr.wellFormed, fitsBytes, Bool.and_eq_true, decide_eq_true_eq] at h
    obtain ⟨⟨-, hv⟩, -⟩ := h
    show DataPayload.unsubscribe (ofBytes (beBytes 1 view)) (readBits sub) = _
    rw [readBits_eq, ofBytes_fits hv]
  | viewUpdate view sub content =>
    cases content with
    | none =>
      simp only [DataPayload.wellFormed, deliveryRow, Instr.wellFormed, fitsBytes, Bool.and_eq_true, decide_eq_true_eq] at h
      obtain ⟨⟨⟨-, hv⟩, -⟩, -⟩ := h
      show DataPayload.viewUpdate (ofBytes (beBytes 1 view)) (readBits sub) none = _
      rw [readBits_eq, ofBytes_fits hv]
    | some l =>
      simp only [DataPayload.wellFormed, deliveryRow, Instr.wellFormed, optFits, contentWellFormed, fitsBytes,
        Bool.and_eq_true, decide_eq_true_eq, List.all_eq_true] at h
      obtain ⟨⟨⟨-, hv⟩, hi, -⟩, hl⟩ := h
      have short := length_le_itemsBytes l
      have pos : 0 < l.length := List.length_pos_iff.2 fun e => by
        rw [e] at hl
        exact Bool.false_ne_true hl
      have items := readItemsFuel_itemsBytes (l := l) (k := (itemsBytes l).length + 5) (fun i h => by simpa using hi i h)
        (short.trans (Nat.le_add_right _ _))
      show DataPayload.viewUpdate (ofBytes (beBytes 1 view)) (readBits sub) (if (itemsBytes l).length + 5 = 5 then none
        else some (readItemsFuel ((itemsBytes l).length + 5) (itemsBytes l))) = _
      rw [readBits_eq, ofBytes_fits hv, items, if_neg fun e => absurd (pos.trans_le short) (Nat.not_lt.2 (Nat.le_of_add_le_add_right
        (e.le.trans (Nat.zero_add 5).ge)))]

end Sys2Proof.Machine

open Sys2Proof Sys2Proof.Machine

/-- Settles O16: every field is read back from its own bytes, an item list with fuel for all its items. -/
theorem dataPayloadRoundTrip : Obligations.DataPayloadRoundTrip := by
  intro p h
  exact ⟨payloadFits_bytes h, by rw [readPayload, if_pos (payloadFits_bytes h), payloadFields_bytes h]⟩

end

section
namespace Sys2Proof.Machine
/-! SUPPORT. What is removed, forwarded and held of an inbound frame, and with what a frame leaves. -/

variable {s : State} {t : HubTime}

theorem dataPassage_not_running (s : State) (dst src : Nat) :
    s.dataPassage false dst src = if s.isMaster then .remove else .forward := rfl

theorem knownHub_eq_false (s : State) (h : Nat) : s.knownHub h = false ↔ ∀ n ∈ s.rc.hubCount, n ≤ h := by
  unfold State.knownHub
  cases s.rc.hubCount <;> simp

theorem ownAddress_iff (s : State) (h : Nat) : s.ownAddress h = true ↔ s.rc.hubAddress = some h := by
  simp [State.ownAddress]

/-- The header of a frame decides that it is not forwarded exactly as the table of R3 has it. -/
theorem passage_forward (s : State) (b : FrameBody) : s.passage b = .forward ↔ ¬ s.removes b := by
  cases b with
  | data f =>
    unfold State.passage State.removes State.running
    dsimp only
    by_cases hr : s.rc.ringState = .running
    · rw [if_pos hr, decide_eq_true hr]
      show (if _ then _ else if _ then _ else if _ then _ else _) = _ ↔ _
      have hk : (s.knownHub f.dst = false ∨ s.knownHub f.src = false) ↔ ∀ n ∈ s.rc.hubCount, n ≤ f.dst ∨ n ≤ f.src := by
        rw [knownHub_eq_false, knownHub_eq_false]
        cases s.rc.hubCount <;> simp
      simp only [← or_assoc, hk, ownAddress_iff]
      by_cases h1 : ∀ n ∈ s.rc.hubCount, n ≤ f.dst ∨ n ≤ f.src
      · simp only [eq_true h1, true_or, or_true, if_true, not_true, iff_false]; exact nofun
      simp only [eq_false h1, false_or, or_false]
      by_cases h2 : f.dst = f.src
      · simp [h2]
      by_cases h3 : s.rc.hubAddress = some f.dst
      · simp [h2, h3]
      by_cases h4 : s.rc.hubAddress = some f.src
      · simp [Ne.symm h2, h2, h4]
      · simp [h2, h3, h4]
    · rw [if_neg hr, decide_eq_false hr, dataPassage_not_running]
      split <;> simp_all
  | census f | roster f | cycle f | unknown c =>
    unfold State.passage State.removes
    dsimp only
    split <;> simp_all

/-- A frame of unknown kind. -/
noncomputable def FrameBody.isUnknown : FrameBody → Bool
  | .unknown _ => true
  | .census _ | .roster _ | .cycle _ | .data _ => false

/-- A frame that is removed is not passed on; one of unknown kind is counted (R3). -/
theorem frameForward_removed {f : Frame} (h : s.removes f.body) : s.frameForward f =
    if FrameBody.isUnknown f.body then s.noteArrival.countCorrupt else s.noteArrival := by
  have hp : s.passage f.body ≠ .forward := fun e => (passage_forward s f.body).1 e h
  unfold State.frameForward
  cases hb : s.passage f.body with
  | forward => exact absurd hb hp
  | remove => cases f.body <;> rfl
  | deliver | badAddress | unclaimed =>
    cases hf : f.body with
    | unknown c =>
      rw [hf] at hb
      unfold State.passage at hb
      dsimp only at hb
      split at hb <;> cases hb
    | _ => rfl

theorem frameForward_passed {f : Frame} (h : ¬ s.removes f.body) : s.frameForward f = s.noteArrival.passFrame f 0 := by
  have hp := (passage_forward s f.body).2 h
  unfold State.frameForward
  rw [hp]

/-- What a frame leaves with (R2, R7, R14, R17). -/
theorem frameOut_eq (s : State) (f : Frame) (comp waited : Nat) : s.frameOut f comp waited = s.leaving f comp waited := by
  obtain ⟨body, length, crc⟩ := f
  cases body with
  | cycle c =>
    unfold State.frameOut State.leaving State.cycleOut putBit hubBit arrivalAge
    cases s.rc.hubAddress <;> rfl
  | census c =>
    have hc : frameCorrupt ⟨.census c, length, crc⟩ = false ↔ crc = true ∧ length = 13 := by
      rw [frameCorrupt, Bool.or_eq_false_iff, Bool.not_eq_false', decide_eq_false_iff_not, not_not]
      exact and_congr_right fun _ => ⟨fun h => (Option.some.inj h).symm, fun h => congrArg some h.symm⟩
    unfold State.frameOut State.leaving
    dsimp only
    by_cases h : crc = true ∧ length = 13
    · rw [if_neg (by rw [hc.2 h]; exact Bool.false_ne_true)]
      unfold censusOut
      cases c.overflow
      · rw [if_neg Bool.false_ne_true, if_pos (show crc = true ∧ length = 13 ∧ false = false from ⟨h.1, h.2, rfl⟩)]
      · rw [if_pos rfl, if_neg (by simp)]
    · rw [if_pos (by rw [← Bool.not_eq_false, hc]; exact h), if_neg (fun e => h ⟨e.1, e.2.1⟩)]
  | roster c | data c | unknown c => rfl

theorem cutAt_eq (n : Nat) (f : Frame) : cutAt n f = if f.length ≤ n then f else { f with length := n, crcGood := false } := by
  unfold cutAt
  by_cases h : f.length ≤ n
  · rw [if_neg (by omega), if_pos h]
  · rw [if_pos (by omega), if_neg h]

theorem cutAt_of_le {n : Nat} {f : Frame} (h : f.length ≤ n) : cutAt n f = f := if_neg (by omega)

/-- RING OUT that is free has no frame that has not begun to leave. -/
theorem unsent_free (r : RC) (now : HubTime) (h : r.outLeft = 0) : r.unsent now = [] := by
  unfold RC.unsent
  cases r.ringOut with
  | none => rfl
  | some o => exact if_neg (by omega)

/-- A frame that cannot leave at once joins the transit buffer, whole, cut, or not at all (R23). -/
theorem holdFrame_eq (s : State) (f : Frame) (a : HubTime) : s.holdFrame f a = s.onRc (fun r =>
    { r with transit := r.transit ++ (if s.rc.roomAt s.rc.outLeft = 0 then []
        else if s.rc.outHeld = true ∨ s.rc.outLeft ≤ 2 * s.rc.roomAt s.rc.outLeft then [⟨f, a, r.cableComp⟩]
        else [⟨cutAt (s.rc.roomAt s.rc.outLeft) f, a, r.cableComp⟩]) }) := by
  have hcut : s.rc.cutLength f.length = (if s.rc.roomAt s.rc.outLeft = 0 ∨ (s.rc.roomAt s.rc.outLeft < f.length
      ∧ 2 * s.rc.roomAt s.rc.outLeft < if s.rc.outHeld = true then 0 else s.rc.outLeft) then
        some (s.rc.roomAt s.rc.outLeft) else none) := rfl
  unfold State.holdFrame
  rw [hcut]
  generalize s.rc.roomAt s.rc.outLeft = room
  rcases room with _ | k
  · simp only [true_or, if_true, List.append_nil]; rfl
  by_cases hb : s.rc.outHeld = true ∨ s.rc.outLeft ≤ 2 * (k + 1)
  · have hn : ¬ (k + 1 = 0 ∨ k + 1 < f.length ∧ 2 * (k + 1) < if s.rc.outHeld = true then 0 else s.rc.outLeft) := by
      rintro (h | ⟨-, h⟩)
      · omega
      · rcases hb with e | e
        · rw [if_pos e] at h; omega
        · split at h <;> omega
    rw [if_neg hn]
    simp only [hb, if_true, if_neg (Nat.succ_ne_zero k)]
  · obtain ⟨ho, hl⟩ := not_or.1 hb
    simp only [hb, if_false, if_neg (Nat.succ_ne_zero k)]
    by_cases hf : k + 1 < f.length
    · rw [if_pos (.inr ⟨hf, by rw [if_neg ho]; omega⟩)]; rfl
    · rw [if_neg (by rintro (h | ⟨h, -⟩) <;> omega)]
      simp only [cutAt_of_le (show f.length ≤ k + 1 by omega)]

theorem passFrame_free {f : Frame} {b : Nat} (h : s.rc.transit = [] ∧ s.rc.outLeft ≤ 32 - b) : s.passFrame f b =
    s.onRc (fun r =>
      { r with
        ringOut := some ⟨s.leaving (cutAt 1049 f) r.cableComp 0, later (s.hubTime - BitVec.ofNat 32 b) 32⟩
        outLeft := 32 + 2 * (cutAt 1049 f).length - b
        outHeld := false
        passing := r.unsent s.hubTime
          ++ [⟨⟨cutAt 1049 f, s.hubTime - BitVec.ofNat 32 b, r.cableComp⟩, later s.hubTime r.outLeft⟩] }) := by
  simp only [← frameOut_eq]
  exact if_pos h

theorem passFrame_held {f : Frame} {b : Nat} (h : ¬ (s.rc.transit = [] ∧ s.rc.outLeft ≤ 32 - b)) :
    s.passFrame f b = s.holdFrame (cutAt 1049 f) (s.hubTime - BitVec.ofNat 32 b) := if_neg h

theorem heldRelease_nil (h : s.rc.transit = []) : s.heldRelease = s := by unfold State.heldRelease; rw [h]

theorem heldRelease_cons {x : HeldFrame} {rest : List HeldFrame} (h : s.rc.transit = x :: rest) : s.heldRelease =
    if s.rc.outLeft = 0 then s.onRc (fun r =>
      { r with transit := rest, ringOut := some ⟨s.leaving x.frame x.comp ((s.hubTime - x.arrival).toNat - 32), s.hubTime⟩
               outLeft := 2 * x.frame.length, outHeld := true })
    else s := by
  unfold State.heldRelease
  rw [h]
  dsimp only
  rw [frameOut_eq]

theorem keeps_passFrame (s : State) (f : Frame) (b : Nat) : Keeps [.rc] s (s.passFrame f b) := by
  by_cases h : s.rc.transit = [] ∧ s.rc.outLeft ≤ 32 - b
  · rw [passFrame_free h]; exact keeps_onRc _ _
  · rw [passFrame_held h, holdFrame_eq]; exact keeps_onRc _ _

end Sys2Proof.Machine

open Sys2Proof Sys2Proof.Machine

/-- Settles O13: the header decides, then RING OUT and the room of the transit buffer. -/
theorem cycleFrameIsForwarded : Obligations.CycleFrameIsForwarded := by
  intro s t f
  dsimp only
  refine ⟨?forward, ?release⟩
  case forward =>
    by_cases hr : s.removes f.body
    · have he := frameForward_removed (s := s.advance t) (f := f) hr
      refine ⟨markDirty s ((s.advance t).frameForward f), rfl, frame_finish ?_, fun _ => ?_, fun h => absurd hr h⟩
      · rw [he]
        split
        · exact (keeps_onRc _ _).trans (keeps_onRc _ _)
        · exact keeps_onRc _ _
      · show ((s.advance t).frameForward f).rc = _
        rw [he]
        cases f.body <;> rfl
    · have he := frameForward_passed (s := s.advance t) (f := f) hr
      refine ⟨markDirty s ((s.advance t).frameForward f), rfl, frame_finish ?_, fun h => absurd h hr, fun _ => ?_⟩
      · rw [he]
        exact (keeps_onRc _ _).trans (keeps_passFrame _ _ _)
      · show if _ then ∃ before, _ ∧ ((s.advance t).frameForward f).rc = _ else ((s.advance t).frameForward f).rc = _
        rw [he]
        have harr : ((s.advance t).noteArrival).hubTime - BitVec.ofNat 32 0 = t := BitVec.sub_zero t
        by_cases hc : s.rc.transit = [] ∧ s.rc.outLeft - (t - s.hubTime).toNat ≤ 32
        · rw [if_pos hc, passFrame_free (s := (s.advance t).noteArrival) (b := 0) hc, cutAt_eq, harr]
          exact ⟨_, fun h => unsent_free ((s.advance t).noteArrival).rc _ h, rfl⟩
        · rw [if_neg hc, passFrame_held (s := (s.advance t).noteArrival) (b := 0) hc, holdFrame_eq, cutAt_eq, harr, cutAt_eq]
          rfl
  case release =>
    refine ⟨markDirty s (s.advance t).heldRelease, rfl, frame_finish ?_, ?_⟩
    · cases h : s.rc.transit with
      | nil => rw [heldRelease_nil (s := s.advance t) h]; exact .refl _ _
      | cons x rest =>
        rw [heldRelease_cons (s := s.advance t) h]
        exact Keeps.ite (keeps_onRc _ _) (.refl _ _)
    · show (s.advance t).heldRelease.rc = _
      split
      next h => rw [heldRelease_nil (s := s.advance t) h]; rfl
      next x rest h =>
        rw [heldRelease_cons (s := s.advance t) h]
        by_cases h0 : s.rc.outLeft - (t - s.hubTime).toNat = 0
        · rw [if_pos h0, if_pos (show (s.advance t).rc.outLeft = 0 from h0)]; rfl
        · rw [if_neg h0, if_neg (show ¬ (s.advance t).rc.outLeft = 0 from h0)]; rfl

end

section
namespace Sys2Proof.Machine
/-! SUPPORT. The removal of a data frame: which hub examines it, what its addresses make of it, and its delivery. -/

variable {s : State} {t : HubTime}

theorem examines_advance (s : State) (t : HubTime) (length : Nat) :
    (s.advance t).examines length = true ↔ s.takesData t length := by
  unfold State.examines State.takesData
  rw [Bool.or_eq_true]
  refine or_congr decide_eq_true_iff ?_
  show ((s.rc.inbound.filter (fun a => decide (a.start = t - BitVec.ofNat 32 (2 * length)))).any fun a => a.running) = true ↔ _
  cases s.rc.inbound with
  | none => simp
  | some a =>
    obtain ⟨start, running, comp⟩ := a
    by_cases h : start = t - BitVec.ofNat 32 (2 * length) <;> simp [Option.filter, h]

/-- A delivered payload acts as its row. -/
theorem exec_deliveryRow (s : State) (t : HubTime) (src : Nat) (p : DataPayload) :
    exec (deliveryRow t src p) s = finish s ((s.advance t).deliverFrom src p.bytes.length (fun s => s.handPayload src p)) := by
  have row : ∀ (n : Nat) {e : Host.Outcome State Fault Refusal}, p.bytes.length = n →
      e = finish s ((s.advance t).deliverFrom src n (fun s => s.handPayload src p)) →
      e = finish s ((s.advance t).deliverFrom src p.bytes.length (fun s => s.handPayload src p)) := by
    rintro n e rfl h; exact h
  cases p with
  | edit ref slot amount => exact row 7 rfl rfl
  | editReply ref st amount serial => exact row 9 rfl rfl
  | imageBegin f =>
    have hs : (stampBytes f.stamp).length = 6 := by cases f.stamp <;> simp [stampBytes, beBytes_length]
    exact row 21 (by simp [DataPayload.bytes, beBytes_length, hs]) rfl
  | imageReply strip number st rx => exact row 7 rfl rfl
  | imageSegment strip number seg count bytes =>
    exact row (8 + bytes.length) (by simp [DataPayload.bytes, beBytes_length]; omega) rfl
  | imageAbort d strip number reason =>
    cases d <;> exact row 6 rfl rfl
  | subscribe view sub kind index rate => exact row 6 rfl rfl
  | subscribeReply view sub st => exact row 4 rfl rfl
  | unsubscribe view sub => exact row 3 rfl rfl
  | viewUpdate view sub content => rfl

/-- A frame that the hub examines, with known and distinct addresses. -/
theorem dataPassage_good {n h dst src : Nat} (hn : s.rc.hubCount = some n) (ha : s.rc.hubAddress = some h)
    (hd : dst < n) (hs : src < n) (hne : dst ≠ src) : s.dataPassage true dst src =
      if dst = h then .deliver else if src = h then .unclaimed else .forward := by
  have kd : s.knownHub dst = true := by simp [State.knownHub, hn, hd]
  have ks : s.knownHub src = true := by simp [State.knownHub, hn, hs]
  have own : ∀ x, s.ownAddress x = decide (x = h) := fun x => by simp [State.ownAddress, ha, eq_comm]
  unfold State.dataPassage
  rw [if_pos rfl, if_neg (by simp [kd, ks, hne]), own, own]
  simp only [decide_eq_true_eq]

theorem dataPassage_bad {n dst src : Nat} (hn : s.rc.hubCount = some n) (h : n ≤ dst ∨ n ≤ src ∨ dst = src) :
    s.dataPassage true dst src = .badAddress := by
  unfold State.dataPassage
  refine (if_pos rfl).trans (if_pos ?_)
  simpa [State.knownHub, hn] using h

theorem removeData_passage (s : State) (f : Inbound DataFields) (q : Passage)
    (h : s.dataPassage (s.examines f.length) f.fields.dst f.fields.src = q) : s.removeData f =
      if q = .badAddress then s.countCorrupt else if q = .unclaimed then s.discardOwn f
      else if q = .deliver then s.deliverData f else s := by
  unfold State.removeData
  rw [h]
  cases q <;> rfl

theorem deliverData_discarded {f : Inbound DataFields}
    (h : dataCorrupt f = true ∨ payloadFits f.fields.kind f.fields.payload = false) : s.deliverData f = s.countCorrupt := by
  unfold State.deliverData
  by_cases hc : dataCorrupt f = true
  · exact if_pos hc
  · rw [if_neg hc, readPayload, if_neg (by rw [h.resolve_left hc]; exact Bool.false_ne_true)]

theorem deliverData_whole {f : Inbound DataFields} (hc : dataCorrupt f = false)
    (hf : payloadFits f.fields.kind f.fields.payload = true) : s.deliverData f =
      s.whenRunning (fun s => s.handPayload f.fields.src (payloadFields f.fields.kind f.fields.payload)) := by
  unfold State.deliverData
  rw [if_neg (by rw [hc]; exact Bool.false_ne_true), readPayload, if_pos hf]

theorem discardOwn_rc (s : State) (f : Inbound DataFields) : s.discardOwn f = s.onRc (fun r =>
    { r with undeliverableCount := if f.crcGood then satInc r.undeliverableCount else r.undeliverableCount
             corruptCount := if dataCorrupt f then satInc r.corruptCount else r.corruptCount }) := by
  unfold State.discardOwn
  cases f.crcGood <;> cases dataCorrupt f <;> rfl

/-- A command that changes nothing but hub time. -/
theorem finish_idle (s : State) (t : HubTime) : s.frame (markDirty s (s.advance t)) t [] := frame_finish (.refl _ _)

/-- A command that changes the Ring Controller alone. -/
theorem finish_onRc (s : State) (t : HubTime) (f : RC → RC) :
    s.frame (markDirty s ((s.advance t).onRc f)) t [.rc] := frame_finish (keeps_onRc _ _)

end Sys2Proof.Machine

open Sys2Proof Sys2Proof.Machine

/-- Settles O15: the addresses decide what an examined frame is, and a whole one for the hub is handed to its block. -/
theorem dataFrameRemoval : Obligations.DataFrameRemoval := by
  refine ⟨?idle, ?delivered, ?counted⟩
  case idle =>
    intro s t f h
    refine ⟨markDirty s ((s.advance t).removeData f), rfl, ?_⟩
    have he : (s.advance t).examines f.length = false := by
      rw [← Bool.not_eq_true, examines_advance]; exact h
    have hp := removeData_passage (s.advance t) f _ rfl
    rw [he, dataPassage_not_running] at hp
    have : (s.advance t).removeData f = s.advance t := by
      rw [hp]; split <;> rfl
    rw [this]
    exact finish_idle s t
  case delivered =>
    intro s t src h n p hw hlen ht hn ha hh hs hne
    have he : (s.advance t).examines (9 + p.bytes.length) = true := (examines_advance s t _).2 ht
    have hp := removeData_passage (s.advance t) ⟨⟨p.kind, h, src, p.bytes.length, p.bytes⟩, 9 + p.bytes.length, true⟩ _ rfl
    rw [he, dataPassage_good (s := s.advance t) hn ha hh hs (Ne.symm hne), if_pos rfl] at hp
    have hc : dataCorrupt ⟨⟨p.kind, h, src, p.bytes.length, p.bytes⟩, 9 + p.bytes.length, true⟩ = false := by
      simp [dataCorrupt, frameCorrupt, bodyLength, hlen]
    have hg : (s.advance t).goodSource src = true := by
      have : ¬ h = src := fun e => hne e.symm
      simp [State.goodSource, State.knownHub, State.ownAddress, State.advance, hn, ha, hs, this]
    rw [exec_deliveryRow]
    show finish s ((s.advance t).removeData _) = _
    rw [hp]
    show finish s ((s.advance t).deliverData _) = _
    rw [deliverData_whole hc (payloadFits_bytes hw), payloadFields_bytes hw]
    unfold State.deliverFrom
    rw [if_neg (by rw [he]; exact Bool.false_ne_true.symm), if_pos hg]
  case counted =>
    intro s t f n h ht hn ha hh
    have he : (s.advance t).examines f.length = true := (examines_advance s t _).2 ht
    have hp := removeData_passage (s.advance t) f _ rfl
    rw [he] at hp
    refine ⟨markDirty s ((s.advance t).removeData f), rfl, ?bad, ?own, ?corrupt, ?late, ?others⟩
    case bad =>
      intro hb
      rw [dataPassage_bad (s := s.advance t) hn hb] at hp
      rw [hp]
      exact ⟨finish_onRc s t _, rfl⟩
    case own =>
      intro h1 h2 h3
      rw [dataPassage_good (s := s.advance t) hn ha h2 (by omega) (by omega), if_neg h3, if_pos h1] at hp
      rw [hp]
      show s.frame (markDirty s ((s.advance t).discardOwn f)) t [.rc] ∧ ((s.advance t).discardOwn f).rc = _
      rw [discardOwn_rc]
      exact ⟨finish_onRc s t _, rfl⟩
    case corrupt =>
      intro h1 h2 h3 hc
      rw [dataPassage_good (s := s.advance t) hn ha (by omega) h2 (by omega), if_pos h1] at hp
      rw [hp]
      show s.frame (markDirty s ((s.advance t).deliverData f)) t [.rc] ∧ ((s.advance t).deliverData f).rc = _
      rw [deliverData_discarded hc]
      exact ⟨finish_onRc s t _, rfl⟩
    case late =>
      intro h1 h2 h3 hc hf hr
      rw [dataPassage_good (s := s.advance t) hn ha (by omega) h2 (by omega), if_pos h1] at hp
      rw [hp]
      show s.frame (markDirty s ((s.advance t).deliverData f)) t []
      rw [deliverData_whole hc hf]
      unfold State.whenRunning
      rw [if_neg (show ¬ (s.advance t).running = true from fun e => hr (of_decide_eq_true e))]
      exact finish_idle s t
    case others =>
      intro h1 h2 h3 h4 h5
      rw [dataPassage_good (s := s.advance t) hn ha h1 h2 h3, if_neg h4, if_neg h5] at hp
      rw [hp]
      exact finish_idle s t

end

section
/-! SUPPORT. What a port owes, as a debt that is nought under the law of the ports, and what every piece of work keeps. -/

namespace Sys2Proof.Machine

/-! ### What a port owes -/

/-- Requests outstanding at a port less responses ready and requests that wait, for each tag. -/
abbrev Debt := PortNo → Tag → Int

/-- One request more is outstanding, or one less is ready or waiting. -/
noncomputable def owe (p : PortNo) (g : Tag) : Debt := fun q h => if q = p ∧ h = g then 1 else 0

/-- How often a tag is owed at a port: as a ready response, or in a waiting request, fence or nudge. -/
noncomputable def State.owes (s : State) (p : PortNo) (g : Tag) : Nat :=
  (s.port p).responses.countP (fun r => r.tag == g) + s.se.waiting.countP (fun w => w.port == p && w.tag == g)
    + s.se.fences.countP (fun f => f.port == p && f.tag == g) + s.vu.nudges.countP (fun n => n.port == p && n.tag == g)

/-- What is outstanding less what is owed. -/
noncomputable def State.debt (s : State) : Debt := fun p g =>
  (if (s.port p).outstanding.getLsbD g then 1 else 0) - (s.owes p g : Int)

theorem count_owedTags (s : State) (p : PortNo) (g : Tag) : (s.owedTags p).count g = s.owes p g := by
  simp only [State.owedTags, State.owes, List.count_eq_countP, List.countP_append, List.countP_map, List.countP_filter,
    Function.comp_def, Bool.and_comm]

theorem count_openTags (s : State) (p : PortNo) (g : Tag) :
    (s.openTags p).count g = if (s.port p).outstanding.getLsbD g then 1 else 0 := by
  have hn : (s.openTags p).Nodup := (List.nodup_finRange 4).filter _
  rw [hn.count]
  simp [State.openTags]

/-- The law of R177 says that no port owes more or less than is outstanding. -/
theorem portLaw_iff (s : State) : s.portLaw = true ↔ s.debt = 0 := by
  simp only [State.portLaw, List.all_eq_true, List.mem_finRange, forall_const, decide_eq_true_eq, List.perm_iff_count,
    count_owedTags, count_openTags]
  constructor
  · intro h
    funext p g
    have := h p g
    simp only [State.debt, Pi.zero_apply]
    split <;> simp_all
  · intro h p g
    have := congrFun (congrFun h p) g
    simp only [State.debt, Pi.zero_apply] at this
    split at this <;> simp_all
    omega

/-! ### What every piece of work keeps -/

/-- What a GET in progress fixed at a port is the response at the head of its queue. -/
def Port.getGood (q : Port) : Prop := ∀ f r, q.getting = some f → f.response = some r → q.responses.head? = some r

/-- A port keeps its tags outstanding, role and enabled set, loses no notice and no ready response, and a GET in progress stays good. -/
structure PortKept (q q' : Port) : Prop where
  tags : q'.outstanding = q.outstanding
  role : q'.role = q.role
  enabled : q'.enabled = q.enabled
  pending : ∀ i, q.pending.getLsbD i = true → q'.pending.getLsbD i = true
  responses : q.responses <+: q'.responses
  get : q.getGood → q'.getGood

theorem PortKept.refl (q : Port) : PortKept q q := ⟨rfl, rfl, rfl, fun _ h => h, List.prefix_rfl, id⟩

theorem PortKept.trans {q q' q'' : Port} (h : PortKept q q') (h' : PortKept q' q'') : PortKept q q'' :=
  ⟨h'.tags.trans h.tags, h'.role.trans h.role, h'.enabled.trans h.enabled, fun i hi => h'.pending i (h.pending i hi),
    h.responses.trans h'.responses, fun g => h'.get (h.get g)⟩

/-- The laws of the Shaft Unit are kept. -/
structure ShaftKept (u u' : SU) : Prop where
  gen : u.gen.lawful = true → u'.gen.lawful = true
  rates : u.gen.ratesInRange = true → u'.gen.ratesInRange = true
  history : u.tracker.bounded = true → u'.tracker.bounded = true

theorem ShaftKept.refl (u : SU) : ShaftKept u u := ⟨id, id, id⟩

theorem ShaftKept.trans {u u' u'' : SU} (h : ShaftKept u u') (h' : ShaftKept u' u'') : ShaftKept u u'' :=
  ⟨h'.gen ∘ h.gen, h'.rates ∘ h.rates, h'.history ∘ h.history⟩

/-- A section meets the laws of its trim, its list and its gear. -/
structure Section.lawful (x : Section) : Prop where
  trim : x.tt.natAbs ≤ x.tmax
  list : x.posted.length ≤ 8
  gear : x.gearGood = true

/-- Every section stays lawful. -/
def SectionsKept (e e' : SE) : Prop := (∀ i, (e.slots.get i).lawful) → ∀ i, (e'.slots.get i).lawful

/-- The laws of the store are kept. -/
structure StoreKept (s s' : State) : Prop where
  law : s.storeLaw = true → s'.storeLaw = true
  freeze : s.storeLaw = true → s.freezeLaw = true → s'.freezeLaw = true

theorem StoreKept.refl (s : State) : StoreKept s s := ⟨id, fun _ => id⟩

theorem StoreKept.trans {s s' s'' : State} (h : StoreKept s s') (h' : StoreKept s' s'') : StoreKept s s'' :=
  ⟨h'.law ∘ h.law, fun l f => h'.freeze (h.law l) (h.freeze l f)⟩

/-- A piece of work keeps hub time, straps, queue and routes, and the laws of every block but those of the trip states; what is
outstanding and not owed has grown by `d`; a change of ring state has given notice RING. -/
structure Sound (d : Debt) (s s' : State) : Prop where
  time : s'.hubTime = s.hubTime
  straps : s'.straps = s.straps
  queue : s'.pending = s.pending
  routes : s'.cp.routes = s.cp.routes
  ports : ∀ p, PortKept (s.port p) (s'.port p)
  debt : s'.debt = s.debt + d
  shaft : ShaftKept s.su s'.su
  sections : SectionsKept s.se s'.se
  store : StoreKept s s'
  ring : s'.rc.ringState = s.rc.ringState
    ∨ ∀ p : PortNo, s.cp.routes.ring.getLsbD p = true → (s'.port p).pending.getLsbD 7 = true

theorem Sound.trans {d e : Debt} {s a b : State} (h : Sound d s a) (h' : Sound e a b) : Sound (d + e) s b where
  time := h'.time.trans h.time
  straps := h'.straps.trans h.straps
  queue := h'.queue.trans h.queue
  routes := h'.routes.trans h.routes
  ports p := (h.ports p).trans (h'.ports p)
  debt := by rw [h'.debt, h.debt, add_assoc]
  shaft := h.shaft.trans h'.shaft
  sections := h'.sections ∘ h.sections
  store := h.store.trans h'.store
  ring := by
    rcases h'.ring with e | n
    · rcases h.ring with e' | n'
      · exact Or.inl (e.trans e')
      · exact Or.inr (fun p hp => (h'.ports p).pending 7 (n' p hp))
    · exact Or.inr (fun p hp => n p (by rw [h.routes]; exact hp))

/-- The laws of the trip states are kept; LOCKOUT stays, and so does a master's CONFLICT without a roster timer. -/
structure TripKept (s s' : State) : Prop where
  law : s.tripLaw = true → s'.tripLaw = true
  causes : s.causesLaw = true → s'.causesLaw = true
  lockout : s.tu.state = .lockout → s'.tu.state = .lockout
  conflict : s.isMaster = true → s.rc.rosterTimer = none → s.rc.ringState = .conflict →
    s'.isMaster = true ∧ s'.rc.rosterTimer = none ∧ s'.rc.ringState = .conflict

theorem TripKept.trans {s a b : State} (h : TripKept s a) (h' : TripKept a b) : TripKept s b where
  law := h'.law ∘ h.law
  causes := h'.causes ∘ h.causes
  lockout := h'.lockout ∘ h.lockout
  conflict m r c := by
    obtain ⟨m', r', c'⟩ := h.conflict m r c
    exact h'.conflict m' r' c'

/-- At a master the law of the census timer is kept, LOST is not entered, and in LOST a stopped timer stays so and the census
number with it. -/
structure CensusKept (s s' : State) : Prop where
  master : s'.isMaster = s.isMaster
  stays : s.isMaster = true → s'.rc.ringState = .lost → s.rc.ringState = .lost
  law : s.isMaster = true → s.censusLaw = true → s'.censusLaw = true
  number : s.isMaster = true → s.censusLaw = true → s.rc.censusTimer = none → s'.rc.ringState = .lost →
    s'.rc.censusTimer = none ∧ s'.rc.censusNumber = s.rc.censusNumber

theorem CensusKept.trans {s a b : State} (h : CensusKept s a) (h' : CensusKept a b) : CensusKept s b := by
  have hm : s.isMaster = true → a.isMaster = true := fun m => h.master.trans m
  refine ⟨h'.master.trans h.master, fun m e => h.stays m (h'.stays (hm m) e), fun m l => h'.law (hm m) (h.law m l), ?_⟩
  intro m l t e
  obtain ⟨t1, n1⟩ := h.number m l t (h'.stays (hm m) e)
  obtain ⟨t2, n2⟩ := h'.number (hm m) (h.law m l) t1 e
  exact ⟨t2, n2.trans n1⟩

/-- A piece of work that keeps the laws of the device. -/
structure Lawful (d : Debt) (s s' : State) : Prop where
  sound : Sound d s s'
  trip : TripKept s s'
  census : CensusKept s s'

theorem Lawful.trans {d e : Debt} {s a b : State} (h : Lawful d s a) (h' : Lawful e a b) : Lawful (d + e) s b :=
  ⟨h.sound.trans h'.sound, h.trip.trans h'.trip, h.census.trans h'.census⟩

end Sys2Proof.Machine

end

section
/-! SUPPORT. Updates of one block keep the laws. -/

namespace Sys2Proof.Machine

variable {s : State}

theorem Sound.refl (s : State) : Sound 0 s s :=
  ⟨rfl, rfl, rfl, rfl, fun _ => .refl _, (add_zero _).symm, .refl _, id, .refl _, .inl rfl⟩

theorem TripKept.refl (s : State) : TripKept s s := ⟨id, id, id, fun m r c => ⟨m, r, c⟩⟩

theorem CensusKept.refl (s : State) : CensusKept s s := ⟨rfl, fun _ => id, fun _ => id, fun _ _ t _ => ⟨t, rfl⟩⟩

theorem Lawful.refl (s : State) : Lawful 0 s s := ⟨.refl s, .refl s, .refl s⟩

theorem Lawful.then {a b : State} (h : Lawful 0 s a) (h' : Lawful 0 a b) : Lawful 0 s b := by simpa using h.trans h'

theorem Sound.then {a b : State} (h : Sound 0 s a) (h' : Sound 0 a b) : Sound 0 s b := by simpa using h.trans h'

theorem Lawful.foldl {α : Type} {f : State → α → State} (hf : ∀ s x, Lawful 0 s (f s x)) (xs : List α) (s : State) :
    Lawful 0 s (xs.foldl f s) := by
  induction xs generalizing s with
  | nil => exact .refl s
  | cons x xs ih => exact (hf s x).then (ih _)

theorem Lawful.ite {d : Debt} {a b : State} {c : Prop} [Decidable c] (ha : c → Lawful d s a) (hb : ¬ c → Lawful d s b) :
    Lawful d s (if c then a else b) := by
  split
  · exact ha ‹_›
  · exact hb ‹_›

/-- A block's lawful work on a request that it answers at once. -/
structure Replied (s : State) (r : State × Reply) : Prop where
  work : Lawful 0 s r.1
  answered : r.2.isSome = true

theorem Lawful.replied {a : State} (h : Lawful 0 s a) (x : Status × List Byte) : Replied s (a, some x) := ⟨h, rfl⟩

theorem Replied.same (s : State) (x : Status × List Byte) : Replied s (s, some x) := ⟨.refl s, rfl⟩

theorem Replied.ite {r r' : State × Reply} {c : Prop} [Decidable c] (h : c → Replied s r) (h' : ¬ c → Replied s r') :
    Replied s (if c then r else r') := by
  split
  · exact h ‹_›
  · exact h' ‹_›

/-- A request that its block refuses under a condition, and else works on. -/
theorem Replied.refusing {x : Status × List Byte} {r : State × Reply} {c : Prop} [Decidable c] (h : ¬ c → Replied s r) :
    Replied s (if c then (s, some x) else r) := .ite (fun _ => .same s x) h

/-! ### Updates of one block -/

theorem lawful_onRu (s : State) (f : RU → RU) : Lawful 0 s (s.onRu f) :=
  ⟨⟨rfl, rfl, rfl, rfl, fun _ => .refl _, (add_zero _).symm, .refl _, id, ⟨id, fun _ => id⟩, .inl rfl⟩,
    ⟨id, id, id, fun m r c => ⟨m, r, c⟩⟩, ⟨rfl, fun _ => id, fun _ => id, fun _ _ t _ => ⟨t, rfl⟩⟩⟩

theorem lawful_onMs (s : State) (f : MS → MS) : Lawful 0 s (s.onMs f) :=
  ⟨⟨rfl, rfl, rfl, rfl, fun _ => .refl _, (add_zero _).symm, .refl _, id, ⟨id, fun _ => id⟩, .inl rfl⟩,
    ⟨id, id, id, fun m r c => ⟨m, r, c⟩⟩, ⟨rfl, fun _ => id, fun _ => id, fun _ _ t _ => ⟨t, rfl⟩⟩⟩

/-- Who waits with which tag for the answer to a remote nudge. -/
noncomputable def VU.owed (u : VU) : List (PortNo × Tag) := u.nudges.map (fun n => (n.port, n.tag))

/-- What a port owes, with the nudges read as ports and tags. -/
theorem owes_eq (s : State) (p : PortNo) (g : Tag) : s.owes p g =
    (s.port p).responses.countP (fun r => r.tag == g) + s.se.waiting.countP (fun w => w.port == p && w.tag == g)
      + s.se.fences.countP (fun f => f.port == p && f.tag == g) + s.vu.owed.countP (fun n => n.1 == p && n.2 == g) := by
  simp only [State.owes, VU.owed, List.countP_map, Function.comp_def]

theorem debt_congr {a b : State} (ho : ∀ p, (b.port p).outstanding = (a.port p).outstanding)
    (hr : ∀ p, (b.port p).responses = (a.port p).responses) (hw : b.se.waiting = a.se.waiting)
    (hf : b.se.fences = a.se.fences) (hn : b.vu.owed = a.vu.owed) : b.debt = a.debt := by
  funext p g
  simp only [State.debt, owes_eq, ho, hr, hw, hf, hn]

/-- A change of the View Unit that leaves who waits for a nudge. -/
theorem lawful_onVu (s : State) (f : VU → VU) (h : (f s.vu).owed = s.vu.owed) : Lawful 0 s (s.onVu f) :=
  ⟨⟨rfl, rfl, rfl, rfl, fun _ => .refl _, by rw [add_zero]; exact debt_congr (fun _ => rfl) (fun _ => rfl) rfl rfl h,
      .refl _, id, ⟨id, fun _ => id⟩, .inl rfl⟩,
    ⟨id, id, id, fun m r c => ⟨m, r, c⟩⟩, ⟨rfl, fun _ => id, fun _ => id, fun _ _ t _ => ⟨t, rfl⟩⟩⟩

/-- A change of the Ring Controller that leaves the ring state, the timers of census and roster, and the census number. -/
structure RC.Calm (r r' : RC) : Prop where
  ring : r'.ringState = r.ringState
  roster : r'.rosterTimer = r.rosterTimer
  census : r'.censusTimer = r.censusTimer
  number : r'.censusNumber = r.censusNumber

theorem censusLaw_congr {a b : State} (hm : b.isMaster = a.isMaster) (hr : b.rc.ringState = a.rc.ringState)
    (hc : b.rc.censusTimer = a.rc.censusTimer)
    (hh : a.isMaster = true → a.rc.ringState = .lost → b.reformationHolds = a.reformationHolds) :
    b.censusLaw = a.censusLaw := by
  simp only [State.censusLaw, hm, hr, hc]
  cases hm' : a.isMaster
  · rfl
  · cases hr' : a.rc.ringState <;> try rfl
    exact congrArg (fun x => _ || a.rc.censusTimer.isSome == x) (hh hm' hr')

theorem lawful_onRc (s : State) (f : RC → RC) (h : RC.Calm s.rc (f s.rc)) : Lawful 0 s (s.onRc f) := by
  refine ⟨⟨rfl, rfl, rfl, rfl, fun _ => .refl _, (add_zero _).symm, .refl _, id, ⟨id, fun _ => id⟩, .inl h.ring⟩,
    ⟨id, id, id, fun m r c => ⟨m, h.roster.trans r, h.ring.trans c⟩⟩,
    ⟨rfl, fun _ e => h.ring.symm.trans e, fun _ l => ?_, fun _ _ t _ => ⟨h.census.trans t, h.number⟩⟩⟩
  rw [censusLaw_congr (b := s.onRc f) (a := s) rfl h.ring h.census (fun _ _ => rfl)]
  exact l

/-- A change of the Trip Unit that leaves its state, its causes, the matrix and the carried class. -/
structure TU.Calm (t t' : TU) : Prop where
  state : t'.state = t.state
  causes : t'.causes = t.causes
  matrix : t'.matrix = t.matrix
  carried : t'.carried = t.carried

theorem effectiveClass_congr {a b : State} (h : TU.Calm a.tu b.tu) : b.effectiveClass = a.effectiveClass := by
  simp only [State.effectiveClass, State.ownClass, State.latchedClass, h.state, h.causes, h.matrix, h.carried]

theorem sound_onTu (s : State) (f : TU → TU) : Sound 0 s (s.onTu f) :=
  ⟨rfl, rfl, rfl, rfl, fun _ => .refl _, (add_zero _).symm, .refl _, id, ⟨id, fun _ => id⟩, .inl rfl⟩

theorem tripLaw_congr {a b : State} (h : TU.Calm a.tu b.tu)
    (hs : ∀ i, (b.slot i).state = (a.slot i).state) : b.tripLaw = a.tripLaw := by
  have hn : b.noneCoupled = a.noneCoupled := by
    rw [Bool.eq_iff_iff]
    simp only [State.noneCoupled, Table.all_list]
    exact forall_congr' (fun i => by rw [show (b.se.slots.get i).state = _ from hs i]; rfl)
  have ha : b.allReleased = a.allReleased := by
    rw [Bool.eq_iff_iff]
    simp only [State.allReleased, Table.all_list]
    exact forall_congr' (fun i => by rw [show (b.se.slots.get i).state = _ from hs i]; rfl)
  simp only [State.tripLaw, effectiveClass_congr h, h.state, hn, ha]

theorem lawful_onTu (s : State) (f : TU → TU) (h : TU.Calm s.tu (f s.tu)) : Lawful 0 s (s.onTu f) := by
  refine ⟨sound_onTu s f, ⟨fun l => ?_, fun l => ?_, h.state.trans, fun m r c => ⟨m, r, c⟩⟩,
    ⟨rfl, fun _ => id, fun _ l => ?_, fun _ _ t _ => ⟨t, rfl⟩⟩⟩
  · rw [tripLaw_congr (a := s) (b := s.onTu f) h (fun _ => rfl)]; exact l
  · simpa only [State.causesLaw, State.onTu_tu, h.causes] using l
  · rw [censusLaw_congr (a := s) (b := s.onTu f) rfl rfl rfl]
    · exact l
    · intro _ _; simp only [State.reformationHolds, State.onTu_su, State.onTu_tu, h.state]

/-- A change of the store, the mover and the scanner alone. -/
theorem lawful_store {a : State} (h : Keeps [.is, .im, .ms] s a) (hs : StoreKept s a) : Lawful 0 s a := by
  obtain ⟨ht, hst, hp, hb⟩ := h
  have rc : a.rc = s.rc := hb .rc (by decide)
  have su : a.su = s.su := hb .su (by decide)
  have se : a.se = s.se := hb .se (by decide)
  have tu : a.tu = s.tu := hb .tu (by decide)
  have vu : a.vu = s.vu := hb .vu (by decide)
  have cp : a.cp = s.cp := hb .cp (by decide)
  have hm : a.isMaster = s.isMaster := by simp only [State.isMaster, hst]
  have port : ∀ p, a.port p = s.port p := fun p => by simp only [State.port, cp]
  have calm : TU.Calm s.tu a.tu := by rw [tu]; exact ⟨rfl, rfl, rfl, rfl⟩
  refine ⟨⟨ht, hst, hp, by rw [cp], fun p => by rw [port p]; exact .refl _, ?_, by rw [su]; exact .refl _,
    by rw [se]; exact id, hs, .inl (by rw [rc])⟩, ⟨fun l => ?_, fun l => ?_, ?_, ?_⟩, ⟨hm, ?_, fun m l => ?_, ?_⟩⟩
  · rw [add_zero]
    exact debt_congr (fun p => by rw [port p]) (fun p => by rw [port p]) (by rw [se]) (by rw [se]) (by rw [vu])
  · rw [tripLaw_congr (a := s) calm (fun i => by simp only [State.slot, se])]; exact l
  · simpa only [State.causesLaw, tu] using l
  · rw [tu]; exact id
  · rw [rc, hm]; exact fun m r c => ⟨m, r, c⟩
  · rw [rc]; exact fun _ => id
  · rw [censusLaw_congr (a := s) hm (by rw [rc]) (by rw [rc]) (fun _ _ => by simp only [State.reformationHolds, su, tu])]
    exact l
  · rw [rc]; exact fun _ _ t _ => ⟨t, rfl⟩

/-- A change of the Shaft Unit that keeps its laws, and the flags of a tracker at a LOST master. -/
theorem sound_onSu (s : State) (f : SU → SU) (h : ShaftKept s.su (f s.su)) : Sound 0 s (s.onSu f) :=
  ⟨rfl, rfl, rfl, rfl, fun _ => .refl _, (add_zero _).symm, h, id, ⟨id, fun _ => id⟩, .inl rfl⟩

theorem tripKept_onSu (s : State) (f : SU → SU) : TripKept s (s.onSu f) := ⟨id, id, id, fun m r c => ⟨m, r, c⟩⟩

theorem lawful_onSu (s : State) (f : SU → SU) (h : ShaftKept s.su (f s.su))
    (hr : s.isMaster = true → s.rc.ringState = .lost → (f s.su).tracker.flags = s.su.tracker.flags) :
    Lawful 0 s (s.onSu f) := by
  refine ⟨sound_onSu s f h, tripKept_onSu s f, ⟨rfl, fun _ => id, fun _ l => ?_, fun _ _ t _ => ⟨t, rfl⟩⟩⟩
  rw [censusLaw_congr (a := s) (b := s.onSu f) rfl rfl rfl]
  · exact l
  · intro m e
    unfold State.reformationHolds
    rw [State.onSu_su, hr m e]
    rfl

/-! ### Sections -/

/-- The state of a section may stand in `s'` where it stood as `x` in `s`: none is COUPLED under QUICK or COAST in a trip, none
that is VACANT or RELEASED is anything else in LOCKOUT. -/
structure StateKept (s : State) (x y : SectionState) : Prop where
  coupled : y = .coupled → x = .coupled ∨ ¬ (s.effectiveClass.quickOrAbove = true ∧ s.tu.state.acting = true)
  released : s.tu.state = .lockout → (x = .vacant ∨ x = .released) → (y = .vacant ∨ y = .released)

theorem StateKept.refl (s : State) (x : SectionState) : StateKept s x x := ⟨fun h => .inl h, fun _ h => h⟩

theorem tripLaw_iff (s : State) : s.tripLaw = true ↔
    (s.effectiveClass.quickOrAbove = true → s.tu.state.acting = true → ∀ i, (s.slot i).state ≠ .coupled)
      ∧ (s.tu.state = .lockout → ∀ i, (s.slot i).state = .vacant ∨ (s.slot i).state = .released) := by
  simp only [State.tripLaw, State.noneCoupled, State.allReleased, State.slot]
  rw [Bool.and_eq_true, Bool.or_eq_true, Bool.or_eq_true, Table.all_list, Table.all_list]
  simp only [Bool.not_eq_true', Bool.and_eq_false_iff, decide_eq_true_eq, decide_eq_false_iff_not, Bool.or_eq_true]
  constructor
  · rintro ⟨h1, h2⟩
    exact ⟨fun q a => h1.resolve_left (by simp [q, a]), fun l => h2.resolve_left (by simp [l])⟩
  · rintro ⟨h1, h2⟩
    refine ⟨?_, ?_⟩
    · cases hq : s.effectiveClass.quickOrAbove
      · exact .inl (.inl rfl)
      · cases ha : s.tu.state.acting
        · exact .inl (.inr rfl)
        · exact .inr (h1 hq ha)
    · by_cases hl : s.tu.state = .lockout
      · exact .inr (h2 hl)
      · exact .inl hl

theorem sound_onSe (s : State) (f : SE → SE) (hs : SectionsKept s.se (f s.se)) (hw : (f s.se).waiting = s.se.waiting)
    (hf : (f s.se).fences = s.se.fences) : Sound 0 s (s.onSe f) :=
  ⟨rfl, rfl, rfl, rfl, fun _ => .refl _,
    by rw [add_zero]; exact debt_congr (fun _ => rfl) (fun _ => rfl) hw hf rfl,
    .refl _, hs, ⟨id, fun _ => id⟩, .inl rfl⟩

theorem tripKept_onSe (s : State) (f : SE → SE)
    (h : ∀ i, StateKept s (s.slot i).state ((f s.se).slots.get i).state) : TripKept s (s.onSe f) := by
  refine ⟨fun l => ?_, id, id, fun m r c => ⟨m, r, c⟩⟩
  rw [tripLaw_iff] at l ⊢
  refine ⟨fun q a i e => ?_, fun k i => (h i).released k (l.2 k i)⟩
  rcases (h i).coupled e with c | n
  · exact l.1 q a i c
  · exact n ⟨q, a⟩

theorem censusKept_onSe (s : State) (f : SE → SE) : CensusKept s (s.onSe f) :=
  ⟨rfl, fun _ => id, fun _ => id, fun _ _ t _ => ⟨t, rfl⟩⟩

/-- A change of the sections that keeps their laws, and leaves who waits. -/
theorem lawful_onSe (s : State) (f : SE → SE) (hs : SectionsKept s.se (f s.se)) (hw : (f s.se).waiting = s.se.waiting)
    (hf : (f s.se).fences = s.se.fences) (h : ∀ i, StateKept s (s.slot i).state ((f s.se).slots.get i).state) :
    Lawful 0 s (s.onSe f) :=
  ⟨sound_onSe s f hs hw hf, tripKept_onSe s f h, censusKept_onSe s f⟩

/-- A change of one section that keeps its laws. -/
theorem lawful_onSlot (s : State) (i : SlotNo) (f : Section → Section) (hl : (s.slot i).lawful → (f (s.slot i)).lawful)
    (h : StateKept s (s.slot i).state (f (s.slot i)).state) : Lawful 0 s (s.onSlot i f) := by
  have get : ∀ j, (s.onSlot i f).slot j = if i = j then f (s.slot i) else s.slot j := fun j => slot_onSlot s i j f
  refine lawful_onSe s _ (fun l j => ?_) rfl rfl (fun j => ?_)
  · show ((s.onSlot i f).slot j).lawful
    rw [get j]; split
    · exact hl (l i)
    · exact l j
  · show StateKept s (s.slot j).state ((s.onSlot i f).slot j).state
    rw [get j]; split
    · subst j; exact h
    · exact .refl s _

/-! ### Ports -/

/-- A change of one port that keeps it and its responses and tags outstanding. -/
theorem lawful_onPort (s : State) (p : PortNo) (f : Port → Port) (h : PortKept (s.port p) (f (s.port p)))
    (ho : (f (s.port p)).outstanding = (s.port p).outstanding) (hr : (f (s.port p)).responses = (s.port p).responses) :
    Lawful 0 s (s.onPort p f) := by
  have get : ∀ q, (s.onPort p f).port q = if p = q then f (s.port p) else s.port q := fun q => port_onPort s p q f
  refine ⟨⟨rfl, rfl, rfl, rfl, fun q => ?_, ?_, .refl _, id, ⟨id, fun _ => id⟩, .inl rfl⟩,
    ⟨id, id, id, fun m r c => ⟨m, r, c⟩⟩, ⟨rfl, fun _ => id, fun _ => id, fun _ _ t _ => ⟨t, rfl⟩⟩⟩
  · rw [get q]; split
    · subst q; exact h
    · exact .refl _
  · rw [add_zero]
    refine debt_congr (fun q => ?_) (fun q => ?_) rfl rfl rfl
    · rw [get q]; split
      · subst q; exact ho
      · rfl
    · rw [get q]; split
      · subst q; exact hr
      · rfl

theorem PortKept.addNotice (q : Port) (k : Notice) : PortKept q (q.addNotice k) :=
  ⟨rfl, rfl, rfl, fun i h => by simp [Port.addNotice, h], List.prefix_rfl, id⟩

theorem lawful_notifyPort (s : State) (p : PortNo) (k : Notice) : Lawful 0 s (s.notifyPort p k) :=
  lawful_onPort s p _ (.addNotice _ k) rfl rfl

theorem lawful_frameError (s : State) (p : PortNo) : Lawful 0 s (s.frameError p) :=
  lawful_onPort s p _ ⟨rfl, rfl, rfl, (PortKept.addNotice _ _).pending, List.prefix_rfl, id⟩ rfl rfl

theorem lawful_notify (s : State) (k : Notice) : Lawful 0 s (s.notify k) := by
  have get : ∀ q, (s.notify k).port q = if (s.cp.routes.of k).getLsbD q then (s.port q).addNotice k else s.port q :=
    port_notify s k
  refine ⟨⟨rfl, rfl, rfl, rfl, fun q => ?_, ?_, .refl _, id, ⟨id, fun _ => id⟩, .inl rfl⟩,
    ⟨id, id, id, fun m r c => ⟨m, r, c⟩⟩, ⟨rfl, fun _ => id, fun _ => id, fun _ _ t _ => ⟨t, rfl⟩⟩⟩
  · rw [get q]; split
    · exact .addNotice _ k
    · exact .refl _
  · rw [add_zero]
    refine debt_congr (fun q => ?_) (fun q => ?_) rfl rfl rfl <;> (rw [get q]; split <;> rfl)

/-- A response becomes ready: one request less is owed. -/
theorem lawful_respond (s : State) (p : PortNo) (g : Tag) (st : Status) (bytes : List Byte) :
    Lawful (-owe p g) s (s.respond p g st bytes) := by
  have get : ∀ q, (s.respond p g st bytes).port q = if p = q then (s.port p).ready g st bytes else s.port q :=
    fun q => port_onPort s p q _
  refine ⟨⟨rfl, rfl, rfl, rfl, fun q => ?_, ?_, .refl _, id, ⟨id, fun _ => id⟩, .inl rfl⟩,
    ⟨id, id, id, fun m r c => ⟨m, r, c⟩⟩, ⟨rfl, fun _ => id, fun _ => id, fun _ _ t _ => ⟨t, rfl⟩⟩⟩
  · rw [get q]; split
    · subst q
      refine ⟨rfl, rfl, rfl, fun _ h => h, List.prefix_append _ _, fun h f r e e' => ?_⟩
      show ((s.port p).responses ++ _).head? = _
      rw [List.head?_append, h f r e e']; rfl
    · exact .refl _
  · funext q h
    have ho : ((s.respond p g st bytes).port q).outstanding = (s.port q).outstanding := by
      rw [get q]; split
      · subst q; rfl
      · rfl
    have hr : ((s.respond p g st bytes).port q).responses.countP (fun r => r.tag == h)
        = (s.port q).responses.countP (fun r => r.tag == h) + if q = p ∧ h = g then 1 else 0 := by
      rw [get q]
      by_cases e : p = q
      · subst q
        by_cases e : h = g
        · subst h; simp [Port.ready, List.countP_append]
        · simp [Port.ready, List.countP_append, e, Ne.symm e]
      · simp [e, Ne.symm e]
    simp only [State.debt, State.owes, ho, hr, Pi.add_apply, Pi.neg_apply, owe]
    show _ - ((_ + s.se.waiting.countP _ + s.se.fences.countP _ + s.vu.nudges.countP _ : Nat) : Int) = _
    push_cast
    ring

end Sys2Proof.Machine

end

section
/-! SUPPORT. Who waits for an answer and who is answered, and orders to the sections. -/

namespace Sys2Proof.Machine

variable {s : State}

/-! ### Who waits, and the answers -/

/-- How often each tag stands at each port in a list of those who wait. -/
noncomputable def owing (l : List (PortNo × Tag)) : Debt := fun p g => (l.countP (fun x => x.1 == p && x.2 == g) : Int)

/-- Who waits in the Section Engine. -/
noncomputable def SE.owed (e : SE) : List (PortNo × Tag) :=
  e.waiting.map (fun w => (w.port, w.tag)) ++ e.fences.map (fun f => (f.port, f.tag))

theorem owing_append (l k : List (PortNo × Tag)) : owing (l ++ k) = owing l + owing k := by
  funext p g; simp [owing]

theorem owing_cons (x : PortNo × Tag) (l : List (PortNo × Tag)) : owing (x :: l) = owing l + owe x.1 x.2 := by
  funext p g
  simp only [owing, owe, List.countP_cons, Pi.add_apply, Bool.and_eq_true, beq_iff_eq, eq_comm (a := p), eq_comm (a := g)]
  push_cast
  rfl

theorem owing_nil : owing [] = 0 := rfl

theorem owing_singleton (p : PortNo) (g : Tag) : owing [(p, g)] = owe p g := by
  rw [owing_cons, owing_nil, zero_add]

/-- Those who wait and satisfy a test, and those who do not. -/
theorem owing_filter {α : Type} (l : List α) (k : α → PortNo × Tag) (p : α → Bool) :
    owing ((l.filter p).map k) + owing ((l.filter (fun x => !p x)).map k) = owing (l.map k) := by
  induction l with
  | nil => rfl
  | cons x l ih =>
    cases h : p x <;> simp only [List.filter_cons, h, Bool.not_true, Bool.not_false, if_true, List.map_cons, owing_cons,
      Bool.false_eq_true, if_false, ← ih] <;> abel

/-- What is outstanding at a port and not ready. -/
noncomputable def Port.unready (q : Port) (g : Tag) : Int :=
  (if q.outstanding.getLsbD g then 1 else 0) - (q.responses.countP (fun r => r.tag == g) : Int)

theorem debt_eq (s : State) : s.debt = (fun p g => (s.port p).unready g) - owing s.se.owed - owing s.vu.owed := by
  funext p g
  simp only [State.debt, owes_eq, owing, SE.owed, Pi.sub_apply, List.countP_append, List.countP_map, Function.comp_def,
    Port.unready]
  push_cast
  ring

/-- A change of the sections that keeps their laws; those who wait no more have to be answered. -/
theorem lawful_onSe_owed (s : State) (f : SE → SE) {d : Debt} (hs : SectionsKept s.se (f s.se))
    (h : ∀ i, StateKept s (s.slot i).state ((f s.se).slots.get i).state)
    (hd : owing s.se.owed = owing (f s.se).owed + d) : Lawful d s (s.onSe f) := by
  refine ⟨⟨rfl, rfl, rfl, rfl, fun _ => .refl _, ?_, .refl _, hs, ⟨id, fun _ => id⟩, .inl rfl⟩, tripKept_onSe s f h,
    censusKept_onSe s f⟩
  have hp : ∀ p, (s.onSe f).port p = s.port p := fun _ => rfl
  rw [debt_eq, debt_eq, hd]
  simp only [hp, State.onSe_se, State.onSe_vu]
  abel

/-- A change of the View Unit; those who wait no more have to be answered. -/
theorem lawful_onVu_owed (s : State) (f : VU → VU) {d : Debt} (hd : owing s.vu.owed = owing (f s.vu).owed + d) :
    Lawful d s (s.onVu f) := by
  refine ⟨⟨rfl, rfl, rfl, rfl, fun _ => .refl _, ?_, .refl _, id, ⟨id, fun _ => id⟩, .inl rfl⟩,
    ⟨id, id, id, fun m r c => ⟨m, r, c⟩⟩, ⟨rfl, fun _ => id, fun _ => id, fun _ _ t _ => ⟨t, rfl⟩⟩⟩
  have hp : ∀ p, (s.onVu f).port p = s.port p := fun _ => rfl
  rw [debt_eq, debt_eq, hd]
  simp only [hp, State.onVu_se, State.onVu_vu]
  abel

/-- Several who waited are answered, in turn. -/
theorem lawful_respondAll {α : Type} (k : α → PortNo × Tag) (st : Status) (bytes : List Byte) (l : List α) (s : State) :
    Lawful (-owing (l.map k)) s (l.foldl (fun s x => s.respond (k x).1 (k x).2 st bytes) s) := by
  induction l generalizing s with
  | nil => exact .refl s
  | cons x l ih =>
    have h := (lawful_respond s (k x).1 (k x).2 st bytes).trans (ih _)
    have e : -owe (k x).1 (k x).2 + -owing (l.map k) = -owing ((x :: l).map k) := by
      rw [List.map_cons, owing_cons]; abel
    rw [← e]; exact h

theorem Lawful.answered {a b : State} {d : Debt} (h : Lawful d s a) (h' : Lawful (-d) a b) : Lawful 0 s b := by
  simpa using h.trans h'

/-! ### Sections -/

/-- A VACANT section's list is empty or begins with a change that names D. -/
def Section.opensGear (x : Section) : Prop :=
  ∀ c l, x.posted = c :: l → ∃ f, c.body = .set f ∧ f.d.isSome = true

theorem gearGood_iff (x : Section) : x.gearGood = true ↔
    (∀ c ∈ x.posted, c.gearGood = true) ∧ (x.state = .vacant → x.opensGear) ∧ (x.state ≠ .vacant → x.r < x.d) := by
  unfold Section.gearGood Section.opensGear
  rw [Bool.and_eq_true, List.all_eq_true]
  refine and_congr_right fun _ => ?_
  by_cases h : x.state = .vacant
  · simp only [h, if_true, true_imp_iff, ne_eq, not_true_eq_false, false_imp_iff, and_true]
    cases x.posted with
    | nil => simp
    | cons c l =>
      simp only [List.cons.injEq, and_imp, forall_apply_eq_imp_iff, forall_eq']
      cases hb : c.body <;> simp
  · simp [h]

/-- A section whose list and correction sum are discarded is as lawful as before. -/
theorem Section.lawful.discard {x : Section} (h : x.lawful) :
    Section.lawful { x with posted := [], corrSum := 0, corrHeld := false } := by
  obtain ⟨ht, hl, hg⟩ := h
  rw [gearGood_iff] at hg
  refine ⟨ht, by simp, (gearGood_iff _).2 ⟨by simp, fun _ => ?_, hg.2.2⟩⟩
  intro c l e; exact absurd e (by simp)

theorem lawful_discardSlots (s : State) (p : SlotNo → Bool) : Lawful 0 s (s.discardSlots p) := by
  let key : Fence → PortNo × Tag := fun f => (f.port, f.tag)
  let d := owing ((s.se.fences.filter (fun f => f.slots.any p)).map key)
  refine Lawful.answered (d := d) ?_ (lawful_respondAll key .discarded [] _ _)
  refine lawful_onSe_owed s _ (fun h i => ?_) (fun i => ?_) ?_
  · simp only [Table.get_mapIdx]; split
    · exact (h i).discard
    · exact h i
  · simp only [Table.get_mapIdx]; split <;> exact .refl s _
  · simp only [SE.owed, owing_append, d]
    rw [← owing_filter s.se.fences key (fun f => f.slots.any p)]
    simp only [key]
    abel

theorem lawful_resolveApplied (s : State) (i : SlotNo) : Lawful 0 s (s.resolveApplied i) := by
  let key : Fence → PortNo × Tag := fun f => (f.port, f.tag)
  let l := s.se.fences.map (fun f => { f with slots := f.slots.filter (fun j => j != i) })
  have hk : l.map key = s.se.fences.map key := by simp [l, key, List.map_map, Function.comp_def]
  refine Lawful.answered (d := owing ((l.filter (fun f => f.slots.isEmpty)).map key)) ?_
    (lawful_respondAll key .done [] _ _)
  refine lawful_onSe_owed s _ id (fun i => .refl s _) ?_
  simp only [SE.owed, owing_append]
  change _ + owing (s.se.fences.map key) = _
  rw [← hk, ← owing_filter l key (fun f => f.slots.isEmpty)]
  simp only [key, l]
  abel

/-- A section that takes another state, neither of the two VACANT. -/
theorem Section.lawful.ordered {x : Section} {st : SectionState} (h : x.lawful) (hx : x.state ≠ .vacant)
    (hst : st ≠ .vacant) : Section.lawful { x with state := st } := by
  obtain ⟨ht, hl, hg⟩ := h
  rw [gearGood_iff] at hg
  exact ⟨ht, hl, (gearGood_iff _).2 ⟨hg.1, fun e => absurd e hst, fun _ => hg.2.2 hx⟩⟩

theorem respondAll_se {α : Type} (k : α → PortNo × Tag) (st : Status) (l : List α) (s : State) :
    (l.foldl (fun s x => s.respond (k x).1 (k x).2 st []) s).se = s.se := by
  induction l generalizing s with
  | nil => rfl
  | cons x l ih => exact ih _

theorem discardSlots_se (s : State) (p : SlotNo → Bool) : (s.discardSlots p).se =
    { s.se with
      slots := s.se.slots.mapIdx (fun i x => if p i then { x with posted := [], corrSum := 0, corrHeld := false } else x)
      fences := s.se.fences.filter (fun f => !f.slots.any p) } :=
  respondAll_se (fun f : Fence => (f.port, f.tag)) .discarded _ _

theorem discardSlots_state (s : State) (p : SlotNo → Bool) (i : SlotNo) :
    ((s.discardSlots p).slot i).state = (s.slot i).state := by
  show ((s.discardSlots p).se.slots.get i).state = _
  rw [discardSlots_se, Table.get_mapIdx]
  split <;> rfl

/-- An order that changes no VACANT or RELEASED section, and couples none. -/
theorem lawful_orderSections (s : State) (p : SlotNo → Bool) {st : SectionState}
    (hp : ∀ i, p i = true → (s.slot i).state ≠ .vacant ∧ (s.slot i).state ≠ .released) (hst : st ≠ .vacant)
    (hc : st ≠ .coupled) : Lawful 0 s (s.orderSections p st) := by
  have hs := discardSlots_state s p
  have hn : ∀ i, p i = true → ((s.discardSlots p).slot i).state ≠ .vacant ∧ ((s.discardSlots p).slot i).state ≠ .released :=
    fun i h => by rw [hs]; exact hp i h
  refine (lawful_discardSlots s p).then (lawful_onSe _ _ (fun h i => ?_) rfl rfl (fun i => ?_))
  · simp only [Table.get_mapIdx]; split
    · exact (h i).ordered (hn i ‹_›).1 hst
    · exact h i
  · simp only [Table.get_mapIdx]; split
    · refine ⟨fun e => absurd e hc, fun _ e => ?_⟩
      rcases e with e | e
      · exact absurd e (hn i ‹_›).1
      · exact absurd e (hn i ‹_›).2
    · exact .refl _ _

theorem lawful_orderHeld (s : State) : Lawful 0 s s.orderHeld :=
  lawful_orderSections s _ (fun i h => by
    simp only [Bool.or_eq_true, decide_eq_true_eq] at h
    rcases h with h | h <;> simp [h]) (by decide) (by decide)

theorem lawful_orderReleased (s : State) : Lawful 0 s s.orderReleased :=
  lawful_orderSections s _ (fun i h => by simpa using h) (by decide) (by decide)

theorem lawful_sectionActions (s : State) (k : Cls) : Lawful 0 s (s.sectionActions k) := by
  cases k
  · exact .refl s
  · exact .refl s
  · exact .refl s
  · exact lawful_orderHeld s
  · exact lawful_orderReleased s

theorem releaseFromTrip_vacant (x : Section) : x.releaseFromTrip.state = .vacant ↔ x.state = .vacant := by
  unfold Section.releaseFromTrip
  cases h : x.state <;> simp [h]
  cases x.report <;> simp

/-- The release from a trip, out of LOCKOUT. -/
theorem lawful_orderReleasedFromTrip (s : State) (hl : s.tu.state ≠ .lockout) : Lawful 0 s s.orderReleasedFromTrip := by
  refine lawful_onSe s _ (fun h i => ?_) rfl rfl (fun i => ⟨fun e => ?_, fun e => absurd e hl⟩)
  · simp only [Table.get_map]
    obtain ⟨ht, hb, hg⟩ := h i
    rw [gearGood_iff] at hg
    generalize s.se.slots.get i = x at *
    have hv := releaseFromTrip_vacant x
    have same : x.releaseFromTrip.tt = x.tt ∧ x.releaseFromTrip.tmax = x.tmax ∧ x.releaseFromTrip.posted = x.posted
        ∧ x.releaseFromTrip.r = x.r ∧ x.releaseFromTrip.d = x.d := by
      unfold Section.releaseFromTrip
      split <;> (try split) <;> exact ⟨rfl, rfl, rfl, rfl, rfl⟩
    obtain ⟨e1, e2, e3, e4, e5⟩ := same
    refine ⟨by rw [e1, e2]; exact ht, by rw [e3]; exact hb, (gearGood_iff _).2 ⟨by rw [e3]; exact hg.1, ?_, ?_⟩⟩
    · intro e; unfold Section.opensGear; rw [e3]; exact hg.2.1 (hv.1 e)
    · intro e; rw [e4, e5]; exact hg.2.2 (fun c => e (hv.2 c))
  · simp only [Table.get_map] at e
    left
    show (s.se.slots.get i).state = .coupled
    generalize s.se.slots.get i = x at *
    unfold Section.releaseFromTrip at e
    cases h : x.state <;> simp_all
    cases hr : x.report <;> simp_all

theorem lawful_sectionRingLoss (s : State) : Lawful 0 s s.sectionRingLoss := by
  let key : Waiting → PortNo × Tag := fun w => (w.port, w.tag)
  refine (lawful_discardSlots s (fun _ => true)).then ?_
  have hw : (s.discardSlots (fun _ => true)).se.waiting = s.se.waiting := by rw [discardSlots_se]
  refine Lawful.answered (d := owing (s.se.waiting.map key)) ?_ (lawful_respondAll key .notRunning [] _ _)
  refine lawful_onSe_owed _ _ id (fun i => .refl _ _) ?_
  simp only [SE.owed, owing_append, hw, List.map_nil, owing_nil, key]
  abel

/-! ### Posting -/

/-- A good change joins the list of a section that has room and is not VACANT with an empty list, or names D there. -/
theorem Section.lawful.post {x : Section} (h : x.lawful) {c : Change} (hr : x.posted.length < 8) (hc : c.gearGood = true)
    (hv : x.state = .vacant → x.posted = [] → ∃ f, c.body = .set f ∧ f.d.isSome = true) : (x.post c).lawful := by
  obtain ⟨ht, hl, hg⟩ := h
  rw [gearGood_iff] at hg
  refine ⟨ht, by simp [Section.post]; omega, (gearGood_iff _).2 ⟨?_, fun e b l hb => ?_, hg.2.2⟩⟩
  · intro b hb
    simp only [Section.post, List.mem_append, List.mem_singleton] at hb
    rcases hb with hb | rfl
    · exact hg.1 b hb
    · exact hc
  · cases hp : x.posted with
    | nil =>
      simp only [Section.post, hp, List.nil_append, List.cons.injEq] at hb
      obtain ⟨rfl, -⟩ := hb
      exact hv e hp
    | cons b' l' =>
      simp only [Section.post, hp, List.cons_append, List.cons.injEq] at hb
      obtain ⟨rfl, -⟩ := hb
      exact hg.2.1 e _ _ hp

theorem lawful_postNudge (s : State) (poster : Option PortNo) (slot : Option Nat) (amount : Option Int) :
    Lawful 0 s (s.postNudge poster slot amount).1 := by
  unfold State.postNudge
  rcases argFin 16 slot with _ | i
  · exact .refl s
  rcases amount with _ | a
  · exact .refl s
  · dsimp only
    split
    · exact .refl s
    · split
      · exact .refl s
      · split
        · exact .refl s
        · rename_i hv hl
          refine lawful_onSlot s _ _ (fun h => h.post (by omega) rfl (fun e e' => absurd ⟨e, e'⟩ hv)) (.refl s _)

/-! ### The control queue and the census -/

theorem lawful_dropStored (s : State) (b : Block) : Lawful 0 s (s.dropStored b) := by
  cases b
  · exact lawful_onSe s (fun e => { e with replies := e.replies.tail }) id rfl rfl (fun _ => .refl s _)
  · exact lawful_store ((keeps_onIm s _).mono (by decide)) ⟨id, fun _ => id⟩
  · exact lawful_onVu s (fun u => { u with controlList := u.controlList.tail }) rfl

theorem lawful_offerStored (n : Nat) (b : Block) (s : State) : Lawful 0 s (offerStored n b s) := by
  induction n generalizing s with
  | zero => exact .refl s
  | succ n ih =>
    unfold offerStored
    split
    · exact .refl s
    · refine .ite (fun _ => ?_) (fun _ => ?_)
      · exact ((lawful_dropStored s b).then (lawful_onRc _ _ ⟨rfl, rfl, rfl, rfl⟩)).then (ih _)
      · refine lawful_onRc s _ ?_
        split <;> exact ⟨rfl, rfl, rfl, rfl⟩

theorem lawful_offerControl (s : State) (b : Block) : Lawful 0 s (s.offerControl b) := lawful_offerStored _ b s

theorem lawful_giveControlPlace (s : State) : Lawful 0 s s.giveControlPlace := by
  unfold State.giveControlPlace
  split
  · exact .refl s
  · exact (lawful_onRc s _ ⟨rfl, rfl, rfl, rfl⟩).then (lawful_offerControl _ _)

end Sys2Proof.Machine

end

section
/-! SUPPORT. The laws of the store, entry by entry, and of the trip states half way. -/

namespace Sys2Proof.Machine

variable {s : State}

/-! ### The store -/

/-- A strip keeps what the laws of the store read of it, and is not frozen where it was not. -/
structure Strip.Alike (x y : Strip) : Prop where
  id : y.id = x.id
  tiles : y.tiles = x.tiles
  receiving : y.receiving = x.receiving
  complete : y.complete = x.complete
  origin : y.origin = x.origin
  freeze : x.freezeSet = [] → y.freezeSet = []

theorem Strip.Alike.refl (x : Strip) : x.Alike x := ⟨rfl, rfl, rfl, rfl, rfl, fun h => h⟩

/-- The tiles that receptions have reserved. -/
noncomputable def reservedTiles (l : List (Option Reception)) : List Nat := l.flatMap (fun c => (c.map (fun r => r.reservation)).getD [])

theorem allTiles_eq (s : State) : s.allTiles =
    s.is.free ++ s.is.strips.flatMap (fun x => x.tiles) ++ reservedTiles s.im.contexts.list := by
  unfold State.allTiles reservedTiles
  congr 2
  funext c
  cases c <;> rfl

/-- The laws of the store, in words. -/
theorem storeLaw_iff (s : State) : s.storeLaw = true ↔
    Memory.wf s.is.mem = true ∧ s.allTiles.Perm (List.range 1024) ∧ (s.is.strips.map (fun x => x.id)).Nodup
      ∧ ((s.im.contexts.list.filterMap id).map (fun r => r.strip)).Nodup
      ∧ ∀ r ∈ s.im.contexts.list.filterMap id, ∃ x ∈ s.is.strips, x.id = r.strip ∧ x.receiving = true
          ∧ x.complete = false ∧ x.tiles = [] ∧ ∃ h k, x.origin = .remote h k := by
  simp only [State.storeLaw, State.tileLaw, State.receptionLaw, Bool.and_eq_true, decide_eq_true_eq, List.all_eq_true,
    List.any_eq_true, Bool.not_eq_true', List.isEmpty_iff, and_assoc]
  refine and_congr_right fun _ => and_congr_right fun _ => and_congr_right fun _ => and_congr_right fun _ =>
    forall₂_congr fun r _ => exists_congr fun x => and_congr_right fun _ => and_congr_right fun _ =>
      and_congr_right fun _ => and_congr_right fun _ => and_congr_right fun _ => ?_
  cases x.origin <;> simp

theorem freezeLaw_iff (s : State) : s.freezeLaw = true ↔
    s.frozenTiles ≤ 256 ∧ ∀ x ∈ s.is.strips, x.receiving = true → x.freezeSet = [] := by
  simp only [State.freezeLaw, Bool.and_eq_true, decide_eq_true_eq, List.all_eq_true, Bool.or_eq_true, Bool.not_eq_true',
    List.isEmpty_iff]
  refine and_congr_right fun _ => forall₂_congr fun x _ => ?_
  cases x.receiving <;> simp

/-- The tiles of the frozen strips of a list. -/
noncomputable def frozenSum (l : List Strip) : Nat := ((l.filter (fun x => !x.freezeSet.isEmpty)).map (fun x => x.tiles.length)).sum

theorem frozenTiles_eq (s : State) : s.frozenTiles = frozenSum s.is.strips := rfl

theorem frozenSum_cons (x : Strip) (l : List Strip) :
    frozenSum (x :: l) = (if x.freezeSet = [] then 0 else x.tiles.length) + frozenSum l := by
  unfold frozenSum
  by_cases h : x.freezeSet = [] <;> simp [h]

theorem frozenSum_map_le (f : Strip → Strip) (l : List Strip) (h : ∀ x ∈ l, x.Alike (f x)) :
    frozenSum (l.map f) ≤ frozenSum l := by
  induction l with
  | nil => exact Nat.le_refl _
  | cons x l ih =>
    have hx := h x (by simp)
    rw [List.map_cons, frozenSum_cons, frozenSum_cons, hx.tiles]
    have := ih (fun y hy => h y (by simp [hy]))
    by_cases e : x.freezeSet = []
    · simp only [e, hx.freeze e, if_true]; omega
    · split <;> simp <;> omega

/-- The parts of store and mover that the laws of the store read come through, strips as they were or frozen less. -/
theorem storeKept_map {a : State} (f : Strip → Strip) (hf : ∀ x ∈ s.is.strips, x.Alike (f x))
    (hm : a.is.mem = s.is.mem) (hfree : a.is.free = s.is.free) (hs : a.is.strips = s.is.strips.map f)
    (hc : a.im.contexts.list.map (Option.map (fun r => (r.strip, r.reservation)))
      = s.im.contexts.list.map (Option.map (fun r => (r.strip, r.reservation)))) : StoreKept s a := by
  have hids : a.is.strips.map (fun x => x.id) = s.is.strips.map (fun x => x.id) := by
    rw [hs, List.map_map]
    exact List.map_congr_left (fun x hx => (hf x hx).id)
  have hres : reservedTiles a.im.contexts.list = reservedTiles s.im.contexts.list := by
    have e : ∀ l : List (Option Reception), reservedTiles l
        = (l.map (Option.map (fun r => (r.strip, r.reservation)))).flatMap (fun c => (c.map (fun r => r.2)).getD []) := by
      intro l
      rw [reservedTiles, List.flatMap_map]
      congr 1
      funext c
      cases c <;> rfl
    rw [e, hc, ← e]
  have hstrip : (a.im.contexts.list.filterMap id).map (fun r => r.strip)
      = (s.im.contexts.list.filterMap id).map (fun r => r.strip) := by
    have e : ∀ l : List (Option Reception), (l.filterMap id).map (fun r => r.strip)
        = (l.map (Option.map (fun r => (r.strip, r.reservation)))).filterMap (Option.map (fun r => r.1)) := by
      intro l; rw [List.filterMap_map, List.map_filterMap]; congr 1; funext c; cases c <;> rfl
    rw [e, hc, ← e]
  have htiles : a.allTiles = s.allTiles := by
    rw [allTiles_eq, allTiles_eq, hres, hfree, hs, List.flatMap_map]
    congr 2
    exact List.flatMap_congr (fun x hx => (hf x hx).tiles)
  constructor
  · intro l
    rw [storeLaw_iff] at l ⊢
    obtain ⟨h1, h2, h3, h4, h5⟩ := l
    refine ⟨by rw [hm]; exact h1, by rw [htiles]; exact h2, by rw [hids]; exact h3, by rw [hstrip]; exact h4, ?_⟩
    intro r hr
    have : r.strip ∈ (s.im.contexts.list.filterMap id).map (fun r => r.strip) := by
      rw [← hstrip]; exact List.mem_map.2 ⟨r, hr, rfl⟩
    obtain ⟨q, hq, hqr⟩ := List.mem_map.1 this
    obtain ⟨x, hx, e1, e2, e3, e4, e5⟩ := h5 q hq
    have hx' := hf x hx
    refine ⟨f x, by rw [hs]; exact List.mem_map_of_mem hx, by rw [hx'.id, e1, hqr], by rw [hx'.receiving, e2],
      by rw [hx'.complete, e3], by rw [hx'.tiles, e4], by rw [hx'.origin]; exact e5⟩
  · intro _ l
    rw [freezeLaw_iff] at l ⊢
    refine ⟨?_, ?_⟩
    · rw [frozenTiles_eq, hs]
      exact (frozenSum_map_le f _ hf).trans l.1
    · rw [hs]
      intro y hy hr
      obtain ⟨x, hx, rfl⟩ := List.mem_map.1 hy
      exact (hf x hx).freeze (l.2 x hx (by rw [← (hf x hx).receiving]; exact hr))

/-- A change of the store in which the strips stay alike. -/
theorem lawful_onIs_map (s : State) (g : IS → IS) (f : Strip → Strip) (hf : ∀ x ∈ s.is.strips, x.Alike (f x))
    (hm : (g s.is).mem = s.is.mem) (hfree : (g s.is).free = s.is.free) (hs : (g s.is).strips = s.is.strips.map f) :
    Lawful 0 s (s.onIs g) :=
  lawful_store ((keeps_onIs s _).mono (by decide)) (storeKept_map f hf hm hfree hs rfl)

/-- A change of the store that leaves its bytes, free list and strips. -/
theorem lawful_onIs (s : State) (g : IS → IS) (hm : (g s.is).mem = s.is.mem) (hfree : (g s.is).free = s.is.free)
    (hs : (g s.is).strips = s.is.strips) : Lawful 0 s (s.onIs g) :=
  lawful_onIs_map s g id (fun x _ => .refl x) hm hfree (by rw [List.map_id]; exact hs)

theorem lawful_onStrip (s : State) (id : Nat) (f : Strip → Strip) (hf : ∀ x ∈ s.is.strips, x.id = id → x.Alike (f x)) :
    Lawful 0 s (s.onStrip id f) :=
  lawful_onIs_map s _ (fun p => if p.id = id then f p else p)
    (fun x hx => by
      by_cases h : x.id = id
      · rw [if_pos h]; exact hf x hx h
      · rw [if_neg h]; exact .refl x) rfl rfl rfl

theorem lawful_onCamera (s : State) (c : Fin 4) (f : Camera → Camera) : Lawful 0 s (s.onCamera c f) :=
  lawful_onIs s _ rfl rfl rfl

/-- A change of the mover that leaves the receptions' strips and reservations. -/
theorem lawful_onIm (s : State) (g : IM → IM)
    (hc : (g s.im).contexts.list.map (Option.map (fun r => (r.strip, r.reservation)))
      = s.im.contexts.list.map (Option.map (fun r => (r.strip, r.reservation)))) : Lawful 0 s (s.onIm g) :=
  lawful_store ((keeps_onIm s _).mono (by decide))
    (storeKept_map id (fun x _ => .refl x) rfl rfl (by rw [List.map_id]; rfl) hc)

theorem lawful_unfreeze (s : State) (n : BitVec 16) (frozen : List Nat) : Lawful 0 s (s.unfreeze n frozen) :=
  lawful_onIs_map s _ (fun x => if frozen.contains x.id then { x with freezeSet := x.freezeSet.erase n } else x)
    (fun x _ => by
      split
      · exact ⟨rfl, rfl, rfl, rfl, rfl, fun h => by simp [h]⟩
      · exact .refl x) rfl rfl rfl

theorem lawful_startWalk (s : State) (r c : BitVec 16) : Lawful 0 s (s.startWalk r c) := lawful_onIs s _ rfl rfl rfl

/-! ### Work that may break the law of the trip states until it is whole -/

/-- The cause set stays in order; LOCKOUT stays, and so does a master's CONFLICT without a roster timer. -/
structure TripStays (s s' : State) : Prop where
  causes : s.causesLaw = true → s'.causesLaw = true
  lockout : s.tu.state = .lockout → s'.tu.state = .lockout
  conflict : s.isMaster = true → s.rc.rosterTimer = none → s.rc.ringState = .conflict →
    s'.isMaster = true ∧ s'.rc.rosterTimer = none ∧ s'.rc.ringState = .conflict

theorem TripKept.stays {a : State} (h : TripKept s a) : TripStays s a := ⟨h.causes, h.lockout, h.conflict⟩

theorem TripStays.kept {a : State} (h : TripStays s a) (hl : s.tripLaw = true → a.tripLaw = true) : TripKept s a :=
  ⟨hl, h.causes, h.lockout, h.conflict⟩

theorem TripStays.trans {s a b : State} (h : TripStays s a) (h' : TripStays a b) : TripStays s b where
  causes := h'.causes ∘ h.causes
  lockout := h'.lockout ∘ h.lockout
  conflict m r c := by
    obtain ⟨m', r', c'⟩ := h.conflict m r c
    exact h'.conflict m' r' c'

/-- A part of a piece of work: all is kept but the law of the trip states. -/
structure Partly (s s' : State) : Prop where
  sound : Sound 0 s s'
  stays : TripStays s s'
  census : CensusKept s s'

theorem Lawful.partly {a : State} (h : Lawful 0 s a) : Partly s a := ⟨h.sound, h.trip.stays, h.census⟩

theorem Partly.lawful {a : State} (h : Partly s a) (hl : s.tripLaw = true → a.tripLaw = true) : Lawful 0 s a :=
  ⟨h.sound, h.stays.kept hl, h.census⟩

theorem Partly.trans {s a b : State} (h : Partly s a) (h' : Partly a b) : Partly s b :=
  ⟨h.sound.then h'.sound, h.stays.trans h'.stays, h.census.trans h'.census⟩

theorem sound_onRc (s : State) (f : RC → RC) (h : (f s.rc).ringState = s.rc.ringState) : Sound 0 s (s.onRc f) :=
  ⟨rfl, rfl, rfl, rfl, fun _ => .refl _, (add_zero _).symm, .refl _, id, ⟨id, fun _ => id⟩, .inl h⟩

theorem tripKept_onRc (s : State) (f : RC → RC) (h : (f s.rc).ringState = s.rc.ringState)
    (hr : (f s.rc).rosterTimer = s.rc.rosterTimer) : TripKept s (s.onRc f) :=
  ⟨id, id, id, fun m r c => ⟨m, hr.trans r, h.trans c⟩⟩

/-! ### The look at the re-formation conditions -/

theorem checkReformation_other (h : ¬ (s.isMaster = true ∧ s.rc.ringState = .lost)) : s.checkReformation = s := by
  unfold State.checkReformation; rw [if_neg h]

/-- At a LOST master the timer runs exactly while the conditions hold, after the look at them. -/
theorem checkReformation_timer (hm : s.isMaster = true) (hr : s.rc.ringState = .lost) :
    s.checkReformation.rc.censusTimer.isSome = s.reformationHolds := by
  unfold State.checkReformation
  rw [if_pos ⟨hm, hr⟩]
  cases h : s.reformationHolds
  · rfl
  · rw [if_pos rfl]
    split
    · rfl
    · exact Option.isSome_iff_ne_none.2 ‹_›

/-- While the conditions do not hold the look at them makes no census. -/
theorem checkReformation_number (hm : s.isMaster = true) (hr : s.rc.ringState = .lost) (h : s.reformationHolds = false) :
    s.checkReformation.rc.censusTimer = none ∧ s.checkReformation.rc.censusNumber = s.rc.censusNumber := by
  unfold State.checkReformation
  rw [if_pos ⟨hm, hr⟩, h]
  exact ⟨rfl, rfl⟩

theorem checkReformation_ring (s : State) : s.checkReformation.rc.ringState = s.rc.ringState
    ∧ s.checkReformation.rc.rosterTimer = s.rc.rosterTimer := by
  unfold State.checkReformation
  split
  · split
    · split <;> exact ⟨rfl, rfl⟩
    · exact ⟨rfl, rfl⟩
  · exact ⟨rfl, rfl⟩

theorem checkReformation_rest (s : State) :
    ∃ f : RC → RC, (f s.rc).ringState = s.rc.ringState ∧ (f s.rc).rosterTimer = s.rc.rosterTimer
      ∧ s.checkReformation = s.onRc f := by
  refine ⟨fun _ => s.checkReformation.rc, (checkReformation_ring s).1, (checkReformation_ring s).2, ?_⟩
  unfold State.checkReformation
  split
  · split
    · split <;> rfl
    · rfl
  · rfl

theorem sound_checkReformation (s : State) : Sound 0 s s.checkReformation := by
  obtain ⟨f, h1, -, e⟩ := checkReformation_rest s
  rw [e]; exact sound_onRc s f h1

theorem tripKept_checkReformation (s : State) : TripKept s s.checkReformation := by
  obtain ⟨f, h1, h2, e⟩ := checkReformation_rest s
  rw [e]; exact tripKept_onRc s f h1 h2

theorem checkReformation_holds (s : State) : s.checkReformation.reformationHolds = s.reformationHolds := by
  obtain ⟨f, -, -, e⟩ := checkReformation_rest s
  rw [e]; rfl

theorem checkReformation_master (s : State) : s.checkReformation.isMaster = s.isMaster := by
  obtain ⟨f, -, -, e⟩ := checkReformation_rest s
  rw [e]; rfl

/-- The law of the census timer, in words. -/
theorem censusLaw_iff (s : State) : s.censusLaw = true ↔ (s.isMaster = true →
    (s.rc.ringState = .running → s.rc.censusTimer = none)
      ∧ (s.rc.ringState = .lost → s.rc.censusTimer.isSome = s.reformationHolds)) := by
  unfold State.censusLaw State.reformationHolds
  cases s.isMaster <;> cases s.rc.ringState <;> simp

/-- After the look at the conditions the law of the census timer holds, where the timer is stopped in RUNNING. -/
theorem checkReformation_censusLaw (h : s.isMaster = true → s.rc.ringState = .running → s.rc.censusTimer = none) :
    s.checkReformation.censusLaw = true := by
  rw [censusLaw_iff, checkReformation_master, checkReformation_holds, (checkReformation_ring s).1]
  refine fun m => ⟨fun r => ?_, fun r => checkReformation_timer m r⟩
  rw [checkReformation_other (fun c => by rw [r] at c; exact absurd c.2 (by decide))]
  exact h m r

end Sys2Proof.Machine

end

section
/-! SUPPORT. Changes of the trip state and records. -/

namespace Sys2Proof.Machine

variable {s : State}

/-! ### A change of trip state -/

theorem checkReformation_tu (s : State) : s.checkReformation.tu = s.tu := by
  obtain ⟨f, -, -, e⟩ := checkReformation_rest s
  rw [e]; rfl

theorem checkReformation_se (s : State) : s.checkReformation.se = s.se := by
  obtain ⟨f, -, -, e⟩ := checkReformation_rest s
  rw [e]; rfl

theorem setTrip_tu (s : State) (st : TripState) : (s.setTrip st).tu =
    { s.tu with
      state := st
      releaseLevel := if st = .releasing then s.tu.releaseLevel else none
      current := if st = .releasing ∨ st = .normal then none else s.tu.current } := checkReformation_tu _

theorem setTrip_se (s : State) (st : TripState) : (s.setTrip st).se = s.se := checkReformation_se _

theorem sound_setTrip (s : State) (st : TripState) : Sound 0 s (s.setTrip st) :=
  ((sound_onTu s _).then (lawful_notify _ .trip).sound).then (sound_checkReformation _)

theorem stays_setTrip (s : State) {st : TripState} (h : s.tu.state = .lockout → st = .lockout) :
    TripStays s (s.setTrip st) := by
  refine ⟨fun l => ?_, fun l => ?_, fun m r c => ?_⟩
  · rw [State.causesLaw, setTrip_tu]; exact l
  · rw [setTrip_tu]; exact h l
  · have hr := checkReformation_ring ((s.onTu (fun t =>
      { t with
        state := st
        releaseLevel := if st = .releasing then t.releaseLevel else none
        current := if st = .releasing ∨ st = .normal then none else t.current })).notify .trip)
    exact ⟨(checkReformation_master _).trans m, hr.2.trans r, hr.1.trans c⟩

/-- What a change of trip state leaves of the census timer: its law holds after it. -/
theorem setTrip_census (s : State) (st : TripState) :
    (s.setTrip st).isMaster = s.isMaster ∧ (s.setTrip st).rc.ringState = s.rc.ringState
      ∧ (s.isMaster = true → s.censusLaw = true → (s.setTrip st).censusLaw = true) := by
  refine ⟨checkReformation_master _, (checkReformation_ring _).1, fun m l => checkReformation_censusLaw (fun _ r => ?_)⟩
  exact ((censusLaw_iff s).1 l m).1 r

theorem censusKept_setTrip (s : State) {st : TripState} (h1 : st ≠ .stopped) (h2 : st ≠ .releasing) :
    CensusKept s (s.setTrip st) := by
  obtain ⟨hm, hr, hl⟩ := setTrip_census s st
  refine ⟨hm, fun _ e => hr.symm.trans e, hl, fun m _ t e => ?_⟩
  exact checkReformation_number m (hr.symm.trans e) (by
    show (_ && (decide (st = .stopped) || decide (st = .releasing))) = false
    rw [decide_eq_false h1, decide_eq_false h2, Bool.or_self, Bool.and_false])

/-- The trip states that a raised cause or a handed trip word leads to. -/
theorem partly_setTrip (s : State) {st : TripState} (h : s.tu.state = .lockout → st = .lockout) (h1 : st ≠ .stopped)
    (h2 : st ≠ .releasing) : Partly s (s.setTrip st) :=
  ⟨sound_setTrip s st, stays_setTrip s h, censusKept_setTrip s h1 h2⟩

/-! ### Records -/

theorem lawful_onCurrent (s : State) (f : TripRecord → TripRecord) : Lawful 0 s (s.onCurrent f) := by
  unfold State.onCurrent
  split
  · exact lawful_onTu s _ ⟨rfl, rfl, rfl, rfl⟩
  · exact .refl s

theorem onCurrent_calm (s : State) (f : TripRecord → TripRecord) : TU.Calm s.tu (s.onCurrent f).tu := by
  unfold State.onCurrent
  split <;> exact ⟨rfl, rfl, rfl, rfl⟩

theorem onCurrent_se (s : State) (f : TripRecord → TripRecord) : (s.onCurrent f).se = s.se := by
  unfold State.onCurrent
  split <;> rfl

theorem lawful_openRecord (s : State) (r : TripRecord) : Lawful 0 s (s.openRecord r) := by
  have drop : Lawful 0 s s.dropOldestRecord := by
    unfold State.dropOldestRecord
    split
    · exact .ite (fun _ => (lawful_onTu s _ ⟨rfl, rfl, rfl, rfl⟩).then (lawful_unfreeze _ _ _)) (fun _ => .refl s)
    · exact .refl s
  exact drop.then (lawful_onTu _ _ ⟨rfl, rfl, rfl, rfl⟩)

theorem openRecord_calm (s : State) (r : TripRecord) : TU.Calm s.tu (s.openRecord r).tu := by
  have drop : TU.Calm s.tu s.dropOldestRecord.tu := by
    unfold State.dropOldestRecord
    split
    · split <;> exact ⟨rfl, rfl, rfl, rfl⟩
    · exact ⟨rfl, rfl, rfl, rfl⟩
  exact ⟨drop.state, drop.causes, drop.matrix, drop.carried⟩

/-! ### The law of the trip states after an order -/

theorem orderSections_state (s : State) (p : SlotNo → Bool) (st : SectionState) (i : SlotNo) :
    ((s.orderSections p st).slot i).state = if p i then st else (s.slot i).state := by
  show ((((s.discardSlots p).se.slots.mapIdx _).get i) : Section).state = _
  rw [Table.get_mapIdx]
  split
  · rfl
  · exact discardSlots_state s p i

theorem sectionActions_tu (s : State) (k : Cls) : (s.sectionActions k).tu = s.tu :=
  (keeps_sectionActions s k).2.2.2 .tu (by decide)

/-- After the section actions of a class of QUICK or COAST no section is COUPLED. -/
theorem sectionActions_uncouples (s : State) {k : Cls} (hk : k.quickOrAbove = true) (i : SlotNo) :
    ((s.sectionActions k).slot i).state ≠ .coupled := by
  cases k with
  | noClass => exact absurd hk (by decide)
  | notify => exact absurd hk (by decide)
  | sync => exact absurd hk (by decide)
  | quick =>
    show ((s.orderSections _ .held).slot i).state ≠ _
    rw [orderSections_state]
    split
    · decide
    · rename_i h; simp at h; exact h.1
  | coast =>
    show ((s.orderSections _ .released).slot i).state ≠ _
    rw [orderSections_state]
    split
    · decide
    · rename_i h
      intro e
      simp [e] at h

/-- The section actions leave VACANT and RELEASED sections. -/
theorem sectionActions_freed (s : State) (k : Cls) {i : SlotNo}
    (h : (s.slot i).state = .vacant ∨ (s.slot i).state = .released) :
    ((s.sectionActions k).slot i).state = .vacant ∨ ((s.sectionActions k).slot i).state = .released := by
  cases k with
  | noClass => exact h
  | notify => exact h
  | sync => exact h
  | quick =>
    show ((s.orderSections _ .held).slot i).state = _ ∨ ((s.orderSections _ .held).slot i).state = _
    rw [orderSections_state, if_neg (by rcases h with h | h <;> simp [h])]
    exact h
  | coast =>
    show ((s.orderSections _ .released).slot i).state = _ ∨ ((s.orderSections _ .released).slot i).state = _
    rw [orderSections_state, if_neg (by rcases h with h | h <;> simp [h])]
    exact h

/-- The section actions of the effective class meet the law, in every trip state but LOCKOUT, and in LOCKOUT where it held. -/
theorem sectionActions_law (s : State) (hl : s.tu.state = .lockout → ∀ i, (s.slot i).state = .vacant ∨ (s.slot i).state = .released) :
    (s.sectionActions s.effectiveClass).tripLaw = true := by
  have he : (s.sectionActions s.effectiveClass).effectiveClass = s.effectiveClass :=
    effectiveClass_congr (a := s) (by rw [sectionActions_tu]; exact ⟨rfl, rfl, rfl, rfl⟩)
  rw [tripLaw_iff, he, sectionActions_tu]
  exact ⟨fun q _ => sectionActions_uncouples s q, fun k i => sectionActions_freed s _ (hl k i)⟩

/-! ### Entry to CAPTURE, LOCKOUT and rises -/

theorem partly_enterCapture (s : State) (c : CausePair) (h : s.tu.state ≠ .lockout) : Partly s (s.enterCapture c) :=
  ((((partly_setTrip s (fun l => absurd l h) (by decide) (by decide)).trans (lawful_openRecord _ _).partly).trans
    (lawful_sectionActions _ _).partly).trans (lawful_startWalk _ _ _).partly)

theorem enterCapture_law (s : State) (c : CausePair) : (s.enterCapture c).tripLaw = true := by
  let a := (s.setTrip .capture).openRecord ((s.setTrip .capture).newRecord c)
  have calm := openRecord_calm (s.setTrip .capture) ((s.setTrip .capture).newRecord c)
  have he : a.effectiveClass = ((s.setTrip .capture).newRecord c).entryClass := effectiveClass_congr calm
  have hs : a.tu.state = .capture := by rw [calm.state, setTrip_tu]
  have := sectionActions_law a (fun e => by rw [hs] at e; cases e)
  rw [he] at this
  exact this

theorem enterLockout_law (s : State) : s.enterLockout.tripLaw = true := by
  have hs : ∀ i, (s.enterLockout.slot i).state = .vacant ∨ (s.enterLockout.slot i).state = .released := by
    intro i
    unfold State.enterLockout State.orderReleased
    rw [orderSections_state]
    split
    · exact .inr rfl
    · rename_i h
      simp only [Bool.and_eq_true, decide_eq_true_eq, not_and, not_not] at h
      by_cases e : (((s.appendSecondary ⟨.ringLost, none⟩).reachClass s.effectiveClass).setTrip .lockout |>.slot i).state
          = .vacant
      · exact .inl e
      · exact .inr (h e)
  rw [tripLaw_iff]
  refine ⟨fun _ _ i e => ?_, fun _ => hs⟩
  rcases hs i with h | h <;> rw [h] at e <;> cases e

theorem lawful_enterLockout (s : State) : Lawful 0 s s.enterLockout :=
  Partly.lawful (((((lawful_onCurrent s _).partly).trans (lawful_onCurrent _ _).partly).trans
    (partly_setTrip _ (fun _ => rfl) (by decide) (by decide))).trans (lawful_orderReleased _).partly)
    (fun _ => enterLockout_law s)

/-- No section was COUPLED under the class before a rise, where it was QUICK or COAST, and in LOCKOUT all were free. -/
def State.lawBefore (s : State) (before : Cls) : Prop :=
  (before.quickOrAbove = true → s.tu.state.acting = true → ∀ i, (s.slot i).state ≠ .coupled)
    ∧ (s.tu.state = .lockout → ∀ i, (s.slot i).state = .vacant ∨ (s.slot i).state = .released)

theorem lawful_riseFrom_partly (s : State) (k : Cls) : Partly s (s.riseFrom k) := by
  unfold State.riseFrom
  dsimp only
  split
  · exact (lawful_onCurrent s _).partly.trans (lawful_sectionActions _ _).partly
  · exact (Lawful.refl s).partly

theorem riseFrom_law {k : Cls} (h : s.lawBefore k) : (s.riseFrom k).tripLaw = true := by
  unfold State.riseFrom
  dsimp only
  split
  · have calm := onCurrent_calm s (fun r => { r with highest := r.highest.max s.effectiveClass })
    have he : (s.reachClass s.effectiveClass).effectiveClass = s.effectiveClass := effectiveClass_congr calm
    have := sectionActions_law (s.reachClass s.effectiveClass) (fun e i => by
      rw [State.slot, State.reachClass, onCurrent_se]
      exact h.2 (calm.state.symm.trans e) i)
    rw [he] at this
    exact this
  · rename_i hr
    rw [tripLaw_iff]
    refine ⟨fun q => h.1 ?_, h.2⟩
    simp only [Cls.quickOrAbove, decide_eq_true_eq] at q ⊢
    omega

/-! ### Raising a cause -/

theorem causesLaw_insert {c : CausePair} (l : s.causesLaw = true) :
    (insertCause c s.tu.causes).Pairwise (fun a b => a.before b = true) :=
  insertCause_ordered c _ (of_decide_eq_true l)

end Sys2Proof.Machine

end

section
/-! SUPPORT. A raised cause, a handed trip word, a matrix changed, a reset: the laws of the trip states. -/

namespace Sys2Proof.Machine

variable {s : State}

/-! ### Raising a cause -/

theorem lawBefore_of_law (h : s.tripLaw = true) : s.lawBefore s.effectiveClass := (tripLaw_iff s).1 h

theorem State.lawBefore.congr {a : State} {k : Cls} (h : s.lawBefore k) (ht : a.tu.state = s.tu.state)
    (hs : ∀ i, (a.slot i).state = (s.slot i).state) : a.lawBefore k :=
  ⟨fun q r i => by rw [hs]; exact h.1 q (ht ▸ r) i, fun l i => by rw [hs]; exact h.2 (ht ▸ l) i⟩

/-- Out of the trip states in which the section actions follow the effective class there is nothing to keep. -/
theorem tripLaw_idle (h : s.tu.state.acting = false) : s.tripLaw = true := by
  rw [tripLaw_iff]
  refine ⟨fun _ a => absurd a (by rw [h]; decide), fun l => ?_⟩
  rw [l] at h; cases h

/-- A pair appended to the current record, and the rise of the class. -/
theorem partly_appendRise (s : State) (c : CausePair) (k : Cls) : Partly s ((s.appendSecondary c).riseFrom k) :=
  (lawful_onCurrent s _).partly.trans (lawful_riseFrom_partly _ k)

theorem appendRise_law {c : CausePair} {k : Cls} (h : s.lawBefore k) :
    ((s.appendSecondary c).riseFrom k).tripLaw = true :=
  riseFrom_law (h.congr (onCurrent_calm s _).state (fun i => by rw [State.slot, State.appendSecondary, onCurrent_se]; rfl))

/-- The notice of a cause of class NOTIFY, before its latching acts. -/
noncomputable def State.noticed (s : State) (c : CausePair) : State := if s.tu.matrix.get c.cause = .notify then s.notify .notify else s

theorem lawful_noticed (s : State) (c : CausePair) : Lawful 0 s (s.noticed c) :=
  .ite (fun _ => lawful_notify s _) (fun _ => .refl s)

theorem noticed_tu (s : State) (c : CausePair) : (s.noticed c).tu = s.tu := by unfold State.noticed; split <;> rfl

theorem noticed_se (s : State) (c : CausePair) : (s.noticed c).se = s.se := by unfold State.noticed; split <;> rfl

/-! What the latching of a cause does after its notice, in each trip state (R95, R96, R100, R102). -/

theorem latched_idle (c : CausePair) (k : Cls) (h : s.tu.state = .normal ∨ s.tu.state = .releasing) : s.latched c k =
    if (s.tu.matrix.get c.cause).stops then (s.noticed c).enterCapture c else s.noticed c := by
  have hn : (s.noticed c).tu.state = s.tu.state := by rw [noticed_tu]
  unfold State.latched State.noticed at *
  dsimp only
  rcases h with h | h <;> rw [h] at hn <;> rw [hn]

theorem latched_stopping (c : CausePair) (k : Cls) (h : s.tu.state = .capture ∨ s.tu.state = .stopping) :
    s.latched c k =
      if c.cause = .ringLost then (s.noticed c).enterLockout else ((s.noticed c).appendSecondary c).riseFrom k := by
  have hn : (s.noticed c).tu.state = s.tu.state := by rw [noticed_tu]
  unfold State.latched State.noticed at *
  dsimp only
  rcases h with h | h <;> rw [h] at hn <;> rw [hn]

theorem latched_stopped (c : CausePair) (k : Cls) (h : s.tu.state = .stopped ∨ s.tu.state = .lockout) :
    s.latched c k = ((s.noticed c).appendSecondary c).riseFrom k := by
  have hn : (s.noticed c).tu.state = s.tu.state := by rw [noticed_tu]
  unfold State.latched State.noticed at *
  dsimp only
  rcases h with h | h <;> rw [h] at hn <;> rw [hn]

/-- The trip states in the three groups in which a latched cause acts alike. -/
theorem tripState_groups (st : TripState) : (st = .normal ∨ st = .releasing) ∨ (st = .capture ∨ st = .stopping)
    ∨ (st = .stopped ∨ st = .lockout) := by cases st <;> simp

theorem partly_latched (s : State) (c : CausePair) (k : Cls) : Partly s (s.latched c k) := by
  have hn : (s.noticed c).tu.state = s.tu.state := by rw [noticed_tu]
  have h0 := (lawful_noticed s c).partly
  rcases tripState_groups s.tu.state with h | h | h
  · rw [latched_idle c k h]; split
    · exact h0.trans (partly_enterCapture _ c (by rw [hn]; rcases h with h | h <;> rw [h] <;> decide))
    · exact h0
  · rw [latched_stopping c k h]; split
    · exact h0.trans (lawful_enterLockout _).partly
    · exact h0.trans (partly_appendRise _ c k)
  · rw [latched_stopped c k h]
    exact h0.trans (partly_appendRise _ c k)

theorem latched_law {c : CausePair} {k : Cls} (h : s.lawBefore k) : (s.latched c k).tripLaw = true := by
  have hn : (s.noticed c).tu.state = s.tu.state := by rw [noticed_tu]
  have hb : (s.noticed c).lawBefore k := h.congr hn (fun i => by rw [State.slot, noticed_se]; rfl)
  rcases tripState_groups s.tu.state with h | h | h
  · rw [latched_idle c k h]; split
    · exact enterCapture_law _ c
    · exact tripLaw_idle (by rw [hn]; rcases h with h | h <;> rw [h] <;> rfl)
  · rw [latched_stopping c k h]; split
    · exact enterLockout_law _
    · exact appendRise_law hb
  · rw [latched_stopped c k h]
    exact appendRise_law hb

/-- A change of the Trip Unit that leaves its state, and its causes in order. -/
theorem partly_onTu (s : State) (f : TU → TU) (hs : (f s.tu).state = s.tu.state)
    (hc : s.causesLaw = true → (f s.tu).causes.Pairwise (fun a b => a.before b = true)) : Partly s (s.onTu f) := by
  refine ⟨sound_onTu s f, ⟨fun l => decide_eq_true (hc l), hs.trans, fun m r c => ⟨m, r, c⟩⟩,
    ⟨rfl, fun _ => id, fun _ l => ?_, fun _ _ t _ => ⟨t, rfl⟩⟩⟩
  rw [censusLaw_congr (a := s) (b := s.onTu f) rfl rfl rfl]
  · exact l
  · intro _ _; simp only [State.reformationHolds, State.onTu_su, State.onTu_tu, hs]

theorem lawful_raise (s : State) (c : CausePair) : Lawful 0 s (s.raise c) := by
  unfold State.raise
  refine .ite (fun _ => .ite (fun _ => lawful_enterLockout s) (fun _ => .refl s)) (fun _ => ?_)
  refine ((partly_onTu s _ rfl (causesLaw_insert (c := c))).trans (partly_latched _ c _)).lawful (fun l => ?_)
  exact latched_law ((lawBefore_of_law l).congr rfl (fun _ => rfl))

/-! ### The handed trip word -/

theorem rank_max (a b : Cls) : (a.max b).rank = max a.rank b.rank := by
  unfold Cls.max
  split
  next h => exact (max_eq_right (Nat.le_of_lt h)).symm
  next h => exact (max_eq_left (Nat.le_of_not_lt h)).symm

theorem effectiveClass_rank (s : State) : s.effectiveClass.rank = max s.ownClass.rank s.tu.carried.rank :=
  rank_max _ _

theorem partly_setCarried (s : State) (k : Cls) (m : BitVec 32) : Partly s (s.setCarried k m) :=
  partly_onTu s _ rfl (fun l => of_decide_eq_true l)

/-- A carried class that does not raise the effective class breaks nothing. -/
theorem setCarried_law {k : Cls} {m : BitVec 32} (h : k.rank ≤ s.effectiveClass.rank) (l : s.tripLaw = true) :
    (s.setCarried k m).tripLaw = true := by
  rw [tripLaw_iff] at l ⊢
  refine ⟨fun q => l.1 ?_, l.2⟩
  have ho : (s.setCarried k m).ownClass = s.ownClass := rfl
  simp only [Cls.quickOrAbove, decide_eq_true_eq, effectiveClass_rank, ho] at q h ⊢
  change 3 ≤ max s.ownClass.rank k.rank at q
  exact q.trans (max_le (le_max_left _ _) h)

theorem lawful_setCarried_none (s : State) (m : BitVec 32) : Lawful 0 s (s.setCarried .noClass m) :=
  (partly_setCarried s _ m).lawful (setCarried_law (Nat.zero_le _))

theorem partly_releaseTrip (s : State) (h : s.tu.state ≠ .lockout) : Partly s s.releaseTrip :=
  (partly_setTrip s (fun l => absurd l h) (by decide) (by decide)).trans
    (lawful_orderReleasedFromTrip _ (by rw [setTrip_tu]; exact TripState.noConfusion)).partly

theorem releaseTrip_law (s : State) : s.releaseTrip.tripLaw = true :=
  tripLaw_idle (by show ((s.setTrip .normal).tu.state).acting = false; rw [setTrip_tu]; rfl)

theorem lawful_handTripWord (s : State) (w : TripClasses) (mask : BitVec 32) : Lawful 0 s (s.handTripWord w mask) := by
  have h1 := partly_setCarried s (TripClasses.cls w) mask
  have idle : s.tu.state.acting = false → (s.setCarried (TripClasses.cls w) mask).tripLaw = true := fun h => tripLaw_idle h
  have capture : s.tu.state ≠ .lockout →
      Lawful 0 s ((s.setCarried (TripClasses.cls w) mask).enterCapture ⟨.remote, none⟩) := fun h =>
    (h1.trans (partly_enterCapture _ _ h)).lawful (fun _ => enterCapture_law _ _)
  have rise : Lawful 0 s (if s.effectiveClass.rank < (TripClasses.cls w).rank then
      ((s.setCarried (TripClasses.cls w) mask).appendSecondary ⟨.remote, none⟩).riseFrom s.effectiveClass
      else s.setCarried (TripClasses.cls w) mask) := by
    refine .ite (fun _ => ?_) (fun h => h1.lawful (setCarried_law (by omega)))
    exact (h1.trans (partly_appendRise _ _ _)).lawful (fun l => appendRise_law ((lawBefore_of_law l).congr rfl (fun _ => rfl)))
  unfold State.handTripWord
  dsimp only
  split
  next h =>
    exact .ite (fun _ => capture (by rw [h]; decide)) (fun _ => h1.lawful (fun _ => idle (by rw [h]; rfl)))
  next h =>
    refine .ite (fun _ => capture (by rw [h]; decide)) (fun _ => .ite (fun _ => ?_) (fun _ => ?_))
    · exact h1.lawful (fun _ => idle (by rw [h]; rfl))
    · exact (h1.trans (partly_releaseTrip _ (by show s.tu.state ≠ _; rw [h]; decide))).lawful (fun _ => releaseTrip_law _)
  all_goals exact rise

/-! ### The matrix -/

theorem lawful_appendAll (l : List CausePair) (s : State) : Lawful 0 s (l.foldl (fun s c => s.appendSecondary c) s) :=
  .foldl (fun a _ => lawful_onCurrent a _) l s

theorem partly_matrixChanged (s : State) (k : Cls) : Partly s (s.matrixChanged k) := by
  have enter : s.tu.state ≠ .lockout → ∀ l : List CausePair, Partly s (match l with
      | [] => s
      | first :: rest => rest.foldl (fun s c => s.appendSecondary c) (s.enterCapture first)) := by
    intro h l
    cases l with
    | nil => exact (Lawful.refl s).partly
    | cons x l => exact (partly_enterCapture s x h).trans (lawful_appendAll l _).partly
  unfold State.matrixChanged
  cases hs : s.tu.state
  case normal | releasing => exact enter (by rw [hs]; decide) _
  all_goals exact lawful_riseFrom_partly s k

theorem matrixChanged_law {k : Cls} (h : s.lawBefore k) : (s.matrixChanged k).tripLaw = true := by
  have enter : s.tu.state.acting = false → ∀ l : List CausePair, (match l with
      | [] => s
      | first :: rest => rest.foldl (fun s c => s.appendSecondary c) (s.enterCapture first)).tripLaw = true := by
    intro h l
    cases l with
    | nil => exact tripLaw_idle h
    | cons x l => exact (lawful_appendAll l _).trip.law (enterCapture_law s x)
  unfold State.matrixChanged
  cases hs : s.tu.state
  case normal | releasing => exact enter (by rw [hs]; rfl) _
  all_goals exact riseFrom_law h

/-! ### Reset, the end of a walk, the end of STOPPING -/

/-- At a master the law of the census timer is kept and LOST is not entered. -/
structure CensusSettled (s s' : State) : Prop where
  master : s'.isMaster = s.isMaster
  stays : s.isMaster = true → s'.rc.ringState = .lost → s.rc.ringState = .lost
  law : s.isMaster = true → s.censusLaw = true → s'.censusLaw = true

theorem CensusKept.settled {a : State} (h : CensusKept s a) : CensusSettled s a := ⟨h.master, h.stays, h.law⟩

theorem CensusSettled.trans {s a b : State} (h : CensusSettled s a) (h' : CensusSettled a b) : CensusSettled s b :=
  ⟨h'.master.trans h.master, fun m e => h.stays m (h'.stays (h.master.trans m) e),
    fun m l => h'.law (h.master.trans m) (h.law m l)⟩

/-- A piece of work that keeps the laws of the device; at a LOST master a census may have been made. -/
structure Settled (s s' : State) : Prop where
  sound : Sound 0 s s'
  trip : TripKept s s'
  census : CensusSettled s s'

theorem Lawful.settled {a : State} (h : Lawful 0 s a) : Settled s a := ⟨h.sound, h.trip, h.census.settled⟩

theorem Settled.trans {s a b : State} (h : Settled s a) (h' : Settled a b) : Settled s b :=
  ⟨h.sound.then h'.sound, h.trip.trans h'.trip, h.census.trans h'.census⟩

/-- At a follower there is no census. -/
theorem Settled.follower {a : State} (h : Settled s a) (hm : s.isMaster = false) : Lawful 0 s a :=
  ⟨h.sound, h.trip, h.census.master, fun m => absurd (hm.symm.trans m) (by decide),
    fun m => absurd (hm.symm.trans m) (by decide), fun m => absurd (hm.symm.trans m) (by decide)⟩

theorem settled_setTrip (s : State) {st : TripState} (hl : s.tu.state ≠ .lockout)
    (hc : s.tripLaw = true → (s.setTrip st).tripLaw = true) : Settled s (s.setTrip st) := by
  obtain ⟨hm, hr, hk⟩ := setTrip_census s st
  exact ⟨sound_setTrip s st, (stays_setTrip s (fun l => absurd l hl)).kept hc, hm, fun _ e => hr.symm.trans e, hk⟩

theorem ownClass_of_acting (h : s.tu.state.acting = true) : s.ownClass = s.latchedClass := by
  unfold State.ownClass
  cases hs : s.tu.state <;> simp_all [TripState.acting]

theorem effectiveClass_setTrip {st : TripState} (h : s.tu.state.acting = true) (h' : st.acting = true) :
    (s.setTrip st).effectiveClass = s.effectiveClass := by
  have e : (s.setTrip st).tu.state = st := by rw [setTrip_tu]
  have l : (s.setTrip st).latchedClass = s.latchedClass := by rw [State.latchedClass, setTrip_tu]; rfl
  have c : (s.setTrip st).tu.carried = s.tu.carried := by rw [setTrip_tu]
  rw [State.effectiveClass, State.effectiveClass, ownClass_of_acting h, ownClass_of_acting (by rw [e]; exact h'), l, c]

/-- From one of CAPTURE, STOPPING and STOPPED to another. -/
theorem setTrip_law {st : TripState} (h : s.tu.state.acting = true) (h' : st.acting = true) (hl : st ≠ .lockout)
    (l : s.tripLaw = true) : (s.setTrip st).tripLaw = true := by
  have e : (s.setTrip st).tu.state = st := by rw [setTrip_tu]
  rw [tripLaw_iff] at l ⊢
  rw [effectiveClass_setTrip h h', e]
  refine ⟨fun q _ i => ?_, fun c => absurd c hl⟩
  rw [State.slot, setTrip_se]
  exact l.1 q h i

theorem settled_captured (s : State) : Settled s s.captured := by
  unfold State.captured
  cases hs : s.tu.state
  case capture =>
    have go : ∀ st : TripState, st.acting = true → st ≠ .lockout → Settled s (s.setTrip st) := fun st h1 h2 =>
      settled_setTrip s (by rw [hs]; decide) (setTrip_law (by rw [hs]; rfl) h1 h2)
    dsimp only
    split
    · exact go _ rfl (by decide)
    · exact go _ rfl (by decide)
  all_goals exact (lawful_notify s _).settled

theorem settled_walkCompletion (s : State) : Settled s s.walkCompletion := by
  unfold State.walkCompletion
  split
  · split
    · exact (((lawful_onIs s _ rfl rfl rfl).then (lawful_onTu _ _ ⟨rfl, rfl, rfl, rfl⟩)).settled).trans (settled_captured _)
    · exact (Lawful.refl s).settled
  · exact (Lawful.refl s).settled

theorem settled_stepTrip (s : State) (a b : Bool) : Settled s (s.stepTrip a b) := by
  unfold State.stepTrip
  split
  · rename_i h
    exact settled_setTrip s (by rw [h.1]; decide) (setTrip_law (by rw [h.1]; rfl) rfl (by decide))
  · exact (Lawful.refl s).settled

/-- A part of the latched causes has no higher class than all of them. -/
theorem classOfCauses_filter (m : Matrix) (p : CausePair → Bool) (l : List CausePair) :
    (classOfCauses m (l.filter p)).rank ≤ (classOfCauses m l).rank := by
  have step : ∀ (l : List CausePair) (a b : Cls), a.rank ≤ b.rank →
      ((l.filter p).foldl (fun acc c => acc.max (m.get c.cause)) a).rank
        ≤ (l.foldl (fun acc c => acc.max (m.get c.cause)) b).rank := by
    intro l
    induction l with
    | nil => intro a b h; exact h
    | cons c l ih =>
      intro a b h
      cases hp : p c
      · rw [List.filter_cons_of_neg (by simp [hp])]
        exact ih _ _ (h.trans ((Nat.le_max_left _ _).trans_eq (rank_max b _).symm))
      · rw [List.filter_cons_of_pos hp]
        refine ih _ _ ?_
        rw [rank_max, rank_max]
        exact max_le_max h (Nat.le_refl _)
  exact step l _ _ (Nat.le_refl _)

theorem causesLaw_filter (p : CausePair → Bool) (l : s.causesLaw = true) :
    (s.tu.causes.filter p).Pairwise (fun a b => a.before b = true) := (of_decide_eq_true l : List.Pairwise _ _).filter _

/-- Causes cleared break nothing. -/
theorem lawful_clearCauses (s : State) (p : CausePair → Bool) :
    Lawful 0 s (s.onTu (fun t => { t with causes := s.tu.causes.filter p })) := by
  refine (partly_onTu s _ rfl (causesLaw_filter p)).lawful (fun l => ?_)
  rw [tripLaw_iff] at l ⊢
  refine ⟨fun q => l.1 ?_, l.2⟩
  have hc := classOfCauses_filter s.tu.matrix p s.tu.causes
  have ho : (s.onTu (fun t => { t with causes := s.tu.causes.filter p })).ownClass.rank ≤ s.ownClass.rank := by
    unfold State.ownClass
    rw [State.onTu_tu]
    dsimp only
    split
    · exact Nat.le_refl _
    · exact Nat.le_refl _
    all_goals exact hc
  simp only [Cls.quickOrAbove, decide_eq_true_eq, effectiveClass_rank] at q ⊢
  exact q.trans (max_le_max ho (Nat.le_refl _))

theorem settled_resetTrip (s : State) : Settled s s.resetTrip.1 := by
  have clear := (lawful_clearCauses s (fun c => !s.conditionGone c)).settled
  unfold State.resetTrip
  dsimp only
  split
  next => exact (Lawful.refl s).settled
  next => exact (Lawful.refl s).settled
  next => exact (Lawful.refl s).settled
  next => split <;> exact clear
  next => split <;> exact clear
  next h =>
    split
    · exact clear
    · refine (clear.trans (lawful_onTu _ _ ⟨rfl, rfl, rfl, rfl⟩).settled).trans
        (settled_setTrip _ (by show s.tu.state ≠ _; rw [h]; decide) (fun _ => tripLaw_idle ?_))
      rw [setTrip_tu]; rfl

end Sys2Proof.Machine

end

section
/-! SUPPORT. The laws of the store, up to order. -/

namespace Sys2Proof.Machine

variable {s : State}

/-! ### The laws of the store, up to order -/

/-- A strip that can belong to a reception in progress: FILLING, RECEIVING and REMOTE. -/
def Strip.incoming (x : Strip) : Prop := x.receiving = true ∧ x.complete = false ∧ ∃ h k, x.origin = .remote h k

/-- The laws of the store, of its bytes, free list and strips and of the reception contexts. -/
structure StoreGood (m : Memory) (free : List Nat) (strips : List Strip) (cs : List (Option Reception)) : Prop where
  mem : Memory.wf m = true
  tiles : (free ++ strips.flatMap (fun x => x.tiles) ++ reservedTiles cs).Perm (List.range 1024)
  ids : (strips.map (fun x => x.id)).Nodup
  own : ((cs.filterMap id).map (fun r => r.strip)).Nodup
  received : ∀ r, some r ∈ cs → ∃ x ∈ strips, x.id = r.strip ∧ x.incoming ∧ x.tiles = []

theorem storeLaw_good (s : State) :
    s.storeLaw = true ↔ StoreGood s.is.mem s.is.free s.is.strips s.im.contexts.list := by
  rw [storeLaw_iff, allTiles_eq]
  constructor
  · rintro ⟨h1, h2, h3, h4, h5⟩
    refine ⟨h1, h2, h3, h4, fun r hr => ?_⟩
    obtain ⟨x, hx, e, r1, r2, t, o⟩ := h5 r (List.mem_filterMap.2 ⟨some r, hr, rfl⟩)
    exact ⟨x, hx, e, ⟨r1, r2, o⟩, t⟩
  · rintro ⟨h1, h2, h3, h4, h5⟩
    refine ⟨h1, h2, h3, h4, fun r hr => ?_⟩
    obtain ⟨c, hc, rfl⟩ := List.mem_filterMap.1 hr
    obtain ⟨x, hx, e, ⟨r1, r2, o⟩, t⟩ := h5 r hc
    exact ⟨x, hx, e, r1, r2, t, o⟩

theorem reservedTiles_perm {cs cs' : List (Option Reception)} (h : cs.Perm cs') :
    (reservedTiles cs).Perm (reservedTiles cs') := h.flatMap_right _

theorem StoreGood.perm {m : Memory} {f f' : List Nat} {l l' : List Strip} {cs cs' : List (Option Reception)}
    (h : StoreGood m f l cs) (hf : f.Perm f') (hl : l.Perm l') (hc : cs.Perm cs') : StoreGood m f' l' cs' where
  mem := h.mem
  tiles := (((hf.append (hl.flatMap_right _)).append (reservedTiles_perm hc)).symm).trans h.tiles
  ids := ((hl.map _).nodup_iff).1 h.ids
  own := (((hc.filterMap _).map _).nodup_iff).1 h.own
  received r hr := by
    obtain ⟨x, hx, e⟩ := h.received r (hc.mem_iff.2 hr)
    exact ⟨x, hl.mem_iff.1 hx, e⟩

/-- A strip that is no reception's leaves, and its tiles are free. -/
theorem StoreGood.leave {m : Memory} {f : List Nat} {x : Strip} {l : List Strip} {cs : List (Option Reception)}
    (h : StoreGood m f (x :: l) cs) (hx : ¬ x.incoming) : StoreGood m (f ++ x.tiles) l cs where
  mem := h.mem
  tiles := by
    have := h.tiles
    rw [List.flatMap_cons, ← List.append_assoc] at this
    exact this
  ids := (List.nodup_cons.1 h.ids).2
  own := h.own
  received r hr := by
    obtain ⟨y, hy, e, i, t⟩ := h.received r hr
    rcases List.mem_cons.1 hy with rfl | hy
    · exact absurd i hx
    · exact ⟨y, hy, e, i, t⟩

theorem perm_move (a b c d : List Nat) : (a ++ b ++ c ++ d).Perm (a ++ c ++ (b ++ d)) := by
  rw [← List.append_assoc (a ++ c), List.append_assoc a, List.append_assoc a c]
  exact ((List.perm_append_comm).append_left a).append_right d

/-- A reception ends, its strip leaves, and its reservation is free. -/
theorem StoreGood.abandon {m : Memory} {f : List Nat} {x : Strip} {l : List Strip} {r : Reception}
    {cs : List (Option Reception)} (h : StoreGood m f (x :: l) (some r :: cs)) (hx : x.id = r.strip) :
    StoreGood m (f ++ r.reservation) l (none :: cs) := by
  have hids := List.nodup_cons.1 h.ids
  have hown := List.nodup_cons.1 (show (r.strip :: (cs.filterMap id).map (fun r => r.strip)).Nodup from h.own)
  have ht : x.tiles = [] := by
    obtain ⟨y, hy, e, -, t⟩ := h.received r (by simp)
    rcases List.mem_cons.1 hy with rfl | hy
    · exact t
    · exact absurd (List.mem_map.2 ⟨y, hy, e.trans hx.symm⟩) hids.1
  refine ⟨h.mem, ?_, hids.2, hown.2, fun q hq => ?_⟩
  · have := h.tiles
    rw [List.flatMap_cons, ht, List.nil_append] at this
    refine List.Perm.trans ?_ this
    show (f ++ r.reservation ++ l.flatMap (fun x => x.tiles) ++ reservedTiles cs).Perm
      (f ++ l.flatMap (fun x => x.tiles) ++ (r.reservation ++ reservedTiles cs))
    exact perm_move _ _ _ _
  · have hq' : some q ∈ cs := by simpa using hq
    obtain ⟨y, hy, e, i, t⟩ := h.received q (List.mem_cons_of_mem _ hq')
    rcases List.mem_cons.1 hy with rfl | hy
    · refine absurd (List.mem_map.2 ⟨q, List.mem_filterMap.2 ⟨some q, hq', rfl⟩, ?_⟩) hown.1
      exact e.symm.trans hx
    · exact ⟨y, hy, e, i, t⟩

/-- A strip joins under a new id, with tiles that were free. -/
theorem StoreGood.join {m : Memory} {f t : List Nat} {y : Strip} {l : List Strip} {cs : List (Option Reception)}
    (h : StoreGood m (f ++ t) l cs) (ht : y.tiles = t) (hy : ∀ x ∈ l, x.id ≠ y.id) : StoreGood m f (y :: l) cs where
  mem := h.mem
  tiles := by rw [List.flatMap_cons, ht, ← List.append_assoc]; exact h.tiles
  ids := List.nodup_cons.2 ⟨fun c => by
    obtain ⟨x, hx, e⟩ := List.mem_map.1 c
    exact hy x hx e, h.ids⟩
  own := h.own
  received r hr := by
    obtain ⟨x, hx, e⟩ := h.received r hr
    exact ⟨x, List.mem_cons_of_mem _ hx, e⟩

/-- A reception begins: its strip joins under a new id, and its reservation was free. -/
theorem StoreGood.receive {m : Memory} {f : List Nat} {y : Strip} {l : List Strip} {r : Reception}
    {cs : List (Option Reception)} (h : StoreGood m (f ++ r.reservation) l (none :: cs)) (ht : y.tiles = [])
    (hi : y.incoming) (hr : r.strip = y.id) (hy : ∀ x ∈ l, x.id ≠ y.id) : StoreGood m f (y :: l) (some r :: cs) := by
  refine ⟨h.mem, ?_, List.nodup_cons.2 ⟨fun c => ?_, h.ids⟩, ?_, fun q hq => ?_⟩
  · rw [List.flatMap_cons, ht, List.nil_append]
    refine List.Perm.trans ?_ h.tiles
    show (f ++ l.flatMap (fun x => x.tiles) ++ (r.reservation ++ reservedTiles cs)).Perm
      (f ++ r.reservation ++ l.flatMap (fun x => x.tiles) ++ reservedTiles cs)
    exact (perm_move _ _ _ _).symm
  · obtain ⟨x, hx, e⟩ := List.mem_map.1 c
    exact hy x hx e
  · refine List.nodup_cons.2 ⟨fun c => ?_, h.own⟩
    obtain ⟨q, hq, e⟩ := List.mem_map.1 c
    obtain ⟨c', hc, rfl⟩ := List.mem_filterMap.1 hq
    obtain ⟨x, hx, e', -⟩ := h.received q (List.mem_cons_of_mem _ hc)
    exact hy x hx (e'.trans (e.trans hr))
  · rcases List.mem_cons.1 hq with hq | hq
    · cases hq
      exact ⟨y, by simp, hr.symm, hi, ht⟩
    · obtain ⟨x, hx, e⟩ := h.received q (List.mem_cons_of_mem _ hq)
      exact ⟨x, List.mem_cons_of_mem _ hx, e⟩

/-- The law of the frozen tiles, of a list of strips. -/
structure FreezeGood (l : List Strip) : Prop where
  sum : frozenSum l ≤ 256
  receiving : ∀ x ∈ l, x.receiving = true → x.freezeSet = []

theorem freezeLaw_good (s : State) : s.freezeLaw = true ↔ FreezeGood s.is.strips := by
  rw [freezeLaw_iff, frozenTiles_eq]
  exact ⟨fun ⟨a, b⟩ => ⟨a, b⟩, fun ⟨a, b⟩ => ⟨a, b⟩⟩

theorem frozenSum_perm {l l' : List Strip} (h : l.Perm l') : frozenSum l = frozenSum l' :=
  ((h.filter _).map _).sum_eq

theorem FreezeGood.perm {l l' : List Strip} (h : FreezeGood l) (hl : l.Perm l') : FreezeGood l' :=
  ⟨(frozenSum_perm hl) ▸ h.sum, fun x hx => h.receiving x (hl.mem_iff.2 hx)⟩

theorem freezeGood_cons (x : Strip) (l : List Strip) : FreezeGood (x :: l) ↔
    (if x.freezeSet = [] then 0 else x.tiles.length) + frozenSum l ≤ 256 ∧ (x.receiving = true → x.freezeSet = [])
      ∧ ∀ y ∈ l, y.receiving = true → y.freezeSet = [] := by
  constructor
  · rintro ⟨h1, h2⟩
    rw [frozenSum_cons] at h1
    exact ⟨h1, h2 x (by simp), fun y hy => h2 y (by simp [hy])⟩
  · rintro ⟨h1, h2, h3⟩
    refine ⟨by rw [frozenSum_cons]; exact h1, fun y hy => ?_⟩
    rcases List.mem_cons.1 hy with rfl | hy
    · exact h2
    · exact h3 y hy

theorem FreezeGood.tail {x : Strip} {l : List Strip} (h : FreezeGood (x :: l)) : FreezeGood l := by
  obtain ⟨h1, -, h3⟩ := (freezeGood_cons x l).1 h
  exact ⟨by omega, h3⟩

/-- A strip that takes another's place is frozen only where that was, with no more tiles, and receives only where that did. -/
theorem FreezeGood.swap {x y : Strip} {l : List Strip} (h : FreezeGood (x :: l)) (hf : y.freezeSet = x.freezeSet)
    (ht : x.freezeSet ≠ [] → y.tiles.length ≤ x.tiles.length) (hr : y.receiving = true → x.receiving = true) :
    FreezeGood (y :: l) := by
  rw [freezeGood_cons] at h ⊢
  obtain ⟨h1, h2, h3⟩ := h
  refine ⟨?_, fun e => by rw [hf]; exact h2 (hr e), h3⟩
  rw [hf]
  by_cases e : x.freezeSet = []
  · simpa [e] using h1
  · have := ht e
    simp only [e, if_false] at h1 ⊢
    omega

theorem FreezeGood.cons {y : Strip} {l : List Strip} (h : FreezeGood l) (hf : y.freezeSet = []) : FreezeGood (y :: l) :=
  (freezeGood_cons y l).2 ⟨by simpa [hf] using h.sum, fun _ => hf, h.receiving⟩

/-! ### The strip with an id -/

theorem strip_some {i : Nat} {x : Strip} (h : s.strip i = some x) : x ∈ s.is.strips ∧ x.id = i :=
  ⟨List.mem_of_find?_eq_some h, by simpa using List.find?_some h⟩

/-- The strip with an id and the others, where no two have one id. -/
theorem strips_perm {i : Nat} {x : Strip} (hn : (s.is.strips.map (fun x => x.id)).Nodup) (h : s.strip i = some x)
    (f : Strip → Strip) :
    (s.is.strips.map (fun p => if p.id = i then f p else p)).Perm (f x :: s.is.strips.filter (fun y => y.id != i)) := by
  unfold State.strip at h
  generalize s.is.strips = l at *
  induction l with
  | nil => simp at h
  | cons y l ih =>
    rw [List.map_cons, List.nodup_cons] at hn
    by_cases e : y.id = i
    · have hx : y = x := by simpa [List.find?_cons, e] using h
      subst hx
      have hl : ∀ z ∈ l, z.id ≠ i := fun z hz c => hn.1 (List.mem_map.2 ⟨z, hz, c.trans e.symm⟩)
      rw [List.map_cons, if_pos e, List.filter_cons_of_neg (by simp [e])]
      refine List.Perm.cons _ (List.Perm.of_eq ?_)
      rw [List.filter_eq_self.2 (fun z hz => by simpa using hl z hz)]
      conv_rhs => rw [← List.map_id l]
      exact List.map_congr_left (fun z hz => if_neg (hl z hz))
    · rw [List.find?_cons_of_neg (by simpa using e)] at h
      rw [List.map_cons, if_neg e, List.filter_cons_of_pos (by simpa using e)]
      exact ((ih hn.2 h).cons y).trans (List.Perm.swap _ _ _)

theorem strips_perm_self {i : Nat} {x : Strip} (hn : (s.is.strips.map (fun x => x.id)).Nodup) (h : s.strip i = some x) :
    s.is.strips.Perm (x :: s.is.strips.filter (fun y => y.id != i)) := by
  have := strips_perm hn h id
  simpa using this

theorem strip_none {i : Nat} (h : s.strip i = none) : s.is.strips.filter (fun y => y.id != i) = s.is.strips := by
  rw [List.filter_eq_self]
  intro x hx
  have := List.find?_eq_none.1 h x hx
  simpa using this

/-! ### A strip leaves -/

theorem removeStrip_is (s : State) (i : Nat) : (s.removeStrip i).is =
    { s.is with
      strips := s.is.strips.filter (fun x => x.id != i)
      age := s.is.age.filter (fun a => a != i)
      free := s.is.free ++ ((s.strip i).map (fun x => x.tiles)).getD []
      walk := s.is.walk.map (fun w => w.lose i) } := by
  unfold State.removeStrip
  cases s.strip i <;> rfl

theorem removeStrip_im (s : State) (i : Nat) : (s.removeStrip i).im = s.im := rfl

theorem keeps_removeStrip (s : State) (i : Nat) : Keeps [.is, .ms] s (s.removeStrip i) :=
  ((keeps_onIs s _).mono (by decide)).trans ((keeps_onMs _ _).mono (by decide))

/-- A strip that is no reception's leaves the directory. -/
theorem lawful_removeStrip (s : State) (i : Nat) (h : ∀ x, s.strip i = some x → ¬ x.incoming) :
    Lawful 0 s (s.removeStrip i) := by
  refine lawful_store ((keeps_removeStrip s i).mono (by decide)) ⟨fun l => ?_, fun l fl => ?_⟩
  · rw [storeLaw_good] at l ⊢
    rw [removeStrip_is, removeStrip_im]
    cases hx : s.strip i with
    | none => dsimp only; rw [strip_none hx]; simpa using l
    | some x => exact (l.perm (.refl _) (strips_perm_self l.ids hx) (.refl _)).leave (h x hx)
  · rw [storeLaw_good] at l
    rw [freezeLaw_good] at fl ⊢
    rw [removeStrip_is]
    cases hx : s.strip i with
    | none => dsimp only; rw [strip_none hx]; exact fl
    | some x => exact (fl.perm (strips_perm_self l.ids hx)).tail

/-- What a reception context holds, and the other contexts. -/
theorem contexts_perm (t : Table 2 (Option Reception)) (c : Fin 2) (v : Option Reception) :
    ∃ rest, t.list.Perm (t.get c :: rest) ∧ (t.set c v).list.Perm (v :: rest) := by
  obtain ⟨l, hl⟩ := t
  match l, hl with
  | [a, b], _ =>
    match c with
    | 0 => exact ⟨[b], .refl _, .refl _⟩
    | 1 => exact ⟨[a], List.Perm.swap _ _ _, List.Perm.swap _ _ _⟩

theorem abandon_is (s : State) (c : Fin 2) (r : Reception) : (s.abandon c r).is =
    { s.is with
      strips := s.is.strips.filter (fun x => x.id != r.strip)
      age := s.is.age.filter (fun a => a != r.strip)
      free := s.is.free ++ r.reservation ++ ((s.strip r.strip).map (fun x => x.tiles)).getD []
      walk := s.is.walk.map (fun w => w.lose r.strip) } := by
  unfold State.abandon State.abandonStrip
  rw [removeStrip_is]
  rfl

theorem keeps_abandon (s : State) (c : Fin 2) (r : Reception) : Keeps [.is, .im, .ms] s (s.abandon c r) :=
  (((keeps_onIm s _).mono (by decide)).trans ((keeps_onIs _ _).mono (by decide))).trans
    ((keeps_removeStrip _ _).mono (by decide))

/-- A reception in progress is abandoned. -/
theorem lawful_abandon (s : State) {c : Fin 2} {r : Reception} (hc : s.im.contexts.get c = some r) :
    Lawful 0 s (s.abandon c r) := by
  obtain ⟨rest, hp, hp'⟩ := contexts_perm s.im.contexts c none
  rw [hc] at hp
  have find : s.storeLaw = true → ∃ x, s.strip r.strip = some x ∧ x.tiles = [] := by
    intro l
    rw [storeLaw_good] at l
    obtain ⟨x, hx, e, -, t⟩ := l.received r (hp.mem_iff.2 (by simp))
    cases hs : s.strip r.strip with
    | none => exact absurd (List.find?_eq_none.1 hs x hx) (by simp [e])
    | some y =>
      refine ⟨y, rfl, ?_⟩
      obtain ⟨hy, ey⟩ := strip_some hs
      rw [List.inj_on_of_nodup_map l.ids hy hx (ey.trans e.symm)]
      exact t
  have him : (s.abandon c r).im.contexts = s.im.contexts.set c none := rfl
  refine lawful_store (keeps_abandon s c r) ⟨fun l => ?_, fun l fl => ?_⟩
  · obtain ⟨x, hx, ht⟩ := find l
    rw [storeLaw_good] at l ⊢
    rw [abandon_is, him, hx]
    have := ((l.perm (.refl _) (strips_perm_self l.ids hx) hp).abandon (strip_some hx).2).perm (.refl _) (.refl _) hp'.symm
    simpa [ht] using this
  · obtain ⟨x, hx, -⟩ := find l
    rw [storeLaw_good] at l
    rw [freezeLaw_good] at fl ⊢
    rw [abandon_is]
    exact (fl.perm (strips_perm_self l.ids hx)).tail

end Sys2Proof.Machine

end

section
/-! SUPPORT. The Mark Scanner, the Register Unit and the cameras keep the laws. -/

namespace Sys2Proof.Machine

variable {s : State}

/-! ### The Mark Scanner -/

theorem lawful_takeUpFrom (q : List Job) (s : State) : Lawful 0 s (takeUpFrom q s) := by
  induction q generalizing s with
  | nil => exact lawful_onMs s _
  | cons j rest ih =>
    unfold takeUpFrom
    split
    · exact (lawful_onMs s _).then (lawful_onStrip _ _ _ (fun x _ _ => ⟨rfl, rfl, rfl, rfl, rfl, fun h => h⟩))
    · exact (lawful_onMs s _).then (ih _)

theorem lawful_takeUp (s : State) : Lawful 0 s s.takeUp := .ite (fun _ => .refl s) (fun _ => lawful_takeUpFrom _ s)

theorem lawful_offerJob (s : State) (j : Job) : Lawful 0 s (s.offerJob j) :=
  .ite (fun _ => .refl s)
    (fun _ => .ite (fun _ => (lawful_onMs s _).then (lawful_takeUp _)) (fun _ => lawful_onMs s _))

/-- A strip that becomes ready for search has some jobs offered in turn, or none. -/
theorem readyForSearch_jobs (s : State) (id : Nat) : ∃ l : List Job, s.readyForSearch id = l.foldl State.offerJob s := by
  unfold State.readyForSearch
  cases s.strip id with
  | none => exact ⟨[], rfl⟩
  | some x =>
    dsimp only
    cases x.origin with
    | remote _ _ => exact ⟨[], rfl⟩
    | here _ =>
      cases x.complete with
      | false => exact ⟨[], rfl⟩
      | true =>
        cases x.stamp with
        | known _ _ => exact ⟨_, (List.foldl_map (f := fun i => (⟨id, i⟩ : Job))).symm⟩
        | _ => exact ⟨[], rfl⟩

theorem lawful_readyForSearch (s : State) (id : Nat) : Lawful 0 s (s.readyForSearch id) := by
  obtain ⟨l, e⟩ := readyForSearch_jobs s id
  rw [e]
  exact .foldl lawful_offerJob l s

/-! ### The Register Unit -/

theorem lawful_onLoop (s : State) (i : SlotNo) (f : Loop → Loop) : Lawful 0 s (s.onLoop i f) := lawful_onRu s _
theorem lawful_onInput (s : State) (i : Fin 8) (f : MarkInput → MarkInput) : Lawful 0 s (s.onInput i f) := lawful_onRu s _

theorem lawful_setLoopState (s : State) (i : SlotNo) (st : LoopState) : Lawful 0 s (s.setLoopState i st) :=
  .ite (fun _ => .refl s) (fun _ => (lawful_onLoop s i _).then (lawful_notify _ _))

theorem lawful_deliver (s : State) (i : SlotNo) (c : Int) : Lawful 0 s (s.deliver i c) :=
  lawful_onSlot s i _ (fun h => ⟨h.trim, h.list, h.gear⟩) (.refl s _)

theorem lawful_judgeMark (s : State) (i : SlotNo) (mark : Angle) : Lawful 0 s (s.judgeMark i mark) :=
  .ite (fun _ => lawful_onLoop s i _) (fun _ =>
    (Lawful.ite (fun _ => lawful_deliver s i _) (fun _ => .refl s)).then
      ((lawful_onLoop _ i _).then (lawful_setLoopState _ i _)))

theorem lawful_offerMark (s : State) (n : Fin 8) (mark : Angle) (i : SlotNo) : Lawful 0 s (s.offerMark n mark i) :=
  .ite (fun _ => lawful_judgeMark s i mark) (fun _ => .refl s)

theorem lawful_askCapture (s : State) (i : Fin 8) : Lawful 0 s (s.askCapture i) := by
  unfold State.askCapture
  split
  · exact .refl s
  · split
    · exact .refl s
    · exact lawful_onInput s i _
    · exact (lawful_onInput s i _).then (.foldl (fun s j => lawful_offerMark s i _ j) _ _)

theorem lawful_askCaptures (s : State) : Lawful 0 s s.askCaptures := .foldl lawful_askCapture _ s

theorem lawful_markEdge (s : State) (i : Fin 8) (e : Edge) : Lawful 0 s (s.markEdge i e) :=
  .ite (fun _ => (lawful_onInput s i _).then (lawful_askCapture _ i)) (fun _ => .refl s)

theorem lawful_holdOffExpiry (s : State) (i : Fin 8) : Lawful 0 s (s.holdOffExpiry i) :=
  .ite (fun _ => lawful_onInput s i _) (fun _ => .refl s)

theorem lawful_raiseSlot (s : State) (c : Cause) (i : SlotNo) : Lawful 0 s (s.raiseSlot c i) := lawful_raise s _

theorem lawful_countMiss (s : State) (i : SlotNo) : Lawful 0 s (s.countMiss i) :=
  (lawful_onLoop s i _).then
    (.ite (fun _ => (lawful_notify _ _).then (lawful_raiseSlot _ _ i)) (fun _ => .refl _))

theorem lawful_judgePasses (s : State) (a b : Angle) : Lawful 0 s (s.judgePasses a b) :=
  (lawful_onRu s _).then (.foldl (fun s i => (lawful_notify s _).then (lawful_raiseSlot _ _ i)) _ _)

theorem lawful_reach (s : State) (a : Angle) : Lawful 0 s (s.reach a) := by
  unfold State.reach
  refine Lawful.then ?_ (lawful_onRu _ _)
  split
  · exact .ite (fun _ => lawful_judgePasses s _ _) (fun _ => .refl s)
  · exact .refl s

theorem lawful_armPassCompare (s : State) (p : HubTime) (a : Angle) : Lawful 0 s (s.armPassCompare p a) :=
  .ite (fun _ => lawful_reach s a) (fun _ => lawful_onRu s _)

theorem lawful_passCompare (s : State) : Lawful 0 s s.passCompare := by
  unfold State.passCompare
  split
  · exact .ite (fun _ => lawful_reach s _) (fun _ => .refl s)
  · exact .refl s

/-- The marking of views and exports. -/
theorem lawful_markDirty (b s : State) : Lawful 0 s (markDirty b s) := lawful_onVu s _ rfl

theorem Lawful.event {f : State → State} (h : Lawful 0 s (f s)) : Lawful 0 s (s.event f) := h.then (lawful_markDirty s _)

theorem lawful_registerGrowth (s : State) (p : HubTime) (a : Angle) : Lawful 0 s (s.registerGrowth p a) :=
  (Lawful.event (lawful_askCaptures s)).then (lawful_armPassCompare _ p a)

theorem lawful_registerEmptied (s : State) : Lawful 0 s s.registerEmptied := (lawful_askCaptures s).then (lawful_onRu _ _)

theorem lawful_takeResult (s : State) (i : SlotNo) (c : Fin 4) (mark : Option Angle) :
    Lawful 0 s (s.takeResult i c mark) := by
  unfold State.takeResult
  split
  · split
    · exact lawful_judgeMark s i _
    · exact lawful_countMiss s i
  · exact .refl s

theorem lawful_storeResult (s : State) (id : Nat) (i : SlotNo) (r : ScanResult) :
    Lawful 0 s (s.onStrip id (fun x => { x with results := x.results.set i (some r) })) :=
  lawful_onStrip s id _ (fun _ _ _ => ⟨rfl, rfl, rfl, rfl, rfl, fun h => h⟩)

theorem lawful_stopScanning (s : State) (id : Nat) : Lawful 0 s (s.onStrip id (fun x => { x with scanning := false })) :=
  lawful_onStrip s id _ (fun _ _ _ => ⟨rfl, rfl, rfl, rfl, rfl, fun h => h⟩)

theorem lawful_completeScan (s : State) (p : Scan) : Lawful 0 s (s.completeScan p) :=
  (lawful_storeResult s _ _ _).then ((lawful_takeResult _ _ _ _).then ((lawful_onMs _ _).then
    ((lawful_stopScanning _ _).then ((lawful_onMs _ _).then (lawful_takeUp _)))))

theorem lawful_scanCompletion (s : State) : Lawful 0 s s.scanCompletion := by
  unfold State.scanCompletion
  split
  · exact .ite (fun _ => lawful_completeScan s _) (fun _ => .refl s)
  · exact .refl s

theorem replied_reqRegisterInput (i : Option Nat) (items : InputItems) (s : State) : Replied s (reqRegisterInput i items s) := by
  unfold reqRegisterInput
  split
  · exact .same s _
  · exact .refusing fun _ => (lawful_onInput s _ _).replied _

theorem replied_reqRegisterLoop (i : Option Nat) (items : LoopItems) (s : State) : Replied s (reqRegisterLoop i items s) := by
  unfold reqRegisterLoop
  split
  · exact .same s _
  · refine .refusing fun _ => Lawful.replied ?_ _
    exact .ite (fun _ => lawful_onLoop s _ _) (fun _ => (lawful_onLoop s _ _).then (lawful_notify _ _))

/-! ### Cameras -/

theorem lawful_askStampsOnly (s : State) : Lawful 0 s s.askStampsOnly := by
  unfold State.askStampsOnly
  exact lawful_onIs_map s _ (fun x => { x with stamp := x.stamp.ask s.su.tracker })
    (fun x _ => ⟨rfl, rfl, rfl, rfl, rfl, fun h => h⟩) rfl rfl rfl

theorem lawful_askStamps (s : State) : Lawful 0 s s.askStamps :=
  (lawful_askStampsOnly s).then (.foldl (fun s id => lawful_readyForSearch s id) _ _)

theorem lawful_fire (s : State) (i : Fin 4) (f : Firing) : Lawful 0 s (s.fire i f) :=
  (lawful_onCamera s i _).then (lawful_notify _ _)

theorem lawful_triggerFire (s : State) (i : Fin 4) : Lawful 0 s (s.triggerFire i) := by
  unfold State.triggerFire
  split
  · exact (lawful_onCamera s i _).then (lawful_fire _ i _)
  · exact .refl s

theorem lawful_pulseEnd (s : State) (i : Fin 4) : Lawful 0 s (s.pulseEnd i) :=
  .ite (fun _ => lawful_onCamera s i _) (fun _ => .refl s)

theorem lawful_armFiring (s : State) (i : Fin 4) (f : Firing) : Lawful 0 s (s.armFiring i f) :=
  .ite (fun _ => lawful_fire s i f) (fun _ => lawful_onCamera s i _)

theorem lawful_scheduleCamera (e : HistEntry) (s : State) (i : Fin 4) : Lawful 0 s (State.scheduleCamera e s i) :=
  (lawful_onCamera s i _).then (.foldl (fun s f => lawful_armFiring s i f) _ _)

theorem lawful_storeGrowth (s : State) (e : HistEntry) : Lawful 0 s (s.storeGrowth e) :=
  (lawful_askStamps s).then (.foldl (lawful_scheduleCamera e) _ _)

theorem lawful_storeEmptied (s : State) : Lawful 0 s s.storeEmptied :=
  (lawful_askStamps s).then (lawful_onIs _ _ rfl rfl rfl)

theorem replied_reqCameraSet (c : Option Nat) (items : CameraItems) (s : State) : Replied s (reqCameraSet c items s) := by
  unfold reqCameraSet
  split
  · exact .same s _
  · exact .refusing fun _ => (lawful_onCamera s _ _).replied _

theorem replied_reqTriggerSet (c : Option Nat) (l : Option (List Nat)) (s : State) : Replied s (reqTriggerSet c l s) := by
  unfold reqTriggerSet
  rcases argFin 4 c with _ | i
  · exact .same s _
  rcases l with _ | l
  · exact .same s _
  · exact .refusing fun _ => .refusing fun _ => (lawful_onCamera s _ _).replied _

theorem replied_reqFreezeSpanSet (v : Option Nat) (s : State) : Replied s (reqFreezeSpanSet v s) := by
  cases v with
  | none => exact .same s _
  | some v => exact (lawful_onIs s _ rfl rfl rfl).replied _

end Sys2Proof.Machine

end

section
/-! SUPPORT. Strips opened, filled and closed keep the laws. -/

namespace Sys2Proof.Machine

variable {s : State}

/-! ### The id of a new strip -/

theorem nextId_range (c : Nat) : 1 ≤ nextId c ∧ nextId c ≤ 65535 := by unfold nextId; split <;> omega

/-- The value of the id count `k` ids after the first. -/
theorem nextId_iterate (c k : Nat) : nextId^[k] (nextId c) = (nextId c - 1 + k) % 65535 + 1 := by
  have next (b : Nat) : nextId (b % 65535 + 1) = (b + 1) % 65535 + 1 := by
    rw [← Nat.mod_add_mod]
    have below := Nat.mod_lt b (show 0 < 65535 by decide)
    unfold nextId
    by_cases last : b % 65535 = 65534
    · rw [last]; rfl
    · rw [if_neg (by omega), Nat.mod_eq_of_lt (a := b % 65535 + 1) (by omega)]
  induction k with
  | zero =>
    obtain ⟨low, high⟩ := nextId_range c
    show nextId c = (nextId c - 1) % 65535 + 1
    rw [Nat.mod_eq_of_lt (by omega), Nat.sub_add_cancel low]
  | succ k ih => rw [Function.iterate_succ_apply', ih, next]; rfl

theorem freshId_range (ids : List Nat) (n c : Nat) : 1 ≤ freshId ids n c ∧ freshId ids n c ≤ 65535 := by
  induction n generalizing c with
  | zero => exact nextId_range c
  | succ n ih =>
    unfold freshId
    split
    · exact ih _
    · exact nextId_range c

/-- Where no fresh id is found, every id that was tried is taken. -/
theorem freshId_taken {ids : List Nat} {n c : Nat} (h : freshId ids n c ∈ ids) (k : Nat) (hk : k ≤ n) :
    nextId^[k] (nextId c) ∈ ids := by
  induction n generalizing c k with
  | zero => obtain rfl : k = 0 := by omega
            exact h
  | succ n ih =>
    unfold freshId at h
    split at h
    next ht =>
      have ht : nextId c ∈ ids := by simpa using ht
      cases k with
      | zero => exact ht
      | succ k => rw [Function.iterate_succ_apply]; exact ih h k (by omega)
    next hf => exact absurd h (by simpa using hf)

/-- With fewer than 256 strips the new id names none (R114). -/
theorem freshId_fresh {ids : List Nat} (h : ids.length < 256) (c : Nat) : freshId ids 256 c ∉ ids := by
  intro hc
  have hsub : ((List.range 256).map (fun k => nextId^[k] (nextId c))) ⊆ ids := by
    intro x hx
    obtain ⟨k, hk, rfl⟩ := List.mem_map.1 hx
    exact freshId_taken hc k (by have := List.mem_range.1 hk; omega)
  have hnd : ((List.range 256).map (fun k => nextId^[k] (nextId c))).Nodup := by
    refine (List.nodup_range).map_on (fun a ha b hb e => ?_)
    have ha := List.mem_range.1 ha
    have hb := List.mem_range.1 hb
    rw [nextId_iterate, nextId_iterate] at e
    have same : a ≡ b [MOD 65535] := Nat.ModEq.add_left_cancel' _ (Nat.succ.inj e)
    exact same.eq_of_lt_of_lt (ha.trans (by decide)) (hb.trans (by decide))
  have := (hnd.subperm hsub).length_le
  rw [List.length_map, List.length_range] at this
  omega

theorem newId_fresh (h : s.is.strips.length < 256) (x : Strip) (hx : x ∈ s.is.strips) : x.id ≠ s.newId := by
  intro e
  exact freshId_fresh (ids := s.is.strips.map (fun x => x.id)) (by simpa using h) s.is.idCount
    (List.mem_map.2 ⟨x, hx, e⟩)

/-! ### Strips that join, change and leave -/

/-- A strip that is no reception's takes another form, its tiles taken from, or given to, the free list. -/
theorem StoreGood.change {m : Memory} {f f' : List Nat} {x y : Strip} {l : List Strip} {cs : List (Option Reception)}
    (h : StoreGood m f (x :: l) cs) (hx : ¬ x.incoming) (hi : y.id = x.id)
    (ht : (f ++ x.tiles).Perm (f' ++ y.tiles)) : StoreGood m f' (y :: l) cs := by
  refine ((h.leave hx).perm ht (.refl _) (.refl _)).join rfl (fun z hz e => ?_)
  exact (List.nodup_cons.1 h.ids).1 (List.mem_map.2 ⟨z, hz, e.trans hi⟩)

theorem Strip.incoming.receiving {x : Strip} (h : x.incoming) : x.receiving = true := h.1
theorem Strip.not_incoming_of_complete {x : Strip} (h : x.complete = true) : ¬ x.incoming := fun c => by
  obtain ⟨-, c, -⟩ := c
  rw [h] at c; exact absurd c (by decide)
theorem Strip.not_incoming_of_here {x : Strip} {p : PortNo} (h : x.origin = .here p) : ¬ x.incoming := fun c => by
  obtain ⟨-, -, a, b, c⟩ := c
  rw [h] at c; cases c
theorem Strip.not_incoming_of_ownedBy {x : Strip} {p : PortNo} (h : x.ownedBy p = true) : ¬ x.incoming := by
  unfold Strip.ownedBy at h
  split at h
  next q hq => exact Strip.not_incoming_of_here hq
  · cases h
theorem Strip.not_incoming_of_idle {x : Strip} (h : ¬ x.receiving = true) : ¬ x.incoming := fun c => h c.1

/-- A change of the store that gives the strip with id `i`, no reception's, another form. -/
theorem lawful_changeStrip (s : State) (i : Nat) (g : IS → IS) (f : Strip → Strip) {x : Strip} (hx : s.strip i = some x)
    (hn : ¬ x.incoming) (hm : (g s.is).mem = s.is.mem)
    (hs : (g s.is).strips = s.is.strips.map (fun p => if p.id = i then f p else p)) (hi : (f x).id = x.id)
    (ht : (s.is.free ++ x.tiles).Perm ((g s.is).free ++ (f x).tiles)) (hf : (f x).freezeSet = x.freezeSet)
    (hl : (f x).tiles.length ≤ x.tiles.length) (hr : (f x).receiving = x.receiving) : Lawful 0 s (s.onIs g) := by
  refine lawful_store ((keeps_onIs s _).mono (by decide)) ⟨fun l => ?_, fun l fl => ?_⟩
  · rw [storeLaw_good] at l ⊢
    show StoreGood (g s.is).mem (g s.is).free (g s.is).strips _
    rw [hm, hs]
    exact ((l.perm (.refl _) (strips_perm_self l.ids hx) (.refl _)).change hn hi ht).perm (.refl _)
      (strips_perm l.ids hx f).symm (.refl _)
  · rw [storeLaw_good] at l
    rw [freezeLaw_good] at fl ⊢
    show FreezeGood (g s.is).strips
    rw [hs]
    exact ((fl.perm (strips_perm_self l.ids hx)).swap hf (fun _ => hl) (fun e => hr.symm.trans e)).perm
      (strips_perm l.ids hx f).symm

theorem lawful_completeStrip (s : State) (i : Nat) (h : ∀ x, s.strip i = some x → ¬ x.incoming) :
    Lawful 0 s (s.completeStrip i) := by
  refine Lawful.then (a := s.onStrip i (fun x => { x with complete := true })) ?_ (lawful_onIs _ _ rfl rfl rfl)
  cases hx : s.strip i with
  | some x => exact lawful_changeStrip s i _ _ hx (h x hx) rfl rfl rfl (.refl _) rfl (Nat.le_refl _) rfl
  | none =>
    refine lawful_onStrip s i _ (fun x hm e => ?_)
    have := List.find?_eq_none.1 hx x hm
    simp [e] at this

theorem lawful_truncateStrip (s : State) (x : Strip) (rows : Nat) (hx : s.strip x.id = some x) (hn : ¬ x.incoming) :
    Lawful 0 s (s.truncateStrip x rows) := by
  refine lawful_changeStrip s x.id (fun st => { st with
      strips := st.strips.map (fun p => if p.id = x.id then
        { p with
          rows := rows, byteSize := rows * (x.width * Mode.bytesPerPixel x.mode)
          fill := rows * (x.width * Mode.bytesPerPixel x.mode)
          tiles := p.tiles.take (tilesFor (rows * (x.width * Mode.bytesPerPixel x.mode))) } else p)
      free := st.free ++ x.tiles.drop (tilesFor (rows * (x.width * Mode.bytesPerPixel x.mode))) })
    (fun p => { p with
      rows := rows, byteSize := rows * (x.width * Mode.bytesPerPixel x.mode)
      fill := rows * (x.width * Mode.bytesPerPixel x.mode)
      tiles := p.tiles.take (tilesFor (rows * (x.width * Mode.bytesPerPixel x.mode))) })
    hx hn rfl rfl rfl ?_ rfl ?_ rfl
  · dsimp only
    rw [List.append_assoc]
    exact ((List.perm_append_comm).trans (by rw [List.take_append_drop])).symm.append_left _
  · dsimp only
    rw [List.length_take]; omega

/-- A strip joins under a new id, with tiles from the head of the free list. -/
theorem lawful_addStrip (s : State) (y : Strip) (n : Nat) (hid : y.id = s.newId) (hlen : s.is.strips.length < 256)
    (ht : y.tiles = s.is.free.take n) (hf : y.freezeSet = []) : Lawful 0 s (s.addStrip y n) := by
  refine lawful_store ((keeps_onIs s _).mono (by decide)) ⟨fun l => ?_, fun l fl => ?_⟩
  · rw [storeLaw_good] at l ⊢
    show StoreGood s.is.mem (s.is.free.drop n) (s.is.strips ++ [y]) _
    have hp : s.is.free.Perm (s.is.free.drop n ++ s.is.free.take n) := by
      conv_lhs => rw [← List.take_append_drop n s.is.free]
      exact List.perm_append_comm
    refine ((l.perm hp (.refl _) (.refl _)).join ht (fun x hx => ?_)).perm (.refl _)
      (List.perm_append_singleton _ _).symm (.refl _)
    rw [hid]; exact newId_fresh hlen x hx
  · rw [freezeLaw_good] at fl ⊢
    show FreezeGood (s.is.strips ++ [y])
    exact (fl.cons hf).perm (List.perm_append_singleton _ _).symm

/-- A strip is created for a reception, which takes its tiles as a reservation. -/
theorem lawful_beginReception (s : State) (y : Strip) (n : Nat) (c : Fin 2) (r : Reception) (hc : s.im.contexts.get c = none)
    (hid : y.id = s.newId) (hlen : s.is.strips.length < 256) (ht : y.tiles = []) (hi : y.incoming) (hr : r.strip = y.id)
    (hres : r.reservation = s.is.free.take n) (hf : y.freezeSet = []) :
    Lawful 0 s ((s.addStrip y n).onIm (fun m => { m with contexts := m.contexts.set c (some r) })) := by
  obtain ⟨rest, hp, hp'⟩ := contexts_perm s.im.contexts c (some r)
  rw [hc] at hp
  refine lawful_store (((keeps_onIs s _).mono (by decide)).trans ((keeps_onIm _ _).mono (by decide)))
    ⟨fun l => ?_, fun l fl => ?_⟩
  · rw [storeLaw_good] at l ⊢
    show StoreGood s.is.mem (s.is.free.drop n) (s.is.strips ++ [y]) (s.im.contexts.set c (some r)).list
    have hfree : s.is.free.Perm (s.is.free.drop n ++ r.reservation) := by
      conv_lhs => rw [← List.take_append_drop n s.is.free]
      rw [hres]; exact List.perm_append_comm
    refine ((l.perm hfree (.refl _) hp).receive ht hi hr (fun x hx => ?_)).perm (.refl _)
      (List.perm_append_singleton _ _).symm hp'.symm
    rw [hid]; exact newId_fresh hlen x hx
  · rw [freezeLaw_good] at fl ⊢
    show FreezeGood (s.is.strips ++ [y])
    exact (fl.cons hf).perm (List.perm_append_singleton _ _).symm

/-! ### Room -/

theorem strip_removeStrip (s : State) (i j : Nat) : (s.removeStrip i).strip j = if j = i then none else s.strip j := by
  unfold State.strip
  rw [removeStrip_is]
  dsimp only
  rw [List.find?_filter]
  split
  next h =>
    subst h
    rw [List.find?_eq_none]
    simp
  next h =>
    refine congrArg (fun p => List.find? p s.is.strips) (funext fun x => ?_)
    by_cases e : x.id = j
    · simp [e, h]
    · simp [e]

theorem lawful_reclaimList (n : Nat) (l : List Strip) (s : State)
    (h : ∀ x ∈ l, ∀ y, s.strip x.id = some y → y.complete = true) : Lawful 0 s (reclaimList n l s) := by
  induction l generalizing s with
  | nil => exact .refl s
  | cons x rest ih =>
    refine .ite (fun _ => .refl s) (fun _ => ?_)
    refine (lawful_removeStrip s x.id (fun y hy => Strip.not_incoming_of_complete (h x (by simp) y hy))).then
      (ih _ (fun z hz y hy => ?_))
    rw [strip_removeStrip] at hy
    split at hy
    · cases hy
    · exact h z (by simp [hz]) y hy

theorem mayReclaim_complete (s : State) {x : Strip} (hx : x ∈ s.mayReclaim) : s.strip x.id = some x ∧ x.complete = true
    ∧ x.pinned = false := by
  obtain ⟨i, -, hi⟩ := List.mem_filterMap.1 hx
  obtain ⟨h1, h2⟩ := Option.filter_eq_some_iff.1 hi
  have hid := (strip_some h1).2
  rw [hid]
  simp only [Bool.and_eq_true, Bool.not_eq_true'] at h2
  exact ⟨h1, h2⟩

theorem reclaimList_strips (n : Nat) (l : List Strip) (s : State) :
    (reclaimList n l s).is.strips.length ≤ s.is.strips.length := by
  induction l generalizing s with
  | nil => exact Nat.le_refl _
  | cons x rest ih =>
    unfold reclaimList
    split
    · exact Nat.le_refl _
    · refine (ih _).trans ?_
      rw [removeStrip_is]
      exact List.length_filter_le _ _

theorem reclaimList_im (n : Nat) (l : List Strip) (s : State) : (reclaimList n l s).im = s.im := by
  induction l generalizing s with
  | nil => rfl
  | cons x rest ih =>
    unfold reclaimList
    split
    · rfl
    · rw [ih]; rfl

/-- Room for tiles, where it can be had. -/
theorem lawful_room {n : Nat} {a : State} (h : s.room n = some a) :
    Lawful 0 s a ∧ a.is.strips.length ≤ s.is.strips.length ∧ a.im = s.im := by
  unfold State.room at h
  split at h
  · cases h; exact ⟨.refl _, Nat.le_refl _, rfl⟩
  · split at h
    · cases h
    · split at h
      · cases h
      · cases h
        refine ⟨lawful_reclaimList _ _ s (fun x hx y hy => ?_), reclaimList_strips _ _ s, reclaimList_im _ _ s⟩
        obtain ⟨e, c, -⟩ := mayReclaim_complete s hx
        rw [e] at hy; cases hy; exact c

/-! ### The requests to strips -/

theorem replied_reqStripOpen (p : PortNo) (c t w h : Option Nat) (s : State) : Replied s (reqStripOpen p c t w h s) := by
  unfold reqStripOpen
  rcases argFin 4 c with _ | c
  · exact .same s _
  rcases t with _ | t
  · exact .same s _
  rcases w with _ | w
  · exact .same s _
  rcases h with _ | h
  · exact .same s _
  refine .refusing fun _ => .refusing fun hlen => ?_
  split
  · exact .same s _
  next a ha =>
    obtain ⟨hl, hn, -⟩ := lawful_room ha
    exact (hl.then (lawful_addStrip a _ _ rfl (by omega) rfl rfl)).replied _

theorem lawful_mem (s : State) (tiles : List Nat) (off : Nat) (bytes : List Byte) :
    Lawful 0 s (s.onIs (fun st => { st with mem := tileStore st.mem tiles off bytes })) := by
  refine lawful_store ((keeps_onIs s _).mono (by decide)) ⟨fun l => ?_, fun _ fl => fl⟩
  rw [storeLaw_good] at l ⊢
  exact ⟨tileStore_wf _ _ _ l.mem, l.tiles, l.ids, l.own, l.received⟩

theorem lawful_fillTo (s : State) (id n : Nat) : Lawful 0 s (s.onStrip id (fun y => { y with fill := y.fill + n })) :=
  lawful_onStrip s id _ (fun _ _ _ => ⟨rfl, rfl, rfl, rfl, rfl, fun h => h⟩)

theorem replied_reqStripData (p : PortNo) (i off : Option Nat) (bytes : List Byte) (s : State) :
    Replied s (reqStripData p i off bytes s) := by
  unfold reqStripData
  rcases i with _ | i
  · exact .same s _
  rcases off with _ | off
  · exact .same s _
  refine .refusing fun _ => ?_
  cases s.strip i with
  | none => exact .same s _
  | some x =>
    exact .refusing fun _ => .refusing fun _ => .refusing fun _ => .refusing fun _ =>
      ((lawful_mem s _ _ _).then (lawful_fillTo _ _ _)).replied _

theorem lawful_addPair (s : State) (id h : Nat) :
    Lawful 0 s ((s.onIm (fun m => { m with sendQueue := m.sendQueue ++ [(id, h)] })).onStrip id
      (fun x => { x with sending := x.sending ++ [h] })) :=
  (lawful_onIm s _ rfl).then (lawful_onStrip _ id _ (fun _ _ _ => ⟨rfl, rfl, rfl, rfl, rfl, fun h => h⟩))

theorem lawful_offerTransfers (id : Nat) (l : List Nat) (s : State) : Lawful 0 s (offerTransfers id l s) := by
  induction l generalizing s with
  | nil => exact .refl s
  | cons h rest ih =>
    unfold offerTransfers
    split
    · exact ih s
    · split
      · exact (lawful_addPair s id h).then (ih _)
      · exact lawful_notify s _

theorem lawful_offerClosed (s : State) (id : Nat) (c : Fin 4) : Lawful 0 s (s.offerClosed id c) :=
  .ite (fun _ => lawful_offerTransfers _ _ s) (fun _ => .ite (fun _ => lawful_notify s _) (fun _ => .refl s))

/-- The strip with an id after the update of the strip with that id. -/
theorem strip_map {t : State} (i : Nat) (f : Strip → Strip) (hf : ∀ x, (f x).id = x.id)
    (ht : t.is.strips = s.is.strips.map (fun p => if p.id = i then f p else p)) : t.strip i = (s.strip i).map f := by
  have hid : ∀ p : Strip, (if p.id = i then f p else p).id = p.id := fun p => by split <;> simp [hf]
  unfold State.strip
  rw [ht, List.find?_map]
  simp only [Function.comp_def, hid]
  cases h : s.is.strips.find? (fun x => decide (x.id = i)) with
  | none => rfl
  | some x => simp [(by simpa using List.find?_some h : x.id = i)]

theorem truncateStrip_origin {x y : Strip} {rows : Nat} (hx : s.strip x.id = some x)
    (hy : (s.truncateStrip x rows).strip x.id = some y) : y.origin = x.origin := by
  rw [strip_map (s := s) x.id (fun y => { y with
      rows := rows, byteSize := rows * (x.width * Mode.bytesPerPixel x.mode)
      fill := rows * (x.width * Mode.bytesPerPixel x.mode)
      tiles := y.tiles.take (tilesFor (rows * (x.width * Mode.bytesPerPixel x.mode))) }) (fun _ => rfl) rfl, hx] at hy
  cases hy; rfl

theorem replied_reqStripClose (p : PortNo) (i : Option Nat) (s : State) : Replied s (reqStripClose p i s) := by
  unfold reqStripClose
  split
  · exact .same s _
  next id =>
    split
    · exact .same s _
    next x hx =>
      refine .refusing fun ho => .refusing fun hcomp => ?_
      have hn : ¬ x.incoming := Strip.not_incoming_of_ownedBy (not_not.1 ho)
      have hid := (strip_some hx).2
      refine .ite (fun _ => (lawful_removeStrip s id (fun y hy => by rw [hx] at hy; cases hy; exact hn)).replied _)
        (fun _ => Lawful.replied ?_ _)
      refine Lawful.then (a := if x.wholeRows < x.rows then s.truncateStrip x x.wholeRows else s)
        (.ite (fun _ => lawful_truncateStrip s x _ (by rw [hid]; exact hx) hn) (fun _ => .refl s)) ?_
      refine Lawful.then (lawful_completeStrip _ id (fun y hy => ?_))
        ((lawful_offerClosed _ _ _).then (lawful_readyForSearch _ _))
      obtain ⟨q, hq⟩ : ∃ q, x.origin = .here q := by
        cases ho' : x.origin with
        | here q => exact ⟨q, rfl⟩
        | remote a b => exact absurd (not_not.1 ho) (by simp [Strip.ownedBy, ho'])
      have hy' : y.origin = .here q := by
        split at hy
        · subst hid
          exact (truncateStrip_origin hx hy).trans hq
        · rw [hx] at hy; cases hy; exact hq
      exact Strip.not_incoming_of_here hy'

end Sys2Proof.Machine

end

section
/-! SUPPORT. The freeze walk and the Image Mover keep the laws. -/

namespace Sys2Proof.Machine

variable {s : State}

/-! ### The freeze walk, discards and holds -/

/-- A strip that is not RECEIVING is frozen once more, its tiles already counted or with room for them. -/
theorem lawful_freeze (s : State) (id : Nat) {x : Strip} (n : BitVec 16) (hx : s.strip id = some x)
    (hr : ¬ x.receiving = true) (hf : x.freezeSet = [] → s.frozenTiles + x.tiles.length ≤ 256) :
    Lawful 0 s (s.onStrip id (fun y => { y with freezeSet := y.freezeSet ++ [n] })) := by
  refine lawful_store ((keeps_onIs s _).mono (by decide)) ⟨fun l => ?_, fun l fl => ?_⟩
  · rw [storeLaw_good] at l ⊢
    exact ((l.perm (.refl _) (strips_perm_self l.ids hx) (.refl _)).change (Strip.not_incoming_of_idle hr) rfl
      (y := { x with freezeSet := x.freezeSet ++ [n] }) (.refl _)).perm (.refl _)
      (strips_perm l.ids hx (fun y => { y with freezeSet := y.freezeSet ++ [n] })).symm (.refl _)
  · rw [storeLaw_good] at l
    rw [freezeLaw_good] at fl ⊢
    have hp := fl.perm (strips_perm_self l.ids hx)
    refine FreezeGood.perm ?_ (strips_perm l.ids hx (fun y => { y with freezeSet := y.freezeSet ++ [n] })).symm
    obtain ⟨h1, -, h3⟩ := (freezeGood_cons _ _).1 hp
    refine (freezeGood_cons _ _).2 ⟨?_, fun e => absurd e hr, h3⟩
    by_cases e : x.freezeSet = []
    · have := hf e
      rw [frozenTiles_eq, frozenSum_perm (strips_perm_self l.ids hx), frozenSum_cons, if_pos e] at this
      rw [if_neg (by simp)]
      dsimp only
      omega
    · rw [if_neg e] at h1
      rw [if_neg (by simp)]
      exact h1

theorem lawful_examine (s : State) (w : Walk) (id : Nat) : Lawful 0 s (s.examine w id) := by
  unfold State.examine
  split
  · exact .refl s
  next x hx =>
    refine .ite (fun _ => .refl s) (fun h => ?_)
    rw [not_or, not_and] at h
    exact (lawful_freeze s id _ hx h.1 (fun e => Nat.not_lt.1 (h.2 (by simp [e])))).then (lawful_onIs _ _ rfl rfl rfl)

theorem lawful_walkExamination (s : State) : Lawful 0 s s.walkExamination := by
  unfold State.walkExamination
  split
  next w hw =>
    split
    next c rest hc =>
      refine .ite (fun _ => ?_) (fun _ => .refl s)
      have h1 := lawful_onIs s (fun st => { st with walk := some { w with candidates := rest } }) rfl rfl rfl
      cases c with
      | some id => exact h1.then (lawful_examine _ _ _)
      | none => exact h1
    next => exact .refl s
  next => exact .refl s

theorem replied_reqStripDiscard (p : PortNo) (i : Option Nat) (s : State) : Replied s (reqStripDiscard p i s) := by
  unfold reqStripDiscard
  split
  · exact .same s _
  next id =>
    split
    · exact .same s _
    next x hx =>
      refine .refusing fun hn => .refusing fun _ => (lawful_removeStrip s id (fun y hy => ?_)).replied _
      rw [hx] at hy; cases hy
      exact Strip.not_incoming_of_idle (fun c => hn (.inr c))

theorem lawful_setHolds (s : State) (id : Nat) (f : Table 4 Nat → Table 4 Nat) :
    Lawful 0 s (s.onStrip id (fun y => { y with holds := f y.holds })) :=
  lawful_onStrip s id _ (fun _ _ _ => ⟨rfl, rfl, rfl, rfl, rfl, fun h => h⟩)

theorem replied_reqStripHold (p : PortNo) (i : Option Nat) (s : State) : Replied s (reqStripHold p i s) := by
  unfold reqStripHold
  split
  · exact .same s _
  · split
    · exact .same s _
    · exact .refusing fun _ => .refusing fun _ => (lawful_setHolds s _ (fun t => t.modify p (fun n => n + 1))).replied _

theorem replied_reqStripUnhold (p : PortNo) (i : Option Nat) (s : State) : Replied s (reqStripUnhold p i s) := by
  unfold reqStripUnhold
  split
  · exact .same s _
  · split
    · exact .same s _
    · exact .refusing fun _ => (lawful_setHolds s _ (fun t => t.modify p (fun n => n - 1))).replied _

theorem replied_reqRecordRelease (n : Option (BitVec 16)) (s : State) : Replied s (reqRecordRelease n s) := by
  unfold reqRecordRelease
  split
  · exact .same s _
  · split
    · exact .same s _
    · exact .refusing fun _ => ((lawful_onTu s _ ⟨rfl, rfl, rfl, rfl⟩).then (lawful_unfreeze _ _ _)).replied _

/-! ### The control store -/

theorem lawful_storeControl (s : State) (e : StoreEntry) : Lawful 0 s (s.storeControl e) :=
  (lawful_onIm s _ rfl).then (lawful_offerControl _ _)

theorem lawful_countNotMade (s : State) : Lawful 0 s s.countNotMade := lawful_onIm s _ rfl

theorem lawful_makeGeneral (s : State) (f : OwnFrame) : Lawful 0 s (s.makeGeneral f) :=
  .ite (fun _ => lawful_storeControl s _) (fun _ => lawful_countNotMade s)

theorem lawful_makeFinal (s : State) (c : Fin 2) (f : OwnFrame) : Lawful 0 s (s.makeFinal c f) :=
  (lawful_onIm s _ rfl).then (lawful_offerControl _ _)

theorem lawful_dropClaim (s : State) (c : Fin 2) : Lawful 0 s (s.dropClaim c) :=
  .ite (fun _ => (lawful_onIm s _ rfl).then (lawful_onRc _ _ ⟨rfl, rfl, rfl, rfl⟩)) (fun _ => lawful_onIm s _ rfl)

/-! ### The sender -/

theorem lawful_offerImage (s : State) (f : OwnFrame) : Lawful 0 s (s.offerImage f) :=
  .ite (fun _ => lawful_onRc s _ ⟨rfl, rfl, rfl, rfl⟩) (fun _ => lawful_onIm s _ rfl)

theorem lawful_freeImagePlace (s : State) : Lawful 0 s s.freeImagePlace :=
  (lawful_onRc s _ ⟨rfl, rfl, rfl, rfl⟩).then (lawful_onIm _ _ rfl)

theorem lawful_beginAttempt (s : State) : Lawful 0 s s.beginAttempt := by
  unfold State.beginAttempt
  split
  · exact .refl s
  · split
    · exact .refl s
    · exact (lawful_onIm s _ rfl).then (lawful_offerImage _ _)

theorem lawful_takeHead (s : State) : Lawful 0 s s.takeHead := by
  unfold State.takeHead
  split
  · exact .refl s
  · split
    · exact .refl s
    · exact .ite (fun _ => (lawful_onIm s _ rfl).then (lawful_beginAttempt _)) (fun _ => .refl s)

theorem lawful_closeTransfer (s : State) (k : Transfer) (done : Bool) : Lawful 0 s (s.closeTransfer k done) := by
  unfold State.closeTransfer
  have h := lawful_onStrip s k.strip (fun x => { x with sending := x.sending.filter (fun h => h != k.dst) })
    (fun _ _ _ => ⟨rfl, rfl, rfl, rfl, rfl, fun h => h⟩)
  cases done
  · exact (h.then (lawful_notify _ _)).then (lawful_onIm _ _ rfl)
  · exact h.then (lawful_onIm _ _ rfl)

theorem lawful_endTransfer (s : State) (done : Bool) : Lawful 0 s (s.endTransfer done) := by
  unfold State.endTransfer
  split
  · exact .refl s
  · exact (lawful_closeTransfer s _ _).then (lawful_takeHead _)

theorem lawful_attemptFailed (s : State) : Lawful 0 s s.attemptFailed := by
  unfold State.attemptFailed
  split
  · exact .refl s
  · exact .ite (fun _ => lawful_onIm s _ rfl) (fun _ => lawful_endTransfer s _)

theorem lawful_beginTimeout (s : State) : Lawful 0 s s.beginTimeout :=
  .ite (fun _ => lawful_attemptFailed s) (fun _ => .refl s)

theorem lawful_retryWaitExpiry (s : State) : Lawful 0 s s.retryWaitExpiry :=
  .ite (fun _ => lawful_beginAttempt s) (fun _ => .refl s)

theorem lawful_awaitCompleteTimeout (s : State) : Lawful 0 s s.awaitCompleteTimeout := by
  unfold State.awaitCompleteTimeout
  refine .ite (fun _ => ?_) (fun _ => .refl s)
  split
  · exact (lawful_makeGeneral s _).then (lawful_endTransfer _ _)
  · exact .refl s

theorem lawful_offerSegment (s : State) (k : Transfer) : Lawful 0 s (s.offerSegment k) := by
  unfold State.offerSegment
  split
  · exact lawful_offerImage s _
  · exact .refl s

theorem lawful_imageGone (s : State) (f : OwnFrame) : Lawful 0 s (s.imageGone f) := by
  unfold State.imageGone
  cases s.im.transfer with
  | none => exact .refl s
  | some k =>
    cases f.payload with
    | imageBegin b => exact .ite (fun _ => lawful_onIm s _ rfl) (fun _ => .refl s)
    | imageSegment _ _ _ _ _ =>
      refine .ite (fun _ => ?_) (fun _ => .refl s)
      exact .ite (fun _ => lawful_onIm s _ rfl) (fun _ => (lawful_onIm s _ rfl).then (lawful_offerSegment _ _))
    | _ => exact .refl s

theorem lawful_takeReply (s : State) (src : Nat) (number : BitVec 16) (st : ReplyStatus) (rx : Nat) :
    Lawful 0 s (s.takeReply src number st rx) := by
  unfold State.takeReply
  split
  · exact .refl s
  · cases st with
    | accept =>
      cases s.im.sender with
      | beginSent => exact (lawful_onIm s _ rfl).then (lawful_offerSegment _ _)
      | _ => exact .refl s
    | busy =>
      cases s.im.sender with
      | beginSent => exact lawful_attemptFailed s
      | _ => exact .refl s
    | complete =>
      cases s.im.sender with
      | awaitComplete => exact lawful_endTransfer s _
      | _ => exact .refl s
    | _ => exact .refl s

theorem lawful_takeAbortToSender (s : State) (src : Nat) (number : BitVec 16) (reason : AbortReason) :
    Lawful 0 s (s.takeAbortToSender src number reason) := by
  have h := lawful_onIm s (fun m => { m with abortsToSender := satInc m.abortsToSender }) rfl
  have hd := h.then ((lawful_onIm _ (fun m => { m with lastAbort := some reason }) rfl).then (lawful_endTransfer _ false))
  unfold State.takeAbortToSender
  cases s.inHand src number with
  | none => exact h
  | some k =>
    cases s.im.sender with
    | beginSent => exact hd
    | sending => exact hd
    | awaitComplete => exact hd
    | _ => exact h

/-! ### Receptions -/

theorem findContext_get {p : Reception → Bool} {c : Fin 2} {r : Reception} (h : s.findContext p = some (c, r)) :
    s.im.contexts.get c = some r := by
  unfold State.findContext at h
  split at h
  next x h0 =>
    split at h
    · cases h; exact h0
    · split at h
      next q h1 =>
        split at h
        · cases h; exact h1
        · cases h
      · cases h
  next h0 h1 =>
    split at h
    · cases h; exact h1
    · cases h
  · cases h

theorem freeContext_get {c : Fin 2} (h : s.freeContext = some c) : s.im.contexts.get c = none := by
  unfold State.freeContext at h
  split at h
  next h0 => cases h; simpa using h0
  · split at h
    next h1 => cases h; simpa using h1
    · cases h

theorem lawful_judgeBegin (s : State) (src : Nat) (f : BeginFields) : Lawful 0 s (s.judgeBegin src f) := by
  unfold State.judgeBegin
  refine .ite (fun _ => lawful_countNotMade s) (fun _ => ?_)
  split
  · exact lawful_makeGeneral s _
  · split
    · exact lawful_makeGeneral s _
    next c hc =>
      unfold State.reserve
      by_cases hlen : 256 ≤ s.is.strips.length
      · rw [if_pos hlen]; exact lawful_makeGeneral s _
      · rw [if_neg hlen]
        cases hroom : s.room (tilesFor f.byteSize) with
        | none => exact lawful_makeGeneral s _
        | some a =>
          obtain ⟨hl, hn, him⟩ := lawful_room hroom
          exact (hl.then (lawful_beginReception a _ _ c _ (by rw [him]; exact freeContext_get hc) rfl (by omega) rfl
            ⟨rfl, rfl, _, _, rfl⟩ rfl rfl rfl)).then (lawful_storeControl _ _)

theorem lawful_takeBegin (s : State) (src : Nat) (f : BeginFields) : Lawful 0 s (s.takeBegin src f) := by
  unfold State.takeBegin
  split
  next c r h => exact ((lawful_abandon s (findContext_get h)).then (lawful_dropClaim _ _)).then (lawful_judgeBegin _ _ _)
  · exact lawful_judgeBegin s _ _

theorem lawful_abortReception (s : State) {c : Fin 2} {r : Reception} (reason : AbortReason)
    (hc : s.im.contexts.get c = some r) : Lawful 0 s (s.abortReception c r reason) :=
  (lawful_abandon s hc).then (lawful_makeFinal _ _ _)

theorem fillStrip_strips (s : State) (i : Nat) (t : List Nat) : (s.fillStrip i t).is.strips =
    s.is.strips.map (fun x => if x.id = i then
      { x with tiles := t, fill := x.byteSize, receiving := false, complete := true } else x) := by
  show ((s.is.strips.map _).map _) = _
  rw [List.map_map]
  refine List.map_congr_left (fun x _ => ?_)
  by_cases h : x.id = i
  · simp only [Function.comp, if_pos h]
  · simp only [Function.comp, if_neg h]

/-- A reception's strip takes the reservation as its tiles, and the context is FREE. -/
theorem StoreGood.complete {m : Memory} {f : List Nat} {x y : Strip} {l : List Strip} {r : Reception}
    {cs : List (Option Reception)} (h : StoreGood m f (x :: l) (some r :: cs)) (hx : x.id = r.strip) (hy : y.id = x.id)
    (ht : y.tiles = r.reservation) : StoreGood m f (y :: l) (none :: cs) :=
  (h.abandon hx).join ht (fun z hz e => (List.nodup_cons.1 h.ids).1 (List.mem_map.2 ⟨z, hz, e.trans hy⟩))

theorem lawful_completeReception (s : State) {c : Fin 2} {r : Reception} (hc : s.im.contexts.get c = some r) :
    Lawful 0 s (s.completeReception c r) := by
  refine Lawful.then ?_ (lawful_makeFinal _ _ _)
  obtain ⟨rest, hp, hp'⟩ := contexts_perm s.im.contexts c none
  rw [hc] at hp
  let f : Strip → Strip := fun x => { x with tiles := r.reservation, fill := x.byteSize, receiving := false, complete := true }
  have find : s.storeLaw = true → ∃ x, s.strip r.strip = some x ∧ x.receiving = true := by
    intro l
    rw [storeLaw_good] at l
    obtain ⟨x, hx, e, i, -⟩ := l.received r (hp.mem_iff.2 (by simp))
    cases hs : s.strip r.strip with
    | none => exact absurd (List.find?_eq_none.1 hs x hx) (by simp [e])
    | some y =>
      refine ⟨y, rfl, ?_⟩
      obtain ⟨hy, ey⟩ := strip_some hs
      rw [List.inj_on_of_nodup_map l.ids hy hx (ey.trans e.symm)]
      exact i.receiving
  refine lawful_store ?_ ⟨fun l => ?_, fun l fl => ?_⟩
  · exact (((keeps_onIs s _).trans (keeps_onIs _ _)).trans (keeps_onIs _ _)).mono (by decide) |>.trans
      ((keeps_onIm _ _).mono (by decide))
  · obtain ⟨x, hx, -⟩ := find l
    rw [storeLaw_good] at l ⊢
    show StoreGood s.is.mem s.is.free (s.fillStrip r.strip r.reservation).is.strips (s.im.contexts.set c none).list
    rw [fillStrip_strips]
    exact ((l.perm (.refl _) (strips_perm_self l.ids hx) hp).complete (y := f x) (strip_some hx).2 rfl rfl).perm (.refl _)
      (strips_perm l.ids hx f).symm hp'.symm
  · obtain ⟨x, hx, hr⟩ := find l
    rw [storeLaw_good] at l
    rw [freezeLaw_good] at fl ⊢
    show FreezeGood (s.fillStrip r.strip r.reservation).is.strips
    rw [fillStrip_strips]
    have hq := fl.perm (strips_perm_self l.ids hx)
    exact (hq.tail.cons (y := f x) (hq.receiving x (by simp) hr)).perm (strips_perm l.ids hx f).symm

/-- A reception goes on in its context, with its strip and its reservation. -/
theorem contexts_goOn (t : Table 2 (Option Reception)) {c : Fin 2} {r r' : Reception} (hc : t.get c = some r)
    (h1 : r'.strip = r.strip) (h2 : r'.reservation = r.reservation) :
    (t.set c (some r')).list.map (Option.map (fun r => (r.strip, r.reservation)))
      = t.list.map (Option.map (fun r => (r.strip, r.reservation))) := by
  obtain ⟨l, hl⟩ := t
  match l, hl with
  | [a, b], _ =>
    match c with
    | 0 =>
      have : a = some r := hc
      subst this
      show [some (r'.strip, r'.reservation), _] = [some _, _]
      rw [h1, h2]
    | 1 =>
      have : b = some r := hc
      subst this
      show [_, some (r'.strip, r'.reservation)] = [_, some _]
      rw [h1, h2]

theorem lawful_storeSegment (s : State) {c : Fin 2} {r : Reception} (bytes : List Byte)
    (hc : s.im.contexts.get c = some r) : Lawful 0 s (s.storeSegment c r bytes) := by
  have h := (lawful_mem s r.reservation (r.nextSeg * 1024) bytes).then (lawful_onIm _ (fun m =>
    { m with contexts := m.contexts.set c (some { r with nextSeg := r.nextSeg + 1, timer := 0 }) })
    (contexts_goOn _ hc rfl rfl))
  exact .ite (fun _ => h.then (lawful_completeReception _ (Table.get_set_self _ _ _))) (fun _ => h)

theorem lawful_takeSegment (s : State) (src strip : Nat) (number : BitVec 16) (seg count : Nat) (bytes : List Byte) :
    Lawful 0 s (s.takeSegment src strip number seg count bytes) := by
  unfold State.takeSegment
  split
  · exact lawful_makeGeneral s _
  next c r h =>
    have hc := findContext_get h
    exact .ite (fun _ => lawful_abortReception s _ hc) (fun _ => lawful_storeSegment s _ hc)

theorem lawful_segmentTimeout (s : State) (c : Fin 2) : Lawful 0 s (s.segmentTimeout c) := by
  unfold State.segmentTimeout
  split
  next r h => exact .ite (fun _ => lawful_abortReception s _ h) (fun _ => .refl s)
  · exact .refl s

theorem lawful_takeAbortToReceiver (s : State) (src : Nat) (number : BitVec 16) :
    Lawful 0 s (s.takeAbortToReceiver src number) := by
  unfold State.takeAbortToReceiver
  split
  next c r h => exact (lawful_abandon s (findContext_get h)).then (lawful_dropClaim _ _)
  · exact .refl s

/-! ### Cycle steps and ring loss -/

theorem lawful_imStep (s : State) : Lawful 0 s (s.onIm IM.step) := by
  refine lawful_onIm s _ ?_
  show (s.im.contexts.map _).list.map _ = _
  simp only [Table.map, List.map_map]
  refine List.map_congr_left (fun x _ => ?_)
  cases x <;> rfl

theorem lawful_abandonAll (s : State) : Lawful 0 s s.abandonAll := by
  refine .foldl (fun s c => ?_) _ s
  split
  next r h => exact lawful_abandon s h
  · exact .refl s

theorem lawful_imageRingLoss (s : State) : Lawful 0 s s.imageRingLoss := by
  unfold State.imageRingLoss
  have h := (((lawful_onIs_map s (fun st => { st with strips := st.strips.map (Strip.dropPairs
      (s.im.sendQueue ++ (s.im.transfer.map (fun k => (k.strip, k.dst))).toList)) }) (Strip.dropPairs _)
      (fun _ _ => ⟨rfl, rfl, rfl, rfl, rfl, fun h => h⟩) rfl rfl rfl).then (lawful_onIm _ (fun m =>
    { m with
      sendQueue := []
      transfer := none
      sender := .idle
      timer := none
      offered := []
      transfersDropped := min 65535 (m.transfersDropped
        + (s.im.sendQueue ++ (s.im.transfer.map (fun k => (k.strip, k.dst))).toList).length) }) rfl)).then
      (lawful_abandonAll _)).then (lawful_onIm _ (fun m => { m with store := [] }) rfl)
  exact .ite (fun _ => h) (fun _ => h.then (lawful_notify _ _))

end Sys2Proof.Machine

end

section
/-! SUPPORT. Requests to sections and posted changes keep the laws. -/

namespace Sys2Proof.Machine

variable {s : State}

/-! ### Requests to sections -/

theorem gearOk_d {x : Section} {n : Option Int} {v : Int} (h : gearOk x n (some v) = true) : 1 ≤ v := by
  simp only [gearOk, Option.isNone_some, Bool.and_false, Bool.false_or, Option.getD_some, Bool.and_eq_true,
    decide_eq_true_eq] at h
  omega

/-- The group that passes the checks names D where the pairs do, above 0. -/
theorem checkFields_d {x : Section} {pairs : List (Nat × Int)} {f : FieldSet} {c : Bool}
    (h : s.checkFields x pairs = some (f, c)) :
    f.d = (pairValue pairs 3).map Int.toNat ∧ ∀ d, f.d = some d → 1 ≤ d := by
  unfold State.checkFields at h
  dsimp only at h
  split at h
  next hok =>
    rw [Bool.and_eq_true] at hok
    cases h
    refine ⟨rfl, fun d hd => ?_⟩
    cases hv : pairValue pairs 3 with
    | none => rw [hv] at hd; cases hd
    | some v =>
      rw [hv] at hd hok
      have h1 := gearOk_d hok.2
      simp only [Option.map_some, Option.some.injEq] at hd
      omega
  · cases h

theorem replied_reqSectionSet (p : PortNo) (slot expected : Option Nat) (pairs : List (Nat × Int)) (s : State) :
    Replied s (reqSectionSet p slot expected pairs s) := by
  unfold reqSectionSet
  split
  · exact .same s _
  · refine .refusing fun _ => .refusing fun _ => .refusing fun hnamed => ?_
    split
    · exact .same s _
    next f c hf =>
      refine .refusing fun _ => .refusing fun hlen => ?_
      obtain ⟨hd, hpos⟩ := checkFields_d hf
      refine (lawful_onSlot s _ _ (fun h => h.post (by omega) ?_ (fun e e' => ⟨f, rfl, ?_⟩)) (.refl s _)).replied _
      · cases hfd : f.d with
        | none => simp [Change.gearGood, hfd]
        | some d => simpa [Change.gearGood, hfd] using hpos d hfd
      · rw [hd, Option.isSome_map]
        cases hv : pairValue pairs 3 with
        | none => exact absurd ⟨e, e', .inr (.inr (by rw [hv]; rfl))⟩ hnamed
        | some v => rfl

theorem lawful_joinWaiting (s : State) (w : Waiting) : Lawful (-owe w.port w.tag) s (s.joinWaiting w) := by
  refine lawful_onSe_owed s _ id (fun _ => .refl s _) ?_
  simp only [SE.owed, List.map_append, List.map_cons, List.map_nil, owing_append, owing_singleton]
  abel

theorem lawful_joinFences (s : State) (f : Fence) :
    Lawful (-owe f.port f.tag) s (s.onSe (fun e => { e with fences := e.fences ++ [f] })) := by
  refine lawful_onSe_owed s _ id (fun _ => .refl s _) ?_
  simp only [SE.owed, List.map_append, List.map_cons, List.map_nil, owing_append, owing_singleton]
  abel

/-! ### Posted changes applied -/

/-- A value stored into Tt keeps within Tmax. -/
theorem storeTt_trim (x : Section) (v : Int) : (x.storeTt v).tt.natAbs ≤ (x.storeTt v).tmax := by
  have := clampInt_range (-(x.tmax : Int)) x.tmax v (by omega)
  show (clampInt (-(x.tmax : Int)) x.tmax v).natAbs ≤ x.tmax
  omega

/-- What a section must have between two changes: its trim within Tmax, its remainder below D. -/
structure Section.geared (x : Section) : Prop where
  trim : x.tt.natAbs ≤ x.tmax
  gear : x.r < x.d

theorem Section.geared.storeTt {x : Section} (h : x.geared) (v : Int) : (x.storeTt v).geared := ⟨storeTt_trim x v, h.gear⟩

theorem setFields_gear {x : Section} {f : FieldSet} (h : x.r < x.d) (hd : ∀ d, f.d = some d → 1 ≤ d) :
    (x.setFields f).r < (x.setFields f).d := by
  show (if f.n.isSome || f.d.isSome then 0 else x.r) < f.d.getD x.d
  cases hf : f.d with
  | some d => have := hd d hf; simp; omega
  | none => split <;> simp <;> omega

theorem gearGood_set {c : Change} {f : FieldSet} (h : c.gearGood = true) (hb : c.body = .set f) :
    ∀ d, f.d = some d → 1 ≤ d := by
  intro d hd
  simpa [Change.gearGood, hb, hd] using h

/-- The trim after a group of fields, stored where the group names Tt or Tmax. -/
theorem setBody_trim {x : Section} {f : FieldSet} (h : x.tt.natAbs ≤ x.tmax) :
    (x.applyBody (.set f)).tt.natAbs ≤ (x.applyBody (.set f)).tmax := by
  unfold Section.applyBody
  dsimp only
  split
  · exact storeTt_trim _ _
  next hn =>
    simp only [Bool.or_eq_true, not_or, Bool.not_eq_true, Option.isSome_eq_false_iff, Option.isNone_iff_eq_none] at hn
    show (f.tt.getD x.tt).natAbs ≤ f.tmax.getD x.tmax
    rw [hn.1, hn.2]
    exact h

theorem setBody_gear {x : Section} {f : FieldSet} (h : (x.setFields f).r < (x.setFields f).d) :
    (x.applyBody (.set f)).r < (x.applyBody (.set f)).d := by
  unfold Section.applyBody
  dsimp only
  split <;> exact h

theorem applyBody_geared {x : Section} {c : Change} (h : x.geared) (hc : c.gearGood = true) :
    (x.applyBody c.body).geared := by
  cases hb : c.body with
  | nudge a => exact h.storeTt _
  | set f => exact ⟨setBody_trim h.trim, setBody_gear (setFields_gear h.gear (gearGood_set hc hb))⟩

theorem applyBody_state (x : Section) (b : ChangeBody) : (x.applyBody b).state = x.state := by
  cases b with
  | nudge a => rfl
  | set f => unfold Section.applyBody; dsimp only; split <;> rfl

/-- The state after one change: IDLE out of VACANT. -/
theorem applyChange_state (x : Section) (c : Change) :
    (x.applyChange c).state = if x.state = .vacant then .idle else x.state := by
  show (x.leaveVacant.applyBody c.body).state = _
  rw [applyBody_state]
  unfold Section.leaveVacant
  split <;> rfl

theorem leaveVacant_of_ne {x : Section} (h : x.state ≠ .vacant) : x.leaveVacant = x := if_neg h

theorem applyChange_geared {x : Section} {c : Change} (hx : x.state ≠ .vacant) (h : x.geared) (hc : c.gearGood = true) :
    (x.applyChange c).geared := by
  have := applyBody_geared h hc
  unfold Section.applyChange
  rw [leaveVacant_of_ne hx]
  exact ⟨this.trim, this.gear⟩

/-- The first change of a VACANT section, which names D. -/
theorem applyChange_opens {x : Section} {c : Change} {f : FieldSet} (hx : x.state = .vacant)
    (ht : x.tt.natAbs ≤ x.tmax) (hc : c.gearGood = true) (hb : c.body = .set f) (hd : f.d.isSome = true) :
    (x.applyChange c).geared := by
  have hl : x.leaveVacant.tt.natAbs ≤ x.leaveVacant.tmax := by unfold Section.leaveVacant; split <;> exact ht
  unfold Section.applyChange
  rw [hb]
  refine ⟨setBody_trim hl, setBody_gear ?_⟩
  obtain ⟨d, hd⟩ := Option.isSome_iff_exists.1 hd
  show (if f.n.isSome || f.d.isSome then 0 else x.leaveVacant.r) < f.d.getD x.leaveVacant.d
  rw [hd]
  have := gearGood_set hc hb d hd
  simp
  omega

theorem applyAll_geared (l : List Change) (hl : ∀ c ∈ l, c.gearGood = true) :
    ∀ x : Section, x.state ≠ .vacant → x.geared →
      (l.foldl Section.applyChange x).geared ∧ (l.foldl Section.applyChange x).state = x.state := by
  induction l with
  | nil => exact fun x _ h => ⟨h, rfl⟩
  | cons c l ih =>
    intro x hx h
    have hs : (x.applyChange c).state = x.state := by rw [applyChange_state, if_neg hx]
    obtain ⟨h1, h2⟩ := ih (fun c hc => hl c (by simp [hc])) (x.applyChange c) (by rw [hs]; exact hx)
      (applyChange_geared hx h (hl c (by simp)))
    exact ⟨h1, h2.trans hs⟩

/-- The latest values of a lawful section: VACANT only with an empty list, else geared. -/
theorem latest_lawful {x : Section} (h : x.lawful) :
    (x.posted = [] ∧ x.latest = x)
      ∨ (x.latest.geared ∧ x.latest.state = if x.state = .vacant then .idle else x.state) := by
  obtain ⟨ht, -, hg⟩ := h
  rw [gearGood_iff] at hg
  obtain ⟨hall, hopen, hgear⟩ := hg
  by_cases hv : x.state = .vacant
  · cases hp : x.posted with
    | nil => exact .inl ⟨rfl, by unfold Section.latest; rw [hp]; rfl⟩
    | cons c l =>
      refine .inr ?_
      obtain ⟨f, hb, hd⟩ := hopen hv c l hp
      rw [hp] at hall
      have hs : (x.applyChange c).state = .idle := by rw [applyChange_state, if_pos hv]
      have := applyAll_geared l (fun c hc => hall c (by simp [hc])) (x.applyChange c) (by rw [hs]; decide)
        (applyChange_opens hv ht (hall c (by simp)) hb hd)
      unfold Section.latest
      rw [hp, List.foldl_cons, if_pos hv]
      exact ⟨this.1, this.2.trans hs⟩
  · rw [if_neg hv]
    exact .inr (applyAll_geared x.posted hall x hv ⟨ht, hgear hv⟩)

theorem Section.geared.lawful {x : Section} (h : x.geared) (hs : x.state ≠ .vacant) (hp : x.posted = []) : x.lawful := by
  refine ⟨h.trim, by simp [hp], (gearGood_iff x).2 ⟨by simp [hp], fun e => absurd e hs, fun _ => h.gear⟩⟩

/-- Stage 1 keeps a section lawful, and lets none leave VACANT in LOCKOUT but as RELEASED. -/
theorem applyPosted_lawful {x : Section} (h : x.lawful) (b : Bool) : (x.applyPosted b).lawful := by
  unfold Section.applyPosted
  dsimp only
  rcases latest_lawful h with ⟨hp, hl⟩ | ⟨hg, hs⟩
  · rw [hl]
    rw [if_neg (fun c => c.2.2 c.2.1)]
    obtain ⟨ht, hb, hgear⟩ := h
    rw [gearGood_iff] at hgear
    refine ⟨ht, by simp, (gearGood_iff _).2 ⟨by simp, fun _ c l e => ?_, hgear.2.2⟩⟩
    exact absurd e (by simp)
  · have hne : x.latest.state ≠ .vacant := by rw [hs]; split <;> first | decide | assumption
    split
    · exact Section.geared.lawful (x := { x.latest with posted := [], state := .released }) ⟨hg.trim, hg.gear⟩ (by simp) rfl
    · exact Section.geared.lawful (x := { x.latest with posted := [] }) ⟨hg.trim, hg.gear⟩ hne rfl

theorem applyPosted_stateKept (s : State) (x : Section) :
    StateKept s x.state (x.applyPosted (decide (s.tu.state = .lockout))).state := by
  have key : ∀ l : List Change, ∀ y : Section, (l.foldl Section.applyChange y).state = y.state
      ∨ (y.state = .vacant ∧ (l.foldl Section.applyChange y).state = .idle) := by
    intro l
    induction l with
    | nil => exact fun y => .inl rfl
    | cons c l ih =>
      intro y
      rcases ih (y.applyChange c) with e | ⟨e, e'⟩
      · rw [List.foldl_cons, e, applyChange_state]
        split
        · exact .inr ⟨‹_›, rfl⟩
        · exact .inl rfl
      · rw [applyChange_state] at e
        split at e
        · cases e
        · exact absurd e ‹_›
  have hk : x.latest.state = x.state ∨ (x.state = .vacant ∧ x.latest.state = .idle) := key x.posted x
  unfold Section.applyPosted
  dsimp only
  split
  next hc => exact ⟨fun e => absurd e (by simp), fun _ _ => .inr rfl⟩
  next hc =>
    rcases hk with e | ⟨e, e'⟩
    · show StateKept s x.state x.latest.state
      rw [e]; exact .refl s _
    · refine ⟨fun c => ?_, fun l _ => ?_⟩
      · change x.latest.state = _ at c
        rw [e'] at c; cases c
      · exact absurd ⟨decide_eq_true l, e, by show x.latest.state ≠ _; rw [e']; decide⟩ hc

end Sys2Proof.Machine

end

section
/-! SUPPORT. The stages of a slot and the requests of a drive keep the laws. -/

namespace Sys2Proof.Machine

variable {s : State}

/-! ### The stages of a slot -/

theorem applySum_lawful {x : Section} (h : x.lawful) : x.applySum.lawful := by
  unfold Section.applySum
  dsimp only
  split
  · exact ⟨storeTt_trim x _, h.list, h.gear⟩
  · exact ⟨h.trim, h.list, h.gear⟩

theorem applySum_state (x : Section) : x.applySum.state = x.state := by
  unfold Section.applySum
  dsimp only
  split <;> rfl

theorem Section.lawful.gear_lt {x : Section} (h : x.lawful) (hs : x.state ≠ .vacant) : x.r < x.d :=
  ((gearGood_iff x).1 h.gear).2.2 hs

/-- A section that takes another position, state, remainder below D, and slew, neither state VACANT. -/
theorem Section.lawful.moved {x y : Section} (h : x.lawful) (hy : y.state ≠ .vacant)
    (h1 : y.tt = x.tt) (h2 : y.tmax = x.tmax) (h3 : y.posted = x.posted) (h4 : y.r < y.d) : y.lawful := by
  obtain ⟨ht, hl, hg⟩ := h
  rw [gearGood_iff] at hg
  exact ⟨by rw [h1, h2]; exact ht, by rw [h3]; exact hl,
    (gearGood_iff _).2 ⟨by rw [h3]; exact hg.1, fun e => absurd e hy, fun _ => h4⟩⟩

theorem checkWaiting_lawful (s : State) {x : Section} (h : x.lawful) (k : WaitKind) : (s.checkWaiting x k).1.lawful := by
  cases k with
  | couple =>
    show (s.coupleCheck x).1.lawful
    unfold State.coupleCheck
    split
    · exact h
    · split
      · exact h
      next hi =>
        split
        · exact h
        · split
          · exact h
          · have hx : x.state ≠ .vacant := by rw [not_not.1 hi]; decide
            exact h.moved (by simp) rfl rfl rfl (Nat.lt_of_le_of_lt (Nat.zero_le _) (h.gear_lt hx))
  | decouple =>
    show (s.decoupleCheck x).1.lawful
    unfold State.decoupleCheck
    split
    · exact h
    next hc =>
      split
      · exact h
      · exact h.moved (by simp) rfl rfl rfl (h.gear_lt (by rw [not_not.1 hc]; decide))
  | setPosition a =>
    show (setPositionCheck x a).1.lawful
    unfold setPositionCheck
    split
    · exact ⟨h.trim, h.list, h.gear⟩
    · exact h

theorem checkWaiting_stateKept (s : State) (x : Section) (k : WaitKind) :
    StateKept s x.state (s.checkWaiting x k).1.state := by
  cases k with
  | couple =>
    show StateKept s x.state (s.coupleCheck x).1.state
    unfold State.coupleCheck
    split
    · exact .refl s _
    next hl =>
      split
      · exact .refl s _
      · split
        · exact .refl s _
        next hr =>
          split
          · exact .refl s _
          · exact ⟨fun _ => .inr (fun c => hr (by simpa [Cls.quickOrAbove] using c.1)), fun l => absurd l hl⟩
  | decouple =>
    show StateKept s x.state (s.decoupleCheck x).1.state
    unfold State.decoupleCheck
    split
    · exact .refl s _
    next hc =>
      split
      · exact .refl s _
      · refine ⟨fun e => absurd e (by simp), fun _ e => ?_⟩
        rw [not_not.1 hc] at e
        rcases e with e | e <;> cases e
  | setPosition a =>
    show StateKept s x.state (setPositionCheck x a).1.state
    unfold setPositionCheck
    split <;> exact .refl s _

theorem lawful_checkOne (s : State) (w : Waiting) :
    Lawful 0 s (s.event (fun a => a.onSlot w.slot (fun _ => (s.checkWaiting (s.slot w.slot) w.kind).1))) :=
  Lawful.event (lawful_onSlot s w.slot _ (fun h => checkWaiting_lawful s h w.kind) (checkWaiting_stateKept s _ w.kind))

theorem lawful_checkList (l : List Waiting) (b : Bool) (s : State) :
    Lawful (-owing (l.map (fun w => (w.port, w.tag)))) s (State.checkList l b s).1 := by
  induction l generalizing b s with
  | nil => exact .refl s
  | cons w l ih =>
    unfold State.checkList
    have e : (0 : Debt) + -owe w.port w.tag + -owing (l.map (fun w => (w.port, w.tag)))
        = -owing ((w :: l).map (fun w => (w.port, w.tag))) := by
      rw [List.map_cons, owing_cons]; abel
    rw [← e]
    exact ((lawful_checkOne s w).trans (lawful_respond _ w.port w.tag _ [])).trans (ih _ _)

theorem lawful_checkSlot (s : State) (i : SlotNo) : Lawful 0 s (s.checkSlot i).1 := by
  refine Lawful.answered (lawful_onSe_owed s _ id (fun _ => .refl s _) ?_) (lawful_checkList _ _ _)
  simp only [SE.owed, owing_append]
  rw [← owing_filter s.se.waiting (fun w => (w.port, w.tag)) (fun w => w.slot == i)]
  simp only [bne]
  abel

/-- The gear and the slew of a section that moves. -/
theorem move_lawful {x : Section} (h : x.lawful) (dm : Int) : (x.move dm).1.lawful := by
  unfold Section.move
  split
  next hc =>
    have hd := h.gear_lt (by rw [hc]; decide)
    refine h.moved (y := _) (by show x.state ≠ _; rw [hc]; decide) rfl rfl rfl ?_
    have h1 : Int.fmod (dm * x.n + x.r) x.d < x.d := Int.fmod_lt_of_pos _ (by omega)
    show (Int.fmod (dm * x.n + x.r) x.d).toNat < x.d
    omega
  · exact h

theorem move_state (x : Section) (dm : Int) : (x.move dm).1.state = x.state := by
  unfold Section.move
  split <;> rfl

theorem lawful_moveSlot (s : State) (i : SlotNo) (k : StepInput) (b : Bool) :
    Lawful 0 s (s.onSlot i (fun x => (x.move k.dm).1.prepare i k (x.move k.dm).2 b)) :=
  lawful_onSlot s i _ (fun h => ⟨(move_lawful h k.dm).trim, (move_lawful h k.dm).list, (move_lawful h k.dm).gear⟩)
    (by show StateKept s _ ((s.slot i).move k.dm).1.state; rw [move_state]; exact .refl s _)

theorem lawful_stepSlot (k : StepInput) (s : State) (i : SlotNo) : Lawful 0 s (State.stepSlot k s i) := by
  unfold State.stepSlot
  refine .ite (fun _ => lawful_checkSlot s i) (fun _ => ?_)
  have h1 : Lawful 0 s (s.onSlot i (fun x => x.applyPosted (decide (s.tu.state = .lockout)))) :=
    lawful_onSlot s i _ (fun h => applyPosted_lawful h _) (applyPosted_stateKept s _)
  have h2 := h1.then (lawful_resolveApplied _ i)
  have h3 := h2.then (lawful_onSlot _ i Section.applySum applySum_lawful (by rw [applySum_state]; exact .refl _ _))
  exact (h3.then (lawful_checkSlot _ i)).then (lawful_moveSlot _ i k _)

/-! ### Publication, pickup and drive status -/

theorem lawful_publishRecord (s : State) (i : SlotNo) (rec : SetpointRecord) : Lawful 0 s (s.publishRecord i rec) :=
  (lawful_onSlot s i _ (fun h => ⟨h.trim, h.list, h.gear⟩) (.refl s _)).then (lawful_notifyPort _ _ _)

theorem lawful_publish (s : State) (i : SlotNo) (a : Armed) : Lawful 0 s (s.publish i a) := by
  unfold State.publish
  split
  · exact lawful_publishRecord s i _
  · refine (lawful_onSlot s i _ (fun h => ⟨h.trim, h.list, h.gear⟩) (.refl s _)).then (Lawful.then (.ite (fun _ => ?_)
      (fun _ => .refl _)) (lawful_publishRecord _ i _))
    exact lawful_raiseSlot _ _ _

theorem lawful_publishDue (s : State) (i : SlotNo) : Lawful 0 s (s.publishDue i) := by
  unfold State.publishDue
  split
  · exact .ite (fun _ => lawful_publish s i _) (fun _ => .refl s)
  · exact .refl s

theorem lawful_sectionStep (s : State) (k : StepInput) : Lawful 0 s (s.sectionStep k) :=
  (Lawful.foldl (lawful_stepSlot k) _ s).then (.foldl lawful_publishDue _ _)

theorem replied_reqSetpointPickup (p : PortNo) (slot : Option Nat) (s : State) : Replied s (reqSetpointPickup p slot s) := by
  unfold reqSetpointPickup
  rcases argFin 16 slot with _ | i
  · exact .same s _
  dsimp only
  cases (s.slot i).state with
  | vacant => exact .same s _
  | _ =>
    cases (s.slot i).published with
    | none => exact .same s _
    | some r => exact .refusing fun _ => (lawful_onSlot s _ _ (fun h => ⟨h.trim, h.list, h.gear⟩) (.refl s _)).replied _

theorem lawful_takeReport (s : State) (i : SlotNo) (r : DriveReport) : Lawful 0 s (s.takeReport i r) := by
  unfold State.takeReport
  refine (lawful_onSlot s i (fun x => { x with report := some r }) (fun h => ⟨h.trim, h.list, h.gear⟩) (.refl s _)).then
    (Lawful.then (a := if r.fault then (s.onSlot i (fun x => { x with report := some r })).raiseSlot .driveFault i
      else s.onSlot i (fun x => { x with report := some r })) ?_ ?_)
  · exact .ite (fun _ => lawful_raiseSlot _ _ _) (fun _ => .refl _)
  · exact .ite (fun _ => lawful_raiseSlot _ _ _) (fun _ => .refl _)

theorem replied_reqDriveStatus (p : PortNo) (slot : Option Nat) (a b c : Option Bool) (d : Option Nat) (s : State) :
    Replied s (reqDriveStatus p slot a b c d s) := by
  unfold reqDriveStatus
  rcases argFin 16 slot with _ | i
  · exact .same s _
  rcases a with _ | a
  · exact .same s _
  rcases b with _ | b
  · exact .same s _
  rcases c with _ | c
  · exact .same s _
  rcases argFin 16777216 d with _ | d
  · exact .same s _
  · exact .refusing fun _ => .refusing fun _ => (lawful_takeReport s _ _).replied _

/-! ### Lines, STOP PRESS and MATRIX SET -/

theorem lawful_raiseHub (s : State) (c : Cause) : Lawful 0 s (s.raiseHub c) := lawful_raise s _

theorem lawful_tripInFalls (s : State) : Lawful 0 s s.tripInFalls :=
  .ite (fun _ => .refl s) (fun _ => (lawful_onTu s _ ⟨rfl, rfl, rfl, rfl⟩).then (lawful_raiseHub _ _))

theorem lawful_webBrkRises (s : State) : Lawful 0 s s.webBrkRises :=
  .ite (fun _ => .refl s) (fun _ => (lawful_onTu s _ ⟨rfl, rfl, rfl, rfl⟩).then (lawful_raiseHub _ _))

theorem lawful_lineReturns (s : State) (line : TripLine) : Lawful 0 s (s.lineReturns line) := by
  cases line with
  | tripIn => exact lawful_onTu s (fun t => { t with tripInLow := false }) ⟨rfl, rfl, rfl, rfl⟩
  | webBrk => exact lawful_onTu s (fun t => { t with webBrk := false }) ⟨rfl, rfl, rfl, rfl⟩

theorem partly_setMatrix (s : State) (g : Matrix → Matrix) : Partly s (s.onTu (fun t => { t with matrix := g t.matrix })) :=
  partly_onTu s (fun t => { t with matrix := g t.matrix }) rfl
    (fun l => (of_decide_eq_true l : s.tu.causes.Pairwise (fun a b => a.before b = true)))

theorem replied_reqMatrixSet (pairs : List (Nat × Nat)) (s : State) : Replied s (reqMatrixSet pairs s) := by
  unfold reqMatrixSet
  split
  · exact .same s _
  next ps _ =>
    refine .refusing fun _ => .refusing fun _ => Lawful.replied ?_ _
    exact ((partly_setMatrix s (fun m => (ps.map raiseToMinimum).foldl (fun m p => m.put p.1 p.2) m)).trans
      (partly_matrixChanged _ _)).lawful (fun l => matrixChanged_law ((lawBefore_of_law l).congr rfl (fun _ => rfl)))

end Sys2Proof.Machine

end

section
/-! SUPPORT. Views, exports, nudges and the generator requests keep the laws. -/

namespace Sys2Proof.Machine

variable {s : State}

/-! ### Views and exports -/

theorem lawful_makeReady (s : State) (i : Fin 16) (v : View) : Lawful 0 s (s.makeReady i v) :=
  (lawful_onVu s _ rfl).then (lawful_notifyPort _ _ _)

theorem lawful_putView (s : State) (i : Fin 16) (v : View) : Lawful 0 s (s.putView i v) := lawful_onVu s _ rfl

theorem lawful_putExport (s : State) (i : Fin 16) (e : Option ExportEntry) : Lawful 0 s (s.putExport i e) :=
  lawful_onVu s _ rfl

theorem lawful_expireViews (rate : Fin 4) (s : State) (i : Fin 16) : Lawful 0 s (State.expireViews rate s i) := by
  unfold State.expireViews
  split
  · exact .ite (fun _ => lawful_makeReady s i _) (fun _ => .refl s)
  · exact .refl s

theorem lawful_makeControl (s : State) (f : OwnFrame) : Lawful 0 s (s.makeControl f) :=
  .ite (fun _ => (lawful_onVu s _ rfl).then (lawful_offerControl _ _)) (fun _ => .refl s)

theorem lawful_offerExport (s : State) (i : Fin 16) : Lawful 0 s (s.offerExport i) := by
  unfold State.offerExport
  rcases s.vu.exports.get i with _ | e
  · exact .refl s
  rcases s.vu.offered with _ | o
  · refine .ite (fun _ => .refl s) (fun _ => .ite (fun _ => ?_) (fun _ => ?_))
    · exact (lawful_putExport s _ _).then (lawful_onRc _ _ ⟨rfl, rfl, rfl, rfl⟩)
    · exact (lawful_putExport s _ _).then (lawful_onVu _ _ rfl)
  · exact .refl s

theorem lawful_offerExports (s : State) : Lawful 0 s s.offerExports :=
  .ite (fun _ => .foldl lawful_offerExport _ s) (fun _ => .refl s)

theorem lawful_giveViewPlace (s : State) : Lawful 0 s s.giveViewPlace := by
  unfold State.giveViewPlace
  split
  · exact lawful_offerExports s
  · exact ((lawful_onRc s _ ⟨rfl, rfl, rfl, rfl⟩).then (lawful_onVu _ _ rfl)).then (lawful_offerExports _)

theorem lawful_rateExpiry (s : State) (rate : Fin 4) : Lawful 0 s (s.rateExpiry rate) :=
  .ite (fun _ => ((lawful_onVu s _ rfl).then (.foldl (lawful_expireViews rate) _ _)).then (lawful_offerExports _))
    (fun _ => .refl s)

theorem lawful_keepAlive (s : State) (i : Fin 16) : Lawful 0 s (s.keepAlive i) := by
  unfold State.keepAlive
  split
  · exact .ite (fun _ => (lawful_putExport s _ _).then (lawful_offerExports _)) (fun _ => .refl s)
  · exact .refl s

theorem lawful_takeSubscribe (s : State) (src view : Nat) (sub : BitVec 16) (kind index rate : Nat) :
    Lawful 0 s (s.takeSubscribe src view sub kind index rate) := by
  unfold State.takeSubscribe
  rcases viewKindOf kind index with _ | k
  · exact lawful_makeControl s _
  rcases toFin 4 rate with _ | r
  · exact lawful_makeControl s _
  · dsimp only
    split
    · exact (lawful_putExport s _ _).then (lawful_makeControl _ _)
    · split
      · exact (lawful_putExport s _ _).then (lawful_makeControl _ _)
      · exact lawful_makeControl s _

theorem lawful_takeUnsubscribe (s : State) (src view : Nat) (sub : BitVec 16) :
    Lawful 0 s (s.takeUnsubscribe src view sub) := lawful_onVu s _ rfl

/-! ### Imports -/

theorem lawful_subscribeView (s : State) (i : Fin 16) (v : View) (h : Nat) : Lawful 0 s (s.subscribeView i v h) :=
  (lawful_onVu s _ rfl).then (lawful_makeControl _ _)

theorem lawful_takeSubReply (s : State) (src view : Nat) (sub : BitVec 16) (st : SubStatus) :
    Lawful 0 s (s.takeSubReply src view sub st) := by
  unfold State.takeSubReply
  split
  · exact .refl s
  · split
    · exact lawful_putView s _ _
    · exact lawful_makeReady s _ _
    · exact lawful_makeReady s _ _
    · exact .refl s

theorem lawful_takeViewUpdate (s : State) (src view : Nat) (sub : BitVec 16) (content : Option (List Item)) :
    Lawful 0 s (s.takeViewUpdate src view sub content) := by
  unfold State.takeViewUpdate
  split
  · split
    · exact lawful_putView s _ _
    · exact lawful_putView s _ _
  · exact .ite (fun _ => .refl s) (fun _ => lawful_makeControl s _)

theorem lawful_staleExpiry (s : State) (i : Fin 16) : Lawful 0 s (s.staleExpiry i) := by
  unfold State.staleExpiry
  split
  · split
    · refine .ite (fun _ => .ite (fun _ => lawful_subscribeView s _ _ _) (fun _ => ?_)) (fun _ => .refl s)
      exact (lawful_makeReady s _ _).then (lawful_subscribeView _ _ _ _)
    · exact .refl s
  · exact .refl s

theorem lawful_openView (s : State) (i : Fin 16) (v : View) : Lawful 0 s (s.openView i v) := by
  unfold State.openView
  split
  · exact lawful_subscribeView s _ _ _
  · exact lawful_putView s _ _

theorem replied_reqViewOpen (p : PortNo) (hub kind index rate : Option Nat) (s : State) :
    Replied s (reqViewOpen p hub kind index rate s) := by
  unfold reqViewOpen
  split
  · refine .refusing fun _ => .refusing fun _ => .refusing fun _ => ?_
    split
    · exact .same s _
    · exact (lawful_openView s _ _).replied _
  · exact .same s _

theorem replied_reqViewFetch (p : PortNo) (s : State) : Replied s (reqViewFetch p s) :=
  (lawful_onVu s _ rfl).replied _

theorem replied_reqViewClose (p : PortNo) (view : Option Nat) (s : State) : Replied s (reqViewClose p view s) := by
  unfold reqViewClose
  split
  · exact .same s _
  next i _ =>
    split
    · exact .same s _
    · refine .refusing fun _ => Lawful.replied ?_ _
      have h := lawful_onVu s (fun u => { u with views := u.views.set i none }) rfl
      split
      · exact h.then (lawful_makeControl _ _)
      · exact h

/-! ### Remote nudges -/

theorem lawful_joinNudges (s : State) (n : Nudge) (r : BitVec 16) :
    Lawful (-owe n.port n.tag) s (s.onVu (fun u => { u with refCount := r, nudges := u.nudges ++ [n] })) := by
  refine lawful_onVu_owed s _ ?_
  simp only [VU.owed, List.map_append, List.map_cons, List.map_nil, owing_append, owing_singleton]
  abel

/-- A nudge waits no longer, and has to be answered. -/
theorem lawful_leaveNudges (s : State) {n : Nudge} (h : n ∈ s.vu.nudges) :
    Lawful (owe n.port n.tag) s (s.onVu (fun u => { u with nudges := u.nudges.erase n })) := by
  refine lawful_onVu_owed s _ ?_
  have hp := (List.perm_cons_erase h).map (fun n : Nudge => (n.port, n.tag))
  show owing (s.vu.nudges.map _) = owing ((s.vu.nudges.erase n).map _) + _
  have e : ∀ l l' : List (PortNo × Tag), l.Perm l' → owing l = owing l' := fun l l' h => by
    funext p g; simp only [owing, h.countP_eq]
  rw [e _ _ hp, List.map_cons, owing_cons]

theorem lawful_answerNudge (s : State) {n : Nudge} (h : n ∈ s.vu.nudges) (st : Status) (bytes : List Byte) :
    Lawful 0 s ((s.onVu (fun u => { u with nudges := u.nudges.erase n })).respond n.port n.tag st bytes) :=
  (lawful_leaveNudges s h).answered (lawful_respond _ _ _ _ _)

theorem lawful_takeEditReply (s : State) (src : Nat) (ref : BitVec 16) (st : Status) (amount : Int) (serial : BitVec 16) :
    Lawful 0 s (s.takeEditReply src ref st amount serial) := by
  unfold State.takeEditReply
  split
  · exact .refl s
  next n h => exact lawful_answerNudge s (List.mem_of_find?_eq_some h) _ _

theorem lawful_nudgeTimeout (s : State) (ref : BitVec 16) : Lawful 0 s (s.nudgeTimeout ref) := by
  unfold State.nudgeTimeout
  split
  · exact .refl s
  next n h => exact lawful_answerNudge s (List.mem_of_find?_eq_some h) _ _

theorem lawful_takeEdit (s : State) (src : Nat) (ref : BitVec 16) (slot : Nat) (amount : Int) :
    Lawful 0 s (s.takeEdit src ref slot amount) :=
  .ite (fun _ => .refl s) (fun _ => ((lawful_postNudge s _ _ _).then
    (lawful_onSe _ (fun e => { e with replies := e.replies ++ [_] }) id rfl rfl (fun _ => .refl _ _))).then
    (lawful_offerControl _ _))

/-! ### Cycle steps, ring loss and re-formation -/

theorem lawful_vuStep (s : State) (b : Bool) : Lawful 0 s (s.onVu (fun u => u.step b)) := by
  refine lawful_onVu s _ ?_
  simp [VU.owed, VU.step, List.map_map, Function.comp_def]

/-- A loss leaves an entry of the view table, or makes one ready. -/
theorem staleAtLoss_cases (s : State) (i : Fin 16) : s.staleAtLoss i = s ∨ ∃ v, s.staleAtLoss i = s.makeReady i v := by
  unfold State.staleAtLoss
  cases s.vu.views.get i with
  | none => exact .inl rfl
  | some v =>
    dsimp only
    cases v.target with
    | none => exact .inl rfl
    | some k =>
      cases v.state with
      | initial => exact .inr ⟨_, rfl⟩
      | clean => exact .inr ⟨_, rfl⟩
      | dirty => exact .inr ⟨_, rfl⟩
      | _ => exact .inl rfl

theorem lawful_staleAtLoss (s : State) (i : Fin 16) : Lawful 0 s (s.staleAtLoss i) := by
  obtain e | ⟨v, e⟩ := staleAtLoss_cases s i <;> rw [e]
  · exact .refl s
  · exact lawful_makeReady s i v

theorem staleAtLoss_nudges (s : State) (i : Fin 16) : (s.staleAtLoss i).vu.nudges = s.vu.nudges := by
  obtain e | ⟨v, e⟩ := staleAtLoss_cases s i <;> rw [e]
  rfl

theorem foldl_nudges {f : State → Fin 16 → State} (hf : ∀ s i, (f s i).vu.nudges = s.vu.nudges) (l : List (Fin 16))
    (s : State) : (l.foldl f s).vu.nudges = s.vu.nudges := by
  induction l generalizing s with
  | nil => rfl
  | cons i l ih => exact (ih _).trans (hf s i)

theorem lawful_viewRingLoss (s : State) : Lawful 0 s s.viewRingLoss := by
  let key : Nudge → PortNo × Tag := fun n => (n.port, n.tag)
  refine (Lawful.foldl lawful_staleAtLoss (List.finRange 16) s).then ?_
  refine Lawful.answered (d := owing (s.vu.nudges.map key)) (lawful_onVu_owed _ _ ?_)
    (lawful_respondAll key .notRunning [] _ _)
  show owing ((List.foldl State.staleAtLoss s (List.finRange 16)).vu.nudges.map key) = owing [] + _
  rw [foldl_nudges staleAtLoss_nudges, owing_nil, zero_add]

theorem lawful_goneAtReformation (s : State) (i : Fin 16) : Lawful 0 s (s.goneAtReformation i) := by
  unfold State.goneAtReformation
  split
  · split
    · exact .ite (fun _ => .refl s) (fun _ => lawful_makeReady s _ _)
    · exact .refl s
  · exact .refl s

theorem lawful_dropExports (s : State) :
    Lawful 0 s (s.onVu (fun u => { u with exports := .const 16 none, offered := none })) := lawful_onVu s _ rfl

theorem lawful_viewReformation (s : State) : Lawful 0 s s.viewReformation := by
  unfold State.viewReformation
  exact (Lawful.foldl lawful_goneAtReformation _ s).then (lawful_dropExports _)

/-! ### The generator -/

theorem lawful_onGen (s : State) (f : Generator → Generator) (h1 : s.su.gen.lawful = true → (f s.su.gen).lawful = true)
    (h2 : s.su.gen.ratesInRange = true → (f s.su.gen).ratesInRange = true) : Lawful 0 s (s.onGen f) :=
  lawful_onSu s _ ⟨h1, h2, id⟩ (fun _ _ => rfl)

theorem Replied.atMaster {r : State × Reply} (h : Replied s r) : Replied s (s.atMaster r) :=
  .ite (fun _ => h) (fun _ => .same s _)

/-- The values of a generator in their ranges. -/
theorem genLawful_iff (g : Generator) : g.lawful = true ↔
    0 ≤ g.vt ∧ g.vt ≤ g.vmax ∧ g.vi.natAbs ≤ g.vmax ∧ g.v.natAbs ≤ g.vmax ∧ g.vmax ≤ 2147479552 := by
  simp only [Generator.lawful, Bool.and_eq_true, decide_eq_true_eq, and_assoc]

theorem replied_reqSetSpeed (v : Option Int) (s : State) : Replied s (reqSetSpeed v s) := by
  refine .atMaster ?_
  cases v with
  | none => exact .same s _
  | some v =>
    refine .refusing fun _ => (lawful_onGen s _ (fun h => ?_) (fun h => h)).replied _
    rw [genLawful_iff] at h ⊢
    have := clampInt_range 0 s.su.gen.vmax v (by omega)
    exact ⟨this.1, this.2, h.2.2⟩

theorem replied_reqSetRamp (a dn de : Option Nat) (s : State) : Replied s (reqSetRamp a dn de s) := by
  refine .atMaster ?_
  split
  next x y z =>
    refine (lawful_onGen s _ (fun h => h) (fun _ => ?_)).replied _
    have hx := clampNat_range 1 1048575 x (by omega)
    have hy := clampNat_range 1 1048575 y (by omega)
    have hz := clampNat_range 1 1048575 z (by omega)
    simp only [Generator.ratesInRange, Bool.and_eq_true, decide_eq_true_eq]
    exact ⟨⟨⟨⟨⟨hx.1, hx.2⟩, hy.1⟩, hy.2⟩, hz.1⟩, hz.2⟩
  · exact .same s _

theorem replied_reqSetVmax (v : Option Nat) (s : State) : Replied s (reqSetVmax v s) := by
  refine .atMaster ?_
  cases v with
  | none => exact .same s _
  | some v =>
    refine .refusing fun hr => (lawful_onGen s _ (fun h => ?_) (fun h => h)).replied _
    rw [genLawful_iff] at h ⊢
    obtain ⟨h0, h1, h2, h3, h4⟩ := h
    have hv : s.su.gen.v = 0 := of_decide_eq_true (Bool.and_eq_true_iff.1 (Bool.not_eq_false _ ▸ hr)).1
    have hm := clampNat_range 0 2147479552 v (by omega)
    have hi := clampInt_range (-(clampNat 0 2147479552 v : Int)) (clampNat 0 2147479552 v) s.su.gen.vi (by omega)
    exact ⟨by dsimp only; split <;> omega, by dsimp only; split <;> omega, by dsimp only; omega, by dsimp only; omega, hm.2⟩

theorem replied_reqInchStart (v : Option Int) (s : State) : Replied s (reqInchStart v s) := by
  refine .atMaster ?_
  cases v with
  | none => exact .same s _
  | some v =>
    refine .refusing fun _ => .refusing fun _ => .refusing fun _ => .refusing fun _ =>
      (lawful_onGen s _ (fun h => ?_) (fun h => h)).replied _
    rw [genLawful_iff] at h ⊢
    have hi := clampInt_range (-(s.su.gen.vmax : Int)) s.su.gen.vmax v (by omega)
    refine ⟨h.1, h.2.1, ?_, h.2.2.2⟩
    dsimp only; omega

theorem replied_reqInchStop (s : State) : Replied s (reqInchStop s) := by
  refine .atMaster (Lawful.replied (lawful_onGen s (fun g => { g with inching := false, vt := 0 }) (fun h => ?_) (fun h => h)) _)
  rw [genLawful_iff] at h ⊢
  exact ⟨Int.le_refl _, by dsimp only; omega, h.2.2⟩

end Sys2Proof.Machine

end

section
/-! SUPPORT. The blocks at a cycle step, and what they leave of the Ring Controller. -/

namespace Sys2Proof.Machine

variable {s : State}

/-! ### What the blocks of a step leave of the other blocks -/

theorem keeps_setLoopState (s : State) (i : SlotNo) (st : LoopState) : Keeps [.ru, .cp] s (s.setLoopState i st) :=
  .ite (.refl _ s) (((keeps_onLoop s i _).mono (by decide)).trans ((keeps_notify _ _).mono (by decide)))

theorem keeps_judgeMark (s : State) (i : SlotNo) (mark : Angle) : Keeps [.se, .ru, .cp] s (s.judgeMark i mark) := by
  have tail : ∀ (a : State) (f : Loop → Loop), Keeps [.se, .ru, .cp] a ((a.onLoop i f).setLoopState i .locked) := fun a f =>
    ((keeps_onLoop a i f).mono (by decide)).trans ((keeps_setLoopState _ i _).mono (by decide))
  unfold State.judgeMark
  dsimp only
  split
  · exact (keeps_onLoop s i _).mono (by decide)
  · split
    · exact ((keeps_onSlot s i _).mono (by decide)).trans (tail _ _)
    · exact tail s _

theorem keeps_offerMark (s : State) (n : Fin 8) (mark : Angle) (i : SlotNo) :
    Keeps [.se, .ru, .cp] s (s.offerMark n mark i) := .ite (keeps_judgeMark s i mark) (.refl _ s)

theorem keeps_askCapture (s : State) (i : Fin 8) : Keeps [.se, .ru, .cp] s (s.askCapture i) := by
  unfold State.askCapture
  split
  · exact .refl _ s
  · split
    · exact .refl _ s
    · exact (keeps_onInput s i _).mono (by decide)
    · exact ((keeps_onInput s i _).mono (by decide)).trans (.foldl (fun s j => keeps_offerMark s i _ j) _ _)

theorem keeps_askCaptures (s : State) : Keeps [.se, .ru, .cp] s s.askCaptures := .foldl keeps_askCapture _ s

theorem keeps_takeUpFrom (q : List Job) (s : State) : Keeps [.is, .ms] s (takeUpFrom q s) := by
  induction q generalizing s with
  | nil => exact (keeps_onMs s _).mono (by decide)
  | cons j rest ih =>
    unfold takeUpFrom
    split
    · exact ((keeps_onMs s _).mono (by decide)).trans ((keeps_onStrip _ _ _).mono (by decide))
    · exact ((keeps_onMs s _).mono (by decide)).trans (ih _)

theorem keeps_takeUp (s : State) : Keeps [.is, .ms] s s.takeUp := .ite (.refl _ s) (keeps_takeUpFrom _ s)

theorem keeps_offerJob (s : State) (j : Job) : Keeps [.is, .ms] s (s.offerJob j) :=
  .ite (.refl _ s)
    (.ite (((keeps_onMs s _).mono (by decide)).trans (keeps_takeUp _)) ((keeps_onMs s _).mono (by decide)))

theorem keeps_readyForSearch (s : State) (id : Nat) : Keeps [.is, .ms] s (s.readyForSearch id) := by
  obtain ⟨l, e⟩ := readyForSearch_jobs s id
  rw [e]
  exact .foldl keeps_offerJob l s

theorem keeps_askStamps (s : State) : Keeps [.is, .ms] s s.askStamps :=
  Keeps.trans ((keeps_onIs s _).mono (by decide)) (.foldl keeps_readyForSearch _ _)

theorem keeps_fire (s : State) (i : Fin 4) (f : Firing) : Keeps [.is, .cp] s (s.fire i f) :=
  ((keeps_onCamera s i _).mono (by decide)).trans ((keeps_notify _ _).mono (by decide))

theorem keeps_armFiring (s : State) (i : Fin 4) (f : Firing) : Keeps [.is, .cp] s (s.armFiring i f) :=
  .ite (keeps_fire s i f) ((keeps_onCamera s i _).mono (by decide))

theorem keeps_scheduleCamera (e : HistEntry) (s : State) (i : Fin 4) : Keeps [.is, .cp] s (State.scheduleCamera e s i) :=
  ((keeps_onCamera s i _).mono (by decide)).trans (.foldl (fun s f => keeps_armFiring s i f) _ _)

theorem keeps_storeGrowth (s : State) (e : HistEntry) : Keeps [.is, .ms, .cp] s (s.storeGrowth e) :=
  ((keeps_askStamps s).mono (by decide)).trans
    (.foldl (fun s i => (keeps_scheduleCamera e s i).mono (by decide)) _ _)

theorem keeps_storeEmptied (s : State) : Keeps [.is, .ms] s s.storeEmptied :=
  (keeps_askStamps s).trans ((keeps_onIs _ _).mono (by decide))

theorem keeps_registerEmptied (s : State) : Keeps [.se, .ru, .cp] s s.registerEmptied :=
  (keeps_askCaptures s).trans ((keeps_onRu _ _).mono (by decide))

theorem keeps_checkList (l : List Waiting) (b : Bool) (s : State) : Keeps [.se, .vu, .cp] s (State.checkList l b s).1 := by
  induction l generalizing b s with
  | nil => exact .refl _ s
  | cons w l ih =>
    unfold State.checkList
    have h1 := (keeps_onSlot s w.slot (fun _ => (s.checkWaiting (s.slot w.slot) w.kind).1)).mono
      (l' := [.se, .vu, .cp]) (by decide)
    have h2 := (keeps_event (s := s) (fun a => a.onSlot w.slot (fun _ => (s.checkWaiting (s.slot w.slot) w.kind).1))).mono
      (l' := [.se, .vu, .cp]) (by decide)
    exact ((h1.trans h2).trans ((keeps_respond _ w.port w.tag _ []).mono (by decide))).trans (ih _ _)

theorem keeps_checkSlot (s : State) (i : SlotNo) : Keeps [.se, .vu, .cp] s (s.checkSlot i).1 :=
  ((keeps_onSe s _).mono (by decide)).trans (keeps_checkList _ _ _)

theorem keeps_stepSlot (k : StepInput) (s : State) (i : SlotNo) : Keeps [.se, .vu, .cp] s (State.stepSlot k s i) := by
  unfold State.stepSlot
  refine .ite (keeps_checkSlot s i) ?_
  exact (((((keeps_onSlot s i _).mono (by decide)).trans ((keeps_resolveApplied _ i).mono (by decide))).trans
    ((keeps_onSlot _ i _).mono (by decide))).trans (keeps_checkSlot _ i)).trans ((keeps_onSlot _ i _).mono (by decide))

/-! ### The Ring Controller through work that takes the Trip Unit into no state but CAPTURE, LOCKOUT and NORMAL -/

/-- NORMAL, CAPTURE or LOCKOUT: in these the re-formation conditions do not hold. -/
def TripState.away (st : TripState) : Prop := st = .normal ∨ st = .capture ∨ st = .lockout

/-- The Ring Controller, at a LOST master with its census timer stopped. -/
noncomputable def State.rcStopped (s : State) : RC :=
  if s.isMaster = true ∧ s.rc.ringState = .lost then { s.rc with censusTimer := none } else s.rc

/-- The Ring Controller comes through as it was; where the trip state changes, it is then one in which no re-formation goes on,
and the census timer of a LOST master is stopped. -/
structure RingKept (s s' : State) : Prop where
  time : s'.hubTime = s.hubTime
  straps : s'.straps = s.straps
  su : s'.su = s.su
  rc : (s'.rc = s.rc ∧ s'.tu.state = s.tu.state) ∨ (s'.tu.state.away ∧ s'.rc = s.rcStopped)

theorem RingKept.refl (s : State) : RingKept s s := ⟨rfl, rfl, rfl, .inl ⟨rfl, rfl⟩⟩

theorem RingKept.master {a : State} (h : RingKept s a) : a.isMaster = s.isMaster := by
  simp only [State.isMaster, h.straps]

theorem rcStopped_of {a : State} (hm : a.isMaster = s.isMaster) (hr : a.rc = s.rc ∨ a.rc = s.rcStopped) :
    a.rcStopped = s.rcStopped := by
  have hring : a.rc.ringState = s.rc.ringState := by
    rcases hr with h | h
    · rw [h]
    · rw [h]; unfold State.rcStopped; split <;> rfl
  by_cases c : s.isMaster = true ∧ s.rc.ringState = .lost
  · unfold State.rcStopped
    rw [hm, hring, if_pos c, if_pos c]
    rcases hr with h | h
    · rw [h]
    · rw [h]; unfold State.rcStopped; rw [if_pos c]
  · unfold State.rcStopped
    rw [hm, hring, if_neg c, if_neg c]
    rcases hr with h | h
    · exact h
    · rw [h]; unfold State.rcStopped; rw [if_neg c]

theorem RingKept.trans {a b : State} (h : RingKept s a) (h' : RingKept a b) : RingKept s b := by
  refine ⟨h'.time.trans h.time, h'.straps.trans h.straps, h'.su.trans h.su, ?_⟩
  rcases h'.rc with ⟨e, t⟩ | ⟨w, e⟩
  · rcases h.rc with ⟨e1, t1⟩ | ⟨w1, e1⟩
    · exact .inl ⟨e.trans e1, t.trans t1⟩
    · exact .inr ⟨by rw [t]; exact w1, e.trans e1⟩
  · refine .inr ⟨w, e.trans (rcStopped_of h.master ?_)⟩
    rcases h.rc with ⟨e1, -⟩ | ⟨-, e1⟩
    · exact .inl e1
    · exact .inr e1

theorem RingKept.foldl {α : Type} {f : State → α → State} (hf : ∀ s x, RingKept s (f s x)) (xs : List α) (s : State) :
    RingKept s (xs.foldl f s) := by
  induction xs generalizing s with
  | nil => exact .refl s
  | cons x xs ih => exact (hf s x).trans (ih _)

theorem RingKept.ite {a b : State} {c : Prop} [Decidable c] (ha : RingKept s a) (hb : RingKept s b) :
    RingKept s (if c then a else b) := by split <;> assumption

/-- Work that leaves the Ring Controller, the Shaft Unit and the Trip Unit. -/
theorem Keeps.ringKept {a : State} (h : Keeps [.se, .ru, .is, .im, .ms, .vu, .cp] s a) : RingKept s a := by
  obtain ⟨h1, h2, -, hb⟩ := h
  exact ⟨h1, h2, hb .su (by decide), .inl ⟨hb .rc (by decide), congrArg TU.state (hb .tu (by decide))⟩⟩

theorem ringKept_onTu (s : State) (f : TU → TU) (h : (f s.tu).state = s.tu.state) : RingKept s (s.onTu f) :=
  ⟨rfl, rfl, rfl, .inl ⟨rfl, h⟩⟩

theorem TripState.away.not_holding {st : TripState} (h : st.away) : st ≠ .stopped ∧ st ≠ .releasing ∧ st ≠ .stopping := by
  rcases h with h | h | h <;> subst h <;> decide

theorem reformation_away (h : s.tu.state.away) : s.reformationHolds = false := by
  obtain ⟨h1, h2, -⟩ := h.not_holding
  simp [State.reformationHolds, h1, h2]

/-- The look at the conditions, where the trip state lets none hold. -/
theorem checkReformation_away (h : s.tu.state.away) : s.checkReformation.rc = s.rcStopped := by
  unfold State.rcStopped
  split
  next hm =>
    unfold State.checkReformation
    rw [if_pos hm, reformation_away h]
    rfl
  next hm => rw [checkReformation_other hm]

theorem ringKept_setTrip (s : State) {st : TripState} (h : st.away) : RingKept s (s.setTrip st) := by
  have k := keeps_setTrip s st
  refine ⟨k.1, k.2.1, k.2.2.2 .su (by decide), .inr ⟨by rw [setTrip_tu]; exact h, ?_⟩⟩
  exact checkReformation_away (s := (s.onTu (fun t =>
    { t with
      state := st
      releaseLevel := if st = .releasing then t.releaseLevel else none
      current := if st = .releasing ∨ st = .normal then none else t.current })).notify .trip) h

theorem ringKept_onCurrent (s : State) (f : TripRecord → TripRecord) : RingKept s (s.onCurrent f) := by
  unfold State.onCurrent
  split
  · exact ringKept_onTu s _ rfl
  · exact .refl s

theorem ringKept_openRecord (s : State) (r : TripRecord) : RingKept s (s.openRecord r) := by
  have k := keeps_openRecord s r
  exact ⟨k.1, k.2.1, k.2.2.2 .su (by decide), .inl ⟨k.2.2.2 .rc (by decide), (openRecord_calm s r).state⟩⟩

theorem ringKept_sectionActions (s : State) (k : Cls) : RingKept s (s.sectionActions k) :=
  ((keeps_sectionActions s k).mono (by decide)).ringKept

theorem ringKept_startWalk (s : State) (r c : BitVec 16) : RingKept s (s.startWalk r c) :=
  ((keeps_onIs s _).mono (by decide)).ringKept

theorem ringKept_orderReleasedFromTrip (s : State) : RingKept s s.orderReleasedFromTrip :=
  ((keeps_onSe s _).mono (by decide)).ringKept

theorem ringKept_releaseTrip (s : State) : RingKept s s.releaseTrip :=
  (ringKept_setTrip s (.inl rfl)).trans (ringKept_orderReleasedFromTrip _)

theorem ringKept_enterCapture (s : State) (c : CausePair) : RingKept s (s.enterCapture c) :=
  (((ringKept_setTrip s (.inr (.inl rfl))).trans (ringKept_openRecord _ _)).trans (ringKept_sectionActions _ _)).trans
    (ringKept_startWalk _ _ _)

theorem ringKept_enterLockout (s : State) : RingKept s s.enterLockout :=
  (((ringKept_onCurrent s _).trans (ringKept_onCurrent _ _)).trans (ringKept_setTrip _ (.inr (.inr rfl)))).trans
    ((keeps_orderSections _ _ _).mono (by decide)).ringKept

theorem ringKept_appendRise (s : State) (c : CausePair) (k : Cls) : RingKept s ((s.appendSecondary c).riseFrom k) := by
  refine RingKept.trans (a := s.appendSecondary c) (ringKept_onCurrent s _) ?_
  unfold State.riseFrom
  exact .ite ((ringKept_onCurrent _ _).trans (ringKept_sectionActions _ _)) (.refl _)

theorem ringKept_latched (s : State) (c : CausePair) (k : Cls) : RingKept s (s.latched c k) := by
  have h0 : RingKept s (s.noticed c) := .ite ((keeps_notify s _).mono (by decide)).ringKept (.refl s)
  rcases tripState_groups s.tu.state with h | h | h
  · rw [latched_idle c k h]
    exact .ite (h0.trans (ringKept_enterCapture _ c)) h0
  · rw [latched_stopping c k h]
    exact .ite (h0.trans (ringKept_enterLockout _)) (h0.trans (ringKept_appendRise _ c k))
  · rw [latched_stopped c k h]
    exact h0.trans (ringKept_appendRise _ c k)

theorem ringKept_raise (s : State) (c : CausePair) : RingKept s (s.raise c) :=
  .ite (.ite (ringKept_enterLockout s) (.refl s)) ((ringKept_onTu s _ rfl).trans (ringKept_latched _ c _))

theorem ringKept_handTripWord (s : State) (w : TripClasses) (mask : BitVec 32) : RingKept s (s.handTripWord w mask) := by
  have h1 : RingKept s (s.setCarried (TripClasses.cls w) mask) := ringKept_onTu s _ rfl
  unfold State.handTripWord
  dsimp only
  split
  · exact .ite (h1.trans (ringKept_enterCapture _ _)) h1
  · exact .ite (h1.trans (ringKept_enterCapture _ _)) (.ite h1
      (h1.trans (ringKept_releaseTrip _)))
  all_goals exact .ite (h1.trans (ringKept_appendRise _ _ _)) h1

theorem ringKept_publishDue (s : State) (i : SlotNo) : RingKept s (s.publishDue i) := by
  have slot : ∀ (a : State) (f : Section → Section), RingKept a (a.onSlot i f) := fun a f =>
    ((keeps_onSlot a i f).mono (by decide)).ringKept
  have record : ∀ (a : State) (r : SetpointRecord), RingKept a (a.publishRecord i r) := fun a r =>
    (slot a _).trans ((keeps_notifyPort _ _ _).mono (by decide)).ringKept
  unfold State.publishDue
  split
  · refine .ite ?_ (.refl s)
    unfold State.publish
    split
    · exact record s _
    · exact (slot s _).trans ((RingKept.ite (ringKept_raise _ _) (.refl _)).trans (record _ _))
  · exact .refl s

theorem ringKept_sectionStep (s : State) (k : StepInput) : RingKept s (s.sectionStep k) :=
  (RingKept.foldl (fun s i => ((keeps_stepSlot k s i).mono (by decide)).ringKept) _ s).trans
    (.foldl ringKept_publishDue _ _)

theorem ringKept_judgePasses (s : State) (a b : Angle) : RingKept s (s.judgePasses a b) :=
  RingKept.trans ((keeps_onRu s _).mono (by decide)).ringKept
    (.foldl (fun s i => RingKept.trans ((keeps_notify s _).mono (by decide)).ringKept (ringKept_raise _ _)) _ _)

theorem ringKept_reach (s : State) (a : Angle) : RingKept s (s.reach a) := by
  unfold State.reach
  refine RingKept.trans (a := (match s.ru.judged with
    | some judged => if 0 < sdiff a judged then s.judgePasses judged a else s
    | none => s)) ?_ ((keeps_onRu _ _).mono (by decide)).ringKept
  split
  · exact .ite (ringKept_judgePasses s _ _) (.refl s)
  · exact .refl s

theorem ringKept_registerGrowth (s : State) (p : HubTime) (a : Angle) : RingKept s (s.registerGrowth p a) := by
  have h1 : RingKept s (s.event State.askCaptures) :=
    RingKept.trans ((keeps_askCaptures s).mono (by decide)).ringKept
      ((keeps_event (s := s) State.askCaptures).mono (by decide)).ringKept
  exact h1.trans (.ite (ringKept_reach _ _) ((keeps_onRu _ _).mono (by decide)).ringKept)

/-- The step of the other blocks leaves the Ring Controller. -/
theorem ringKept_stepBlocks (s : State) (e : HistEntry) : RingKept s (s.stepBlocks e) :=
  ((ringKept_sectionStep s _).trans (ringKept_registerGrowth _ _ _)).trans
    ((keeps_storeGrowth _ _).mono (by decide)).ringKept

theorem lawful_stepBlocks (s : State) (e : HistEntry) : Lawful 0 s (s.stepBlocks e) :=
  ((lawful_sectionStep s _).then (lawful_registerGrowth _ _ _)).then (lawful_storeGrowth _ _)

end Sys2Proof.Machine

end

section
/-! SUPPORT. Changes of the ring state, and the loss of the ring. -/

namespace Sys2Proof.Machine

variable {s : State}

/-! ### What every piece of work keeps but the law of the census timer -/

/-- The laws of the blocks and of the trip states are kept. -/
structure Steady (s s' : State) : Prop where
  sound : Sound 0 s s'
  trip : TripKept s s'

theorem Steady.refl (s : State) : Steady s s := ⟨.refl s, .refl s⟩

theorem Steady.trans {a b : State} (h : Steady s a) (h' : Steady a b) : Steady s b :=
  ⟨h.sound.then h'.sound, h.trip.trans h'.trip⟩

theorem Steady.ite {a b : State} {c : Prop} [Decidable c] (ha : c → Steady s a) (hb : ¬ c → Steady s b) :
    Steady s (if c then a else b) := by
  split
  · exact ha ‹_›
  · exact hb ‹_›

theorem Lawful.steady {a : State} (h : Lawful 0 s a) : Steady s a := ⟨h.sound, h.trip⟩
theorem Settled.steady {a : State} (h : Settled s a) : Steady s a := ⟨h.sound, h.trip⟩

theorem Sound.master {d : Debt} {a : State} (h : Sound d s a) : a.isMaster = s.isMaster := by
  simp only [State.isMaster, h.straps]

theorem steady_onSu (s : State) (f : SU → SU) (h : ShaftKept s.su (f s.su)) : Steady s (s.onSu f) :=
  ⟨sound_onSu s f h, tripKept_onSu s f⟩

theorem steady_checkReformation (s : State) : Steady s s.checkReformation :=
  ⟨sound_checkReformation s, tripKept_checkReformation s⟩

theorem steady_onRc (s : State) (f : RC → RC) (h : (f s.rc).ringState = s.rc.ringState)
    (hr : (f s.rc).rosterTimer = s.rc.rosterTimer) : Steady s (s.onRc f) := ⟨sound_onRc s f h, tripKept_onRc s f h hr⟩

/-- At a follower there is no census. -/
theorem Steady.follower {a : State} (h : Steady s a) (hm : s.isMaster = false) : Lawful 0 s a :=
  Settled.follower ⟨h.sound, h.trip, h.sound.master, fun m => absurd (hm.symm.trans m) (by decide),
    fun m => absurd (hm.symm.trans m) (by decide)⟩ hm

/-- In DOWN, ADDRESSED and CONFLICT the census timer has no law. -/
theorem Steady.away {a : State} (h : Steady s a) (h1 : a.rc.ringState ≠ .running) (h2 : a.rc.ringState ≠ .lost) :
    Lawful 0 s a :=
  ⟨h.sound, h.trip, h.sound.master, fun _ e => absurd e h2,
    fun _ _ => (censusLaw_iff a).2 (fun _ => ⟨fun e => absurd e h1, fun e => absurd e h2⟩), fun _ _ _ e => absurd e h2⟩

/-! ### Ring states -/

theorem setRing_ring (s : State) (st : RingState) : (s.setRing st).rc.ringState = st := by
  unfold State.setRing
  split
  · assumption
  · rfl

theorem setRing_tu (s : State) (st : RingState) : (s.setRing st).tu = s.tu := by
  unfold State.setRing
  split <;> rfl

theorem setRing_se (s : State) (st : RingState) : (s.setRing st).se = s.se := by
  unfold State.setRing
  split <;> rfl

theorem setRing_rc (s : State) (st : RingState) : (s.setRing st).rc = { s.rc with ringState := st } := by
  unfold State.setRing
  split
  next h => rw [← h]
  · rfl

/-- A ring state set at a hub, with its notice. -/
theorem sound_putRing (s a : State) (h1 : Sound 0 a (a.notify .ring)) (ht : a.hubTime = s.hubTime)
    (hst : a.straps = s.straps) (hp : a.pending = s.pending) (hk : ∀ b, b ≠ .rc → s.same a b) :
    Sound 0 s (a.notify .ring) := by
  have su : a.su = s.su := hk .su (by decide)
  have se : a.se = s.se := hk .se (by decide)
  have is : a.is = s.is := hk .is (by decide)
  have im : a.im = s.im := hk .im (by decide)
  have vu : a.vu = s.vu := hk .vu (by decide)
  have cp : a.cp = s.cp := hk .cp (by decide)
  have port : ∀ p, a.port p = s.port p := fun p => by simp only [State.port, cp]
  refine ⟨h1.time.trans ht, h1.straps.trans hst, h1.queue.trans hp, by rw [h1.routes, cp], fun p => by
    rw [← port p]; exact h1.ports p, ?_, by rw [← su]; exact h1.shaft, by rw [← se]; exact h1.sections, ?_, .inr (fun p hp => ?_)⟩
  · rw [h1.debt]
    exact congrArg (· + 0) (debt_congr (fun p => by rw [port p]) (fun p => by rw [port p]) (by rw [se]) (by rw [se]) (by rw [vu]))
  · have hs : s.storeLaw = a.storeLaw := by
      unfold State.storeLaw State.tileLaw State.receptionLaw State.allTiles; rw [is, im]
    have hf : s.freezeLaw = a.freezeLaw := by unfold State.freezeLaw State.frozenTiles; rw [is]
    exact ⟨fun l => h1.store.law (hs ▸ l), fun l f => h1.store.freeze (hs ▸ l) (hf ▸ f)⟩
  · rw [port_notify, if_pos (show (a.cp.routes.of .ring).getLsbD p = true by rw [cp]; exact hp)]
    have hn : Notice.mask .ring = 128#11 := rfl
    simp [Port.addNotice, hn]

theorem sound_setRing (s : State) (st : RingState) : Sound 0 s (s.setRing st) := by
  unfold State.setRing
  split
  · exact .refl s
  · have k := keeps_onRc s (fun r => { r with ringState := st })
    exact sound_putRing s _ (lawful_notify _ _).sound rfl rfl rfl (fun b hb => k.2.2.2 b (by simpa using hb))

/-- A change of the Ring Controller that keeps its ring state, and then another ring state: a master's CONFLICT without a roster
timer stays. -/
theorem steady_onRc_setRing (s : State) (f : RC → RC) (st : RingState) (hf : (f s.rc).ringState = s.rc.ringState)
    (h : s.isMaster = true → s.rc.rosterTimer = none → s.rc.ringState = .conflict →
      (f s.rc).rosterTimer = none ∧ st = .conflict) : Steady s ((s.onRc f).setRing st) := by
  have hs := (sound_onRc s f hf).then (sound_setRing (s.onRc f) st)
  refine ⟨hs, ⟨fun l => ?_, fun l => ?_, fun l => ?_, fun m r c => ?_⟩⟩
  · rw [tripLaw_congr (a := s)]
    · exact l
    · rw [setRing_tu]; exact ⟨rfl, rfl, rfl, rfl⟩
    · intro i; rw [State.slot, setRing_se]; rfl
  · rw [State.causesLaw, setRing_tu]; exact l
  · rw [setRing_tu]; exact l
  · obtain ⟨h1, h2⟩ := h m r c
    refine ⟨hs.master.trans m, ?_, (setRing_ring _ st).trans h2⟩
    rw [setRing_rc]; exact h1

theorem steady_setRing (s : State) {st : RingState}
    (h : s.isMaster = true → s.rc.rosterTimer = none → s.rc.ringState = .conflict → st = .conflict) :
    Steady s (s.setRing st) := steady_onRc_setRing s id st rfl (fun m r c => ⟨r, h m r c⟩)

theorem steady_emptyHistory (s : State) : Steady s s.emptyHistory :=
  ((steady_onSu s _ ⟨id, id, fun _ => rfl⟩).trans (lawful_registerEmptied _).steady).trans (lawful_storeEmptied _).steady

theorem lawful_ringLoss (s : State) : Lawful 0 s s.ringLoss :=
  (((lawful_onRc s RC.emptyQueues ⟨rfl, rfl, rfl, rfl⟩).then (lawful_sectionRingLoss _)).then (lawful_imageRingLoss _)).then
    (lawful_viewRingLoss _)

/-! ### What a ring loss leaves of the Ring Controller -/

theorem keeps_abandonAll (s : State) : Keeps [.is, .im, .ms] s s.abandonAll := by
  refine .foldl (fun s c => ?_) _ s
  split
  · exact keeps_abandon s _ _
  · exact .refl _ s

theorem keeps_imageRingLoss (s : State) : Keeps [.is, .im, .ms, .cp] s s.imageRingLoss := by
  have h : ∀ a : State, Keeps [.is, .im, .ms, .cp] a (a.abandonAll.onIm (fun m => { m with store := [] })) := fun a =>
    ((keeps_abandonAll a).mono (by decide)).trans ((keeps_onIm _ _).mono (by decide))
  have h0 : ∀ (f : IS → IS) (g : IM → IM), Keeps [.is, .im, .ms, .cp] s ((s.onIs f).onIm g) := fun f g =>
    ((keeps_onIs s f).mono (by decide)).trans ((keeps_onIm _ g).mono (by decide))
  unfold State.imageRingLoss
  exact .ite ((h0 _ _).trans (h _)) (((h0 _ _).trans (h _)).trans ((keeps_notify _ _).mono (by decide)))

theorem keeps_makeReady (s : State) (i : Fin 16) (v : View) : Keeps [.vu, .cp] s (s.makeReady i v) :=
  ((keeps_onVu s _).mono (by decide)).trans ((keeps_notifyPort _ _ _).mono (by decide))

theorem keeps_staleAtLoss (s : State) (i : Fin 16) : Keeps [.vu, .cp] s (s.staleAtLoss i) := by
  obtain e | ⟨v, e⟩ := staleAtLoss_cases s i <;> rw [e]
  · exact .refl _ s
  · exact keeps_makeReady s i v

theorem keeps_viewRingLoss (s : State) : Keeps [.vu, .cp] s s.viewRingLoss :=
  (Keeps.trans (.foldl keeps_staleAtLoss _ s) ((keeps_onVu _ _).mono (by decide))).trans
    (.foldl (fun s (n : Nudge) => (keeps_respond s n.port n.tag .notRunning []).mono (by decide)) _ _)

theorem keeps_ringLoss (s : State) : Keeps [.rc, .se, .is, .im, .ms, .vu, .cp] s s.ringLoss :=
  ((((keeps_onRc s _).mono (by decide)).trans ((keeps_sectionRingLoss _).mono (by decide))).trans
    ((keeps_imageRingLoss _).mono (by decide))).trans ((keeps_viewRingLoss _).mono (by decide))

/-- Of the Ring Controller a loss empties the own-frame queues, and nothing else. -/
theorem ringLoss_rc (s : State) : s.ringLoss.rc = s.rc.emptyQueues :=
  ((keeps_viewRingLoss _).2.2.2 .rc (by decide)).trans (((keeps_imageRingLoss _).2.2.2 .rc (by decide)).trans
    ((keeps_sectionRingLoss _).2.2.2 .rc (by decide)))

theorem enterLost_rc (s : State) : s.enterLost.rc =
    { s.rc.emptyQueues with ringState := .lost, reforming := true, deadline := none } := by
  unfold State.enterLost
  rw [setRing_rc, State.onRc_rc, ringLoss_rc]

theorem steady_enterLost (s : State) (h : s.rc.ringState ≠ .conflict) : Steady s s.enterLost := by
  have h1 := ((lawful_ringLoss s).then (lawful_onRc _ (fun r => { r with reforming := true, deadline := none })
    ⟨rfl, rfl, rfl, rfl⟩)).steady
  refine h1.trans (steady_setRing _ (fun _ _ c => absurd ?_ h))
  rw [State.onRc_rc, ringLoss_rc] at c
  exact c

theorem steady_loseRing (s : State) (h : s.rc.ringState ≠ .conflict) : Steady s s.loseRing :=
  ((steady_enterLost s h).trans (lawful_raiseHub _ _).steady).trans (steady_checkReformation _)

end Sys2Proof.Machine

end

section
/-! SUPPORT. Censuses and rosters keep the laws. -/

namespace Sys2Proof.Machine

variable {s : State}

/-! ### Censuses and rosters -/

theorem lawful_countCorrupt (s : State) : Lawful 0 s s.countCorrupt := lawful_onRc s _ ⟨rfl, rfl, rfl, rfl⟩

theorem lawful_enterConflict (s : State) : Lawful 0 s s.enterConflict := by
  have h1 : Steady s ((s.ringLoss.onRc (fun r =>
      { r with
        reforming := r.reforming || decide (s.rc.ringState = .running) || decide (s.rc.ringState = .lost)
        censusTimer := none
        deadline := none
        nextOrigination := none
        ringFrameDue := none
        transit := [] })).setRing .conflict) :=
    ((lawful_ringLoss s).steady.trans (steady_onRc _ _ rfl rfl)).trans (steady_setRing _ (fun _ _ _ => rfl))
  have h2 := h1.away (by rw [setRing_ring]; decide) (by rw [setRing_ring]; decide)
  unfold State.enterConflict
  exact .ite (fun _ => h2.then (lawful_raiseHub _ _)) (fun _ => h2)

/-- A follower enters DOWN, or a hub whose roster timer has expired. -/
theorem steady_enterDown (s : State) (f : RC → RC) (hf : (f s.rc).ringState = s.rc.ringState)
    (h : s.isMaster = true → s.rc.rosterTimer = none → s.rc.ringState ≠ .conflict) : Steady s (s.onRc f).enterDown :=
  ((steady_onRc_setRing s (fun r => { (f r).dropRoster with hubAddress := none, deadline := none }) .down hf
    (fun m r c => absurd c (h m r))).trans (lawful_setCarried_none _ _).steady).trans (steady_emptyHistory _)

theorem emptyHistory_rc (s : State) : s.emptyHistory.rc = s.rc :=
  ((keeps_storeEmptied _).2.2.2 .rc (by decide)).trans ((keeps_registerEmptied _).2.2.2 .rc (by decide))

theorem enterDown_rc (s : State) : s.enterDown.rc =
    { s.rc.dropRoster with ringState := .down, hubAddress := none, deadline := none } := by
  unfold State.enterDown
  rw [emptyHistory_rc]
  exact setRing_rc _ _

theorem lawful_enterDown (s : State) (f : RC → RC) (hf : (f s.rc).ringState = s.rc.ringState)
    (h : s.isMaster = true → s.rc.rosterTimer = none → s.rc.ringState ≠ .conflict) : Lawful 0 s (s.onRc f).enterDown :=
  (steady_enterDown s f hf h).away (by rw [enterDown_rc]; exact RingState.noConfusion)
    (by rw [enterDown_rc]; exact RingState.noConfusion)

theorem steady_enterAddressed (s : State) (a : Nat) (f : CensusFields) (h : s.isMaster = false) :
    Steady s (s.enterAddressed a f) :=
  (steady_onRc_setRing s (fun r =>
    { r.dropRoster with
      hubAddress := some a
      joinedCensus := some (f.number, f.stamp)
      rosterTimer := some (later s.hubTime 2500000)
      deadline := none }) .addressed rfl (fun m => absurd (h.symm.trans m) (by decide))).trans (steady_emptyHistory _)

theorem lawful_joinCensus (s : State) (f : CensusFields) (h : s.isMaster = false) : Lawful 0 s (s.joinCensus f) :=
  .ite (fun _ => (steady_enterAddressed s _ f h).follower h)
    (fun _ => lawful_enterDown s id rfl (fun m => absurd (h.symm.trans m) (by decide)))

theorem lawful_loseRing_follower (s : State) (h : s.isMaster = false) (hr : s.rc.ringState ≠ .conflict) :
    Lawful 0 s s.loseRing := (steady_loseRing s hr).follower h

theorem ringState_running (h : s.running = true) : s.rc.ringState = .running := of_decide_eq_true h

theorem ringState_running_ne (h : s.running = true) : s.rc.ringState ≠ .conflict := by
  rw [ringState_running h]; decide

theorem lawful_takeCensus (s : State) (f : Inbound CensusFields) (h : s.isMaster = false) : Lawful 0 s (s.takeCensus f) := by
  unfold State.takeCensus
  refine .ite (fun _ => .refl s) (fun _ => .ite (fun hr => ?_) (fun _ => lawful_joinCensus s _ h))
  have h1 := lawful_loseRing_follower s h (ringState_running_ne hr)
  exact h1.then (lawful_joinCensus _ _ (h1.sound.master.trans h))

theorem lawful_clearReforming (s : State) : Lawful 0 s (s.onRc (fun r => { r with reforming := false })) :=
  lawful_onRc s _ ⟨rfl, rfl, rfl, rfl⟩

theorem lawful_reform (s : State) : Lawful 0 s s.reform :=
  .ite (fun _ => (lawful_viewReformation s).then (lawful_clearReforming _)) (fun _ => .refl s)

theorem lawful_holdRoster (s : State) (f : RosterFields) : Lawful 0 s (s.holdRoster f) :=
  ((lawful_onRc s _ ⟨rfl, rfl, rfl, rfl⟩).then (lawful_setCarried_none _ _)).then (lawful_reform _)

theorem lawful_takeRoster (s : State) (f : Inbound RosterFields) : Lawful 0 s (s.takeRoster f) :=
  .ite (fun _ => lawful_holdRoster s _) (fun _ => .refl s)

theorem timerDue_ne {x : Option HubTime} {now : HubTime} (h : timerDue x now = true) : x ≠ none := by
  rintro rfl
  exact absurd h (by simp [timerDue])

theorem lawful_rosterExpiry (s : State) : Lawful 0 s s.rosterExpiry :=
  .ite (fun h => lawful_enterDown s (fun r => { r with rosterTimer := none }) rfl (fun _ r => absurd r (timerDue_ne h)))
    (fun _ => .refl s)

end Sys2Proof.Machine

end

section
/-! SUPPORT. Cycle frames, deadlines and the history keep the laws. -/

namespace Sys2Proof.Machine

variable {s : State}

/-! ### The history and the generator -/

theorem appendEntry_length (h : List HistEntry) (e : HistEntry) (hl : h.length ≤ 16) : (appendEntry h e).length ≤ 16 := by
  unfold appendEntry
  split
  · simp only [List.length_append, List.length_cons, List.length_nil]; omega
  · simp only [List.length_append, List.length_drop, List.length_cons, List.length_nil]; omega

theorem bounded_append {k k' : Tracker} {e : HistEntry} (hk : k'.history = appendEntry k.history e) (h : k.bounded = true) :
    k'.bounded = true := by
  simp only [Tracker.bounded, decide_eq_true_eq] at h ⊢
  rw [hk]; exact appendEntry_length _ e h

/-- A speed moved toward another stays within a magnitude that bounds both. -/
theorem moveToward_natAbs {v t : Int} {rate m : Nat} (hv : v.natAbs ≤ m) (ht : t.natAbs ≤ m) :
    (moveToward v t rate).natAbs ≤ m := by
  have bounds {x : Int} : x.natAbs ≤ m ↔ -(m : Int) ≤ x ∧ x ≤ m := by omega
  rw [bounds] at hv ht ⊢
  obtain ⟨lo, hi⟩ := hv
  obtain ⟨tlo, thi⟩ := ht
  have rate : (0 : Int) ≤ rate := Int.natCast_nonneg rate
  unfold moveToward
  split
  · exact ⟨le_min tlo (lo.trans (Int.le_add_of_nonneg_right rate)), (min_le_left _ _).trans thi⟩
  · exact ⟨tlo.trans (le_max_left _ _), max_le thi ((Int.sub_le_self _ rate).trans hi)⟩

theorem nextV_natAbs (g : Generator) {t : Int} {m : Nat} (f l : Bool) (hv : g.v.natAbs ≤ m) (ht : t.natAbs ≤ m) :
    (g.nextV t f l).natAbs ≤ m := by
  unfold Generator.nextV
  split
  · simp
  · split
    · exact hv
    · split
      · exact moveToward_natAbs hv (by simp)
      · split <;> exact moveToward_natAbs hv ht

theorem genStep_lawful (g : Generator) (f l : Bool) (h : g.lawful = true) : (g.step f l).lawful = true := by
  rw [genLawful_iff] at h
  obtain ⟨h1, h2, h3, h4, h5⟩ := h
  have key : ∀ g' : Generator, 0 ≤ g'.vt → g'.vt ≤ g'.vmax → g'.vi.natAbs ≤ g'.vmax → g'.v.natAbs ≤ g'.vmax →
      g'.vmax ≤ 2147479552 →
      Generator.lawful { g' with
        tripDecel := f
        v := ({ g' with tripDecel := f } : Generator).nextV (({ g' with tripDecel := f } : Generator).target f) f l
        angle := g'.angle + BitVec.ofInt 36
          (({ g' with tripDecel := f } : Generator).nextV (({ g' with tripDecel := f } : Generator).target f) f l) } = true := by
    intro g' a1 a2 a3 a4 a5
    rw [genLawful_iff]
    refine ⟨a1, a2, a3, nextV_natAbs _ f l a4 ?_, a5⟩
    unfold Generator.target
    dsimp only
    split
    · simp
    · split <;> omega
  unfold Generator.step
  dsimp only
  split
  · exact key { g with vt := 0, inching := false } (by simp) (by dsimp only; omega) h3 h4 h5
  · exact key g h1 h2 h3 h4 h5

theorem genStep_rates (g : Generator) (f l : Bool) (h : g.ratesInRange = true) : (g.step f l).ratesInRange = true := by
  unfold Generator.step
  dsimp only
  split <;> exact h

/-! ### The step of the hub -/

theorem steady_frameStep (s : State) (n : BitVec 16) (p : HubTime) (late : Bool) (a : FullAngle) (v : Int) (f : ShaftFlags) :
    Steady s (s.frameStep n p late a v f) :=
  (steady_onSu s _ ⟨id, id, bounded_append rfl⟩).trans (lawful_stepBlocks _ _).steady

theorem steady_extrapolatedStep (s : State) (p : HubTime) (late : Bool) : Steady s (s.extrapolatedStep p late) :=
  (steady_onSu s _ ⟨id, id, bounded_append rfl⟩).trans (lawful_stepBlocks _ _).steady

theorem steady_tellStep (s : State) (b : Bool) : Steady s (s.tellStep b) :=
  ((lawful_imStep s).then (lawful_vuStep _ _)).steady.trans (settled_stepTrip _ _ _).steady

/-! ### Cycle frames at a follower -/

theorem lawful_lateStep (s : State) (b : Bool) : Lawful 0 s (s.lateStep b) :=
  .ite (fun _ => (lawful_raiseHub s _).then (lawful_notify _ _)) (fun _ => .refl s)

theorem steady_joinRunning (s : State) : Steady s s.joinRunning := by
  refine .ite (fun h => ?_) (fun _ => .refl s)
  exact steady_onRc_setRing s _ _ rfl (fun _ _ c => by rw [h] at c; cases c)

theorem lawful_restartDeadline (s : State) (a : HubTime) : Lawful 0 s (s.restartDeadline a) :=
  .ite (fun _ => lawful_onRc s _ ⟨rfl, rfl, rfl, rfl⟩) (fun _ => .refl s)

theorem lawful_recordCycle (s : State) (r : LastCycle) : Lawful 0 s (s.onRc (fun c => { c with lastCycle := some r })) :=
  lawful_onRc s _ ⟨rfl, rfl, rfl, rfl⟩

theorem steady_enterFrame (f : CycleFields) (a : HubTime) (s : State) : Steady s (s.enterFrame f a) := by
  unfold State.enterFrame
  have h1 := ((steady_joinRunning s).trans (lawful_restartDeadline _ a).steady).trans (lawful_lateStep _
    (publicationInstant a f.dpub (arrivalAge f.age (s.compAt a))).2).steady
  exact ((h1.trans (steady_frameStep _ _ _ _ _ _ _)).trans (lawful_recordCycle _ _).steady).trans
    (lawful_handTripWord _ _ _).steady

theorem steady_pressReset (s : State) (b : Bool) : Steady s (s.pressReset b) :=
  .ite (fun _ => (settled_resetTrip s).steady) (fun _ => .refl s)

theorem steady_takeNewCycle (s : State) (f : CycleFields) (a : HubTime) : Steady s (s.takeNewCycle f a) :=
  (((steady_enterFrame f a s).trans (lawful_markDirty _ _).steady).trans (steady_pressReset _ _)).trans (steady_tellStep _ _)

theorem lawful_takeOldCycle (s : State) (f : CycleFields) (a : HubTime) : Lawful 0 s (s.takeOldCycle f a) :=
  (lawful_recordCycle s _).then (lawful_handTripWord _ _ _)

theorem lawful_takeCycle (s : State) (f : Inbound CycleFields) : Lawful 0 s (s.takeCycle f) := by
  unfold State.takeCycle
  refine .ite (fun _ => .refl s) (fun h => ?_)
  have hm : s.isMaster = false := by simpa using (not_or.1 h).1
  exact .ite (fun _ => (steady_takeNewCycle s _ _).follower hm) (fun _ => lawful_takeOldCycle s _ _)

theorem steady_missedOnce (s : State) (d : HubTime) (r : LastCycle) : Steady s (s.missedOnce d r) :=
  ((steady_onRc s _ rfl rfl).trans (steady_extrapolatedStep _ _ _)).trans (steady_tellStep _ _)

theorem lawful_deadlineExpiry (s : State) : Lawful 0 s s.deadlineExpiry := by
  unfold State.deadlineExpiry
  rcases s.rc.deadline with _ | d
  · exact .refl s
  rcases s.rc.lastCycle with _ | r
  · exact .refl s
  · refine .ite (fun h => ?_) (fun _ => .refl s)
    obtain ⟨-, hr, hm⟩ := h
    exact .ite (fun _ => (steady_missedOnce s _ _).follower hm)
      (fun _ => lawful_loseRing_follower s hm (ringState_running_ne hr))

/-! ### The master -/

theorem lawful_takeReturnedCycle (s : State) (f : Inbound CycleFields) : Lawful 0 s (s.takeReturnedCycle f) :=
  .ite (fun _ => .refl s) (fun _ => .ite (fun _ => lawful_countCorrupt s)
    (fun _ => .ite (fun _ => lawful_onRc s _ ⟨rfl, rfl, rfl, rfl⟩) (fun _ => .refl s)))

theorem lawful_sendRoster (s : State) (f : CensusFields) : Lawful 0 s (s.sendRoster f) :=
  ((lawful_onRc s _ ⟨rfl, rfl, rfl, rfl⟩).then (lawful_setCarried_none _ _)).then (lawful_reform _)

theorem lawful_ownCensus (s : State) (f : CensusFields) : Lawful 0 s (s.ownCensus f) := by
  have h := lawful_onRc s (fun r => { r with outstandingCensus := none }) ⟨rfl, rfl, rfl, rfl⟩
  exact .ite (fun _ => (h.then (lawful_onRc _ _ ⟨rfl, rfl, rfl, rfl⟩)).then (lawful_notify _ _))
    (fun _ => h.then (lawful_sendRoster _ _))

theorem lawful_takeReturnedCensus (s : State) (f : Inbound CensusFields) : Lawful 0 s (s.takeReturnedCensus f) :=
  .ite (fun _ => .refl s) (fun _ => .ite (fun _ => lawful_countCorrupt s) (fun _ => .ite (fun _ => .refl s)
    (fun _ => .ite (fun _ => lawful_enterConflict s) (fun _ => .ite (fun _ => lawful_ownCensus s _) (fun _ => .refl s)))))

theorem steady_makeCensus (s : State) : Steady s s.makeCensus := by
  unfold State.makeCensus
  exact steady_onRc s _ rfl rfl

/-- The census timer of a master expires: where it runs in LOST the conditions hold. -/
theorem lawful_censusExpiry (s : State) : Lawful 0 s s.censusExpiry := by
  unfold State.censusExpiry
  split
  next t ht =>
    refine .ite (fun h => ?_) (fun _ => .refl s)
    obtain ⟨-, hm, hr⟩ := h
    have st : Steady s (s.makeCensus.onRc (fun r => { r with censusTimer := some (later t 500000) })) :=
      (steady_makeCensus s).trans (steady_onRc _ _ rfl rfl)
    refine ⟨st.sound, st.trip, rfl, fun _ e => e, fun _ _ => ?_, fun _ _ hn => absurd hn (by rw [ht]; simp)⟩
    rw [censusLaw_iff]
    intro _
    change (s.rc.ringState = _ → _) ∧ (s.rc.ringState = _ → _)
    rcases hr with hr | ⟨hr, hh⟩
    · rw [hr]; exact ⟨fun c => RingState.noConfusion c, fun c => RingState.noConfusion c⟩
    · rw [hr]; exact ⟨fun c => RingState.noConfusion c, fun _ => by
        show true = s.reformationHolds
        rw [hh]⟩
  · exact .refl s

theorem steady_sendCycle (s : State) (f : CycleFields) (o : HubTime) : Steady s (s.sendCycle f o) := by
  have hc : ∀ (r : RC) (t : HubTime), (r.cutArriving t).ringState = r.ringState
      ∧ (r.cutArriving t).rosterTimer = r.rosterTimer := by
    intro r t
    unfold RC.cutArriving
    split
    · exact ⟨rfl, rfl⟩
    · dsimp only
      split <;> exact ⟨rfl, rfl⟩
  exact (steady_onRc s _ (hc _ _).1 (hc _ _).2).trans (lawful_onTu _ _ ⟨rfl, rfl, rfl, rfl⟩).steady

theorem takeBack_calm (r : RC) (t : HubTime) : RC.Calm r (r.takeBack t) := by
  unfold RC.takeBack
  split <;> exact ⟨rfl, rfl, rfl, rfl⟩

theorem steady_checkReturn (s : State) : Steady s s.checkReturn := by
  unfold State.checkReturn
  refine .ite (fun h => ?_) (fun _ => .refl s)
  refine .ite (fun _ => steady_onRc s _ rfl rfl) (fun _ => ?_)
  have h1 := steady_onRc s (fun r => { r with failedReturns := r.failedReturns + 1 }) rfl rfl
  exact .ite (fun _ => h1.trans (steady_loseRing _ (ringState_running_ne h.1))) (fun _ => h1)

end Sys2Proof.Machine

end

section
/-! SUPPORT. The census of a LOST master at a look at the re-formation conditions. -/

namespace Sys2Proof.Machine

variable {s : State}

/-! ### The census of a LOST master that originates -/

/-- A census has just been made, the next after number `n`: it is due and outstanding, stamped `now`, and its timer runs. -/
structure RC.Made (r : RC) (n : BitVec 16) (now : HubTime) : Prop where
  number : r.censusNumber = n + 1
  census : r.outstandingCensus = some (n + 1, now)
  roster : r.outstandingRoster = none
  due : r.ringFrameDue = some (.census ⟨n + 1, now, 0, false⟩)
  timer : r.censusTimer = some (later now 500000)

/-- The census timer of a master is stopped, its last census number `n`; or, where it was not LOST at first (`lost`), a census has
been made on the way. -/
structure State.Between (lost : Prop) (n : BitVec 16) (s : State) : Prop where
  master : s.isMaster = true
  ring : (s.rc.ringState = .running ∧ s.rc.censusTimer = none) ∨ (s.rc.ringState = .lost
    ∧ ((s.rc.censusTimer = none ∧ s.rc.censusNumber = n)
      ∨ (¬ lost ∧ s.rc.Made n s.hubTime ∧ s.tu.state ≠ .stopping)
      ∨ (¬ lost ∧ s.rc.censusTimer = none ∧ s.tu.state.away)))

/-- What a command leaves at a LOST master: where the conditions hold a census has been made, else the timer is stopped. -/
structure State.Censused (lost : Prop) (n : BitVec 16) (s : State) : Prop where
  law : s.censusLaw = true
  made : s.rc.ringState = .lost → s.reformationHolds = true → s.rc.Made n s.hubTime
  stopped : s.rc.ringState = .lost → s.reformationHolds = false →
    s.rc.censusTimer = none ∧ (lost → s.rc.censusNumber = n)

variable {lost : Prop} {n : BitVec 16}

theorem State.Between.ringKept {a : State} (h : s.Between lost n) (k : RingKept s a) : a.Between lost n := by
  refine ⟨k.master.trans h.master, ?_⟩
  rcases k.rc with ⟨e, t⟩ | ⟨w, e⟩
  · rw [e, t, k.time]; exact h.ring
  · rcases h.ring with ⟨hr, ht⟩ | ⟨hr, hc⟩
    · have : s.rcStopped = s.rc := by unfold State.rcStopped; rw [if_neg (by rw [hr]; simp)]
      rw [e, this]; exact .inl ⟨hr, ht⟩
    · have : s.rcStopped = { s.rc with censusTimer := none } := by
        unfold State.rcStopped; rw [if_pos ⟨h.master, hr⟩]
      rw [e, this]
      refine .inr ⟨hr, ?_⟩
      rcases hc with ⟨-, hn⟩ | ⟨hl, -, -⟩ | ⟨hl, -, -⟩
      · exact .inl ⟨rfl, hn⟩
      · exact .inr (.inr ⟨hl, rfl, w⟩)
      · exact .inr (.inr ⟨hl, rfl, w⟩)

/-- What the census rests on of the Ring Controller. -/
structure RC.SameCensus (r r' : RC) : Prop where
  ring : r'.ringState = r.ringState
  timer : r'.censusTimer = r.censusTimer
  number : r'.censusNumber = r.censusNumber
  census : r'.outstandingCensus = r.outstandingCensus
  roster : r'.outstandingRoster = r.outstandingRoster
  due : r'.ringFrameDue = r.ringFrameDue

theorem RC.SameCensus.made {r r' : RC} {t : HubTime} (h : r.SameCensus r') (m : r.Made n t) : r'.Made n t :=
  ⟨h.number.trans m.number, h.census.trans m.census, h.roster.trans m.roster, h.due.trans m.due, h.timer.trans m.timer⟩

theorem State.Between.congr {a : State} (h : s.Between lost n) (hm : a.isMaster = s.isMaster)
    (hc : s.rc.SameCensus a.rc) (ht : a.tu.state = s.tu.state) (hh : a.hubTime = s.hubTime) : a.Between lost n := by
  refine ⟨hm.trans h.master, ?_⟩
  rw [hc.ring, hc.timer, hc.number, ht, hh]
  rcases h.ring with h | ⟨hr, h | ⟨hl, hd, hs⟩ | h⟩
  · exact .inl h
  · exact .inr ⟨hr, .inl h⟩
  · exact .inr ⟨hr, .inr (.inl ⟨hl, hc.made hd, hs⟩)⟩
  · exact .inr ⟨hr, .inr (.inr h)⟩

/-- The look at the conditions, where they hold and no census runs. -/
theorem checkReformation_made (hm : s.isMaster = true) (hr : s.rc.ringState = .lost) (hh : s.reformationHolds = true)
    (ht : s.rc.censusTimer = none) : s.checkReformation.rc.Made s.rc.censusNumber s.hubTime := by
  unfold State.checkReformation
  rw [if_pos ⟨hm, hr⟩, if_pos hh, if_pos ht]
  exact ⟨rfl, rfl, rfl, rfl, rfl⟩

theorem checkReformation_runs (hh : s.reformationHolds = true) (ht : s.rc.censusTimer ≠ none) :
    s.checkReformation = s := by
  unfold State.checkReformation
  rw [if_pos hh, if_neg ht, ite_self]

theorem checkReformation_time (s : State) : s.checkReformation.hubTime = s.hubTime := (keeps_checkReformation s).1

/-- The look at the conditions ends the work of an origination. -/
theorem State.Between.checked (h : s.Between lost n) : s.checkReformation.Censused lost n := by
  have hring := (checkReformation_ring s).1
  have law : s.checkReformation.censusLaw = true := checkReformation_censusLaw (fun _ r => by
    rcases h.ring with ⟨-, t⟩ | ⟨l, -⟩
    · exact t
    · rw [r] at l; cases l)
  refine ⟨law, fun hl hh => ?_, fun hl hh => ?_⟩
  · rw [checkReformation_holds] at hh
    rw [checkReformation_time]
    rw [hring] at hl
    rcases h.ring with ⟨hr, -⟩ | ⟨hr, ⟨ht, hn⟩ | ⟨-, hd, -⟩ | ⟨-, -, hw⟩⟩
    · rw [hr] at hl; cases hl
    · rw [← hn]; exact checkReformation_made h.master hr hh ht
    · rw [checkReformation_runs hh (by rw [hd.timer]; simp)]; exact hd
    · rw [reformation_away hw] at hh; cases hh
  · rw [checkReformation_holds] at hh
    rw [hring] at hl
    obtain ⟨ht, hn⟩ := checkReformation_number h.master hl hh
    refine ⟨ht, fun p => hn.trans ?_⟩
    rcases h.ring with ⟨hr, -⟩ | ⟨hr, ⟨ht, hn⟩ | ⟨hp, -, -⟩ | ⟨hp, -, -⟩⟩
    · rw [hr] at hl; cases hl
    · exact hn
    · exact absurd p hp
    · exact absurd p hp

theorem checkReformation_idem (s : State) : s.checkReformation.checkReformation = s.checkReformation := by
  by_cases hm : s.isMaster = true ∧ s.rc.ringState = .lost
  · have hm' : s.checkReformation.isMaster = true ∧ s.checkReformation.rc.ringState = .lost :=
      ⟨(checkReformation_master s).trans hm.1, (checkReformation_ring s).1.trans hm.2⟩
    have ht := checkReformation_timer hm.1 hm.2
    cases hh : s.reformationHolds with
    | true =>
      rw [hh] at ht
      exact checkReformation_runs ((checkReformation_holds s).trans hh) (Option.isSome_iff_ne_none.1 ht)
    | false =>
      have e : ∀ t : State, t.isMaster = true ∧ t.rc.ringState = .lost → t.reformationHolds = false →
          t.checkReformation = t.onRc (fun r => { r with censusTimer := none }) := by
        intro t h1 h2
        unfold State.checkReformation
        rw [if_pos h1, if_neg (by rw [h2]; decide)]
      rw [e _ hm' ((checkReformation_holds s).trans hh), e s hm hh]
      rfl
  · rw [checkReformation_other hm, checkReformation_other hm]

/-- The end of STOPPING and the look at the conditions after it. -/
theorem State.Between.stepTrip (h : s.Between lost n) (a b : Bool) : (s.stepTrip a b).checkReformation.Censused lost n := by
  unfold State.stepTrip
  split
  next hs =>
    unfold State.setTrip
    rw [checkReformation_idem]
    refine State.Between.checked ⟨h.master, ?_⟩
    rcases h.ring with hr | ⟨hr, hc | ⟨-, -, hne⟩ | ⟨-, -, hw⟩⟩
    · exact .inl hr
    · exact .inr ⟨hr, .inl hc⟩
    · exact absurd hs.1 hne
    · exact absurd hs.1 hw.not_holding.2.2
  · exact h.checked

end Sys2Proof.Machine

end

section
/-! SUPPORT. An origination keeps the laws. -/

namespace Sys2Proof.Machine

variable {s : State} {lost : Prop} {n : BitVec 16}

/-! ### An origination -/

theorem reformationHolds_trip (h : s.reformationHolds = true) : s.tu.state ≠ .stopping := by
  intro c
  simp [State.reformationHolds, c] at h

/-- The look at the conditions at the loss of the ring, in the midst of an origination. -/
theorem State.Between.looked (h : s.Between lost n) (hl : ¬ lost) (ht : s.rc.censusTimer = none) :
    s.checkReformation.Between lost n := by
  rcases h.ring with ⟨hr, -⟩ | ⟨hr, hc⟩
  · rw [checkReformation_other (by rw [hr]; simp)]; exact h
  · refine ⟨(checkReformation_master s).trans h.master, .inr ⟨(checkReformation_ring s).1.trans hr, ?_⟩⟩
    rw [checkReformation_time, checkReformation_tu]
    have hd : ¬ s.rc.Made n s.hubTime := fun c => by rw [c.timer] at ht; cases ht
    cases hh : s.reformationHolds with
    | true =>
      rcases hc with ⟨-, hn⟩ | ⟨-, c, -⟩ | ⟨-, -, hw⟩
      · exact .inr (.inl ⟨hl, hn ▸ checkReformation_made h.master hr hh ht, reformationHolds_trip hh⟩)
      · exact absurd c hd
      · rw [reformation_away hw] at hh; cases hh
    | false =>
      obtain ⟨ht', hn⟩ := checkReformation_number h.master hr hh
      rcases hc with ⟨-, hn'⟩ | ⟨-, c, -⟩ | ⟨-, -, hw⟩
      · exact .inl ⟨ht', hn.trans hn'⟩
      · exact absurd c hd
      · exact .inr (.inr ⟨hl, ht', hw⟩)

theorem sound_enterLost (s : State) : Sound 0 s s.enterLost :=
  ((lawful_ringLoss s).sound.then (sound_onRc _ _ rfl)).then (sound_setRing _ _)

theorem RingKept.timer {a : State} (k : RingKept s a) (h : s.rc.censusTimer = none) : a.rc.censusTimer = none := by
  rcases k.rc with ⟨e, -⟩ | ⟨-, e⟩
  · rw [e, h]
  · rw [e]; unfold State.rcStopped; split
    · rfl
    · exact h

theorem loseRing_between (hm : s.isMaster = true) (ht : s.rc.censusTimer = none) (hn : s.rc.censusNumber = n)
    (hl : ¬ lost) : s.loseRing.Between lost n := by
  have h0 : s.enterLost.Between lost n := by
    refine ⟨(sound_enterLost s).master.trans hm, ?_⟩
    rw [enterLost_rc]
    exact .inr ⟨rfl, .inl ⟨ht, hn⟩⟩
  have k := ringKept_raise s.enterLost ⟨.ringLost, none⟩
  exact (h0.ringKept k).looked hl (k.timer (by rw [enterLost_rc]; exact ht))

theorem checkReturn_between (hm : s.isMaster = true) (ht : s.rc.censusTimer = none)
    (hr : s.rc.ringState = .running ∨ (s.rc.ringState = .lost ∧ s.rc.censusNumber = n))
    (hl : s.rc.ringState = .running → ¬ lost ∧ s.rc.censusNumber = n) : s.checkReturn.Between lost n := by
  have base : ∀ f : RC → RC, s.rc.SameCensus (f s.rc) → (s.onRc f).Between lost n := fun f c =>
    State.Between.congr (s := s) ⟨hm, by
      rcases hr with hr | ⟨hr, hn⟩
      · exact .inl ⟨hr, ht⟩
      · exact .inr ⟨hr, .inl ⟨ht, hn⟩⟩⟩ rfl c rfl rfl
  have self : s.Between lost n := base id ⟨rfl, rfl, rfl, rfl, rfl, rfl⟩
  unfold State.checkReturn
  split
  next h =>
    obtain ⟨hp, hn⟩ := hl (ringState_running h.1)
    split
    · exact base _ ⟨rfl, rfl, rfl, rfl, rfl, rfl⟩
    · dsimp only
      split
      · exact loseRing_between hm ht hn hp
      · exact base _ ⟨rfl, rfl, rfl, rfl, rfl, rfl⟩
  · exact self

theorem cutArriving_same (r : RC) (t : HubTime) : r.SameCensus (r.cutArriving t) := by
  unfold RC.cutArriving
  split
  · exact ⟨rfl, rfl, rfl, rfl, rfl, rfl⟩
  · dsimp only
    split <;> exact ⟨rfl, rfl, rfl, rfl, rfl, rfl⟩

theorem takeBack_same (r : RC) (t : HubTime) : r.SameCensus (r.takeBack t) := by
  unfold RC.takeBack
  split <;> exact ⟨rfl, rfl, rfl, rfl, rfl, rfl⟩

theorem State.Between.sendCycle (h : s.Between lost n) (f : CycleFields) (o : HubTime) : (s.sendCycle f o).Between lost n := by
  have c := cutArriving_same s.rc (later o 54)
  exact h.congr rfl ⟨c.ring, c.timer, c.number, c.census, c.roster, c.due⟩ rfl rfl

theorem State.Between.onSu (h : s.Between lost n) (f : SU → SU) : (s.onSu f).Between lost n :=
  h.congr rfl ⟨rfl, rfl, rfl, rfl, rfl, rfl⟩ rfl rfl

theorem State.Between.frameStep (h : s.Between lost n) (k : BitVec 16) (p : HubTime) (late : Bool) (a : FullAngle) (v : Int)
    (f : ShaftFlags) : (s.frameStep k p late a v f).Between lost n :=
  (h.onSu _).ringKept (ringKept_stepBlocks _ _)

theorem State.Between.tellStep (h : s.Between lost n) (b : Bool) : (s.tellStep b).checkReformation.Censused lost n := by
  have h1 : ((s.onIm IM.step).onVu (fun u => u.step s.running)).Between lost n :=
    h.congr rfl ⟨rfl, rfl, rfl, rfl, rfl, rfl⟩ rfl rfl
  exact h1.stepTrip _ _

/-- What an origination leaves of the census, from a master in RUNNING or LOST with its census timer stopped. -/
theorem originate_censused (t : HubTime) (hm : s.isMaster = true) (ht : s.rc.censusTimer = none)
    (hr : s.rc.ringState = .running ∨ s.rc.ringState = .lost) :
    (s.originate t).Censused (s.rc.ringState = .lost) s.rc.censusNumber := by
  have c := takeBack_same s.rc s.hubTime
  have h1 : (s.onRc (fun r => { r.takeBack s.hubTime with nextOrigination := some (later t s.periodTicks) })).checkReturn.Between
      (s.rc.ringState = .lost) s.rc.censusNumber := by
    refine checkReturn_between hm (c.timer.trans ht) ?_ (fun e => ⟨?_, c.number⟩)
    · rcases hr with hr | hr
      · exact .inl (c.ring.trans hr)
      · exact .inr ⟨c.ring.trans hr, c.number⟩
    · have : s.rc.ringState = .running := c.ring.symm.trans e
      rw [this]; decide
  exact (((((h1.onSu _).sendCycle _ _).frameStep _ _ _ _ _ _).ringKept (ringKept_handTripWord _ _ _)).tellStep _)

theorem steady_originate (s : State) (t : HubTime) : Steady s (s.originate t) := by
  have c := takeBack_calm s.rc s.hubTime
  have h1 : Steady s (s.onRc (fun r => { r.takeBack s.hubTime with nextOrigination := some (later t s.periodTicks) })) :=
    steady_onRc s _ c.ring c.roster
  have h2 := h1.trans (steady_checkReturn _)
  have gen : ∀ (a : State) (f l : Bool), Steady a (a.onSu (fun u => { u with gen := u.gen.step f l })) := fun a f l =>
    steady_onSu a _ ⟨genStep_lawful _ f l, genStep_rates _ f l, id⟩
  exact ((((h2.trans (gen _ _ _)).trans (steady_sendCycle _ _ _)).trans (steady_frameStep _ _ _ _ _ _ _)).trans
    (lawful_handTripWord _ _ _).steady).trans ((steady_tellStep _ _).trans (steady_checkReformation _))

theorem steady_cycleOrigination (s : State) : Steady s s.cycleOrigination := by
  unfold State.cycleOrigination
  split
  · exact .ite (fun _ => steady_originate s _) (fun _ => .refl s)
  · exact .refl s

theorem steady_masterRunning (s : State) (h : s.rc.ringState ≠ .conflict) : Steady s s.masterRunning := by
  have h1 : Steady s ((s.onRc (fun r =>
      { r with censusTimer := none, outstandingRoster := none, failedReturns := 0 })).setRing .running) :=
    steady_onRc_setRing s _ .running rfl (fun _ _ c => absurd c h)
  exact .ite (fun _ => h1.trans (steady_originate _ _)) (fun _ => h1)

theorem steady_takeReturnedRoster (s : State) (f : Inbound RosterFields) : Steady s (s.takeReturnedRoster f) :=
  .ite (fun _ => .refl s) (fun _ => .ite (fun _ => (lawful_countCorrupt s).steady) (fun _ => .ite (fun _ => .refl s)
    (fun hc => .ite (fun _ => (lawful_enterConflict s).steady) (fun _ => steady_masterRunning s hc))))

end Sys2Proof.Machine

end

section
/-! SUPPORT. The law of the census timer at an origination, and the fibre. -/

namespace Sys2Proof.Machine

variable {s : State}

/-! ### The law of the census timer at an origination -/

/-- In RUNNING the census timer is stopped. -/
def State.timerOk (s : State) : Prop := s.rc.ringState = .running → s.rc.censusTimer = none

theorem State.timerOk.ringKept {a : State} (h : s.timerOk) (k : RingKept s a) : a.timerOk := by
  intro hr
  rcases k.rc with ⟨e, -⟩ | ⟨-, e⟩
  · rw [e] at hr ⊢; exact h hr
  · rw [e] at hr ⊢
    unfold State.rcStopped at hr ⊢
    split
    · rfl
    next hc => rw [if_neg hc] at hr; exact h hr

theorem State.timerOk.congr {a : State} (h : s.timerOk) (c : s.rc.SameCensus a.rc) : a.timerOk :=
  fun hr => c.timer.trans (h (c.ring.symm.trans hr))

theorem State.timerOk.looked (h : s.timerOk) : s.checkReformation.timerOk := by
  intro hr
  have hr' : s.rc.ringState = .running := (checkReformation_ring s).1.symm.trans hr
  rw [checkReformation_other (by rw [hr']; simp)]
  exact h hr'

theorem State.timerOk.law (h : s.timerOk) : s.checkReformation.censusLaw = true := checkReformation_censusLaw (fun _ => h)

theorem State.timerOk.stepTrip (h : s.timerOk) (a b : Bool) : (s.stepTrip a b).timerOk := by
  unfold State.stepTrip
  split
  · exact State.timerOk.looked h
  · exact h

theorem loseRing_timerOk (s : State) : s.loseRing.timerOk := by
  have h0 : s.enterLost.timerOk := fun hr => by rw [enterLost_rc] at hr; cases hr
  exact (h0.ringKept (ringKept_raise _ _)).looked

theorem State.timerOk.checkReturn (h : s.timerOk) : s.checkReturn.timerOk := by
  unfold State.checkReturn
  split
  · split
    · exact h
    · dsimp only
      split
      · exact loseRing_timerOk _
      · exact h
  · exact h

theorem State.timerOk.originate (h : s.timerOk) (t : HubTime) : (s.originate t).censusLaw = true := by
  have c := takeBack_same s.rc s.hubTime
  have h1 : (s.onRc (fun r => { r.takeBack s.hubTime with nextOrigination := some (later t s.periodTicks) })).timerOk :=
    h.congr ⟨c.ring, c.timer, c.number, c.census, c.roster, c.due⟩
  have send : ∀ (a : State) (f : CycleFields) (o : HubTime), a.timerOk → (a.sendCycle f o).timerOk := by
    intro a f o ha
    have c := cutArriving_same a.rc (later o 54)
    exact ha.congr ⟨c.ring, c.timer, c.number, c.census, c.roster, c.due⟩
  have su : ∀ (a : State) (f : SU → SU), a.timerOk → (a.onSu f).timerOk := fun a f ha => ha
  have tell : ∀ (a : State) (b : Bool), a.timerOk → (a.tellStep b).timerOk := fun a b ha =>
    State.timerOk.stepTrip (s := (a.onIm IM.step).onVu (fun u => u.step a.running)) ha _ _
  exact ((tell _ _ (((su _ _ (send _ _ _ (su _ _ h1.checkReturn))).ringKept (ringKept_stepBlocks _ _)).ringKept
    (ringKept_handTripWord _ _ _))).law)

theorem State.timerOk.of_law (l : s.censusLaw = true) (hm : s.isMaster = true) : s.timerOk :=
  ((censusLaw_iff s).1 l hm).1

theorem cycleOrigination_law (l : s.censusLaw = true) : s.cycleOrigination.censusLaw = true := by
  cases hm : s.isMaster with
  | false => rw [censusLaw_iff, (steady_cycleOrigination s).sound.master, hm]; simp
  | true =>
    unfold State.cycleOrigination
    split
    · split
      · exact (State.timerOk.of_law l hm).originate _
      · exact l
    · exact l

theorem masterRunning_law (s : State) : s.masterRunning.censusLaw = true := by
  have h1 : ((s.onRc (fun r =>
      { r with censusTimer := none, outstandingRoster := none, failedReturns := 0 })).setRing .running).timerOk := by
    intro _
    rw [setRing_rc]
    rfl
  unfold State.masterRunning
  dsimp only
  split
  · exact h1.originate _
  · rw [censusLaw_iff]
    exact fun _ => ⟨h1, fun e => by rw [setRing_ring] at e; cases e⟩

/-! ### The fibre -/

theorem lawful_holdFrame (s : State) (f : Frame) (a : HubTime) : Lawful 0 s (s.holdFrame f a) := by
  unfold State.holdFrame
  split
  · exact .refl s
  · exact lawful_onRc s _ ⟨rfl, rfl, rfl, rfl⟩
  · exact lawful_onRc s _ ⟨rfl, rfl, rfl, rfl⟩

theorem lawful_passFrame (s : State) (f : Frame) (n : Nat) : Lawful 0 s (s.passFrame f n) :=
  .ite (fun _ => lawful_onRc s _ ⟨rfl, rfl, rfl, rfl⟩) (fun _ => lawful_holdFrame s _ _)

theorem lawful_noteArrival (s : State) : Lawful 0 s s.noteArrival := lawful_onRc s _ ⟨rfl, rfl, rfl, rfl⟩

theorem lawful_passWhole (s : State) (f : Frame) : Lawful 0 s (s.passWhole f) := by
  unfold State.passWhole
  split
  · exact .refl s
  · exact lawful_passFrame s _ _

theorem lawful_frameForward (s : State) (f : Frame) : Lawful 0 s (s.frameForward f) := by
  have h := lawful_noteArrival s
  unfold State.frameForward
  dsimp only
  split
  · exact h.then (lawful_passFrame _ _ _)
  · split
    · exact h.then (lawful_countCorrupt _)
    all_goals exact h
  all_goals exact h

theorem lawful_heldRelease (s : State) : Lawful 0 s s.heldRelease := by
  unfold State.heldRelease
  split
  · exact .refl s
  · exact .ite (fun _ => lawful_onRc s _ ⟨rfl, rfl, rfl, rfl⟩) (fun _ => .refl s)

theorem lawful_censusArrives (s : State) (f : Inbound CensusFields) : Lawful 0 s (s.censusArrives f) :=
  .ite (fun _ => .refl s) (fun h => (lawful_takeCensus s f (by simpa using h)).then (lawful_passWhole _ _))

theorem lawful_rosterArrives (s : State) (f : Inbound RosterFields) : Lawful 0 s (s.rosterArrives f) :=
  .ite (fun _ => .refl s) (fun _ => (lawful_takeRoster s f).then (lawful_passWhole _ _))

theorem lawful_handPayload (s : State) (src : Nat) (p : DataPayload) : Lawful 0 s (s.handPayload src p) := by
  cases p with
  | edit _ _ _ => exact lawful_takeEdit s _ _ _ _
  | editReply _ _ _ _ => exact lawful_takeEditReply s _ _ _ _ _
  | imageBegin _ => exact lawful_takeBegin s _ _
  | imageReply _ _ _ _ => exact lawful_takeReply s _ _ _ _
  | imageSegment _ _ _ _ _ => exact lawful_takeSegment s _ _ _ _ _ _
  | imageAbort d _ _ _ =>
    cases d with
    | false => exact lawful_takeAbortToSender s _ _ _
    | true => exact lawful_takeAbortToReceiver s _ _
  | subscribe _ _ _ _ _ => exact lawful_takeSubscribe s _ _ _ _ _ _
  | subscribeReply _ _ _ => exact lawful_takeSubReply s _ _ _ _
  | unsubscribe _ _ => exact lawful_takeUnsubscribe s _ _ _
  | viewUpdate _ _ _ => exact lawful_takeViewUpdate s _ _ _ _

theorem lawful_whenRunning {f : State → State} (h : ∀ a, Lawful 0 a (f a)) (s : State) : Lawful 0 s (s.whenRunning f) :=
  .ite (fun _ => h s) (fun _ => .refl s)

theorem lawful_deliverFrom {f : State → State} (h : ∀ a, Lawful 0 a (f a)) (s : State) (src n : Nat) :
    Lawful 0 s (s.deliverFrom src n f) :=
  .ite (fun _ => .refl s) (fun _ => .ite (fun _ => lawful_whenRunning h s) (fun _ => lawful_countCorrupt s))

theorem lawful_deliverData (s : State) (f : Inbound DataFields) : Lawful 0 s (s.deliverData f) := by
  unfold State.deliverData
  refine .ite (fun _ => lawful_countCorrupt s) (fun _ => ?_)
  split
  · exact lawful_whenRunning (fun a => lawful_handPayload a _ _) s
  · exact lawful_countCorrupt s

theorem lawful_discardOwn (s : State) (f : Inbound DataFields) : Lawful 0 s (s.discardOwn f) := by
  have h : Lawful 0 s s.countUndeliverable := lawful_onRc s _ ⟨rfl, rfl, rfl, rfl⟩
  unfold State.discardOwn
  dsimp only
  cases f.crcGood
  · exact .ite (fun _ => lawful_countCorrupt s) (fun _ => .refl s)
  · exact .ite (fun _ => h.then (lawful_countCorrupt _)) (fun _ => h)

theorem lawful_removeData (s : State) (f : Inbound DataFields) : Lawful 0 s (s.removeData f) := by
  unfold State.removeData
  split
  · exact .refl s
  · exact .refl s
  · exact lawful_countCorrupt s
  · exact lawful_discardOwn s f
  · exact lawful_deliverData s f

theorem lawful_startFrame (s : State) (f : Frame) : Lawful 0 s (s.startFrame f) := lawful_onRc s _ ⟨rfl, rfl, rfl, rfl⟩

theorem lawful_freePlace (s : State) (c : Candidate) : Lawful 0 s (s.freePlace c) := by
  cases c with
  | ring f => exact lawful_onRc s (fun r => r.stampCensus f s.hubTime) (by cases f <;> exact ⟨rfl, rfl, rfl, rfl⟩)
  | control f => exact (lawful_onRc s _ ⟨rfl, rfl, rfl, rfl⟩).then (lawful_giveControlPlace _)
  | view f => exact (lawful_onRc s _ ⟨rfl, rfl, rfl, rfl⟩).then (lawful_giveViewPlace _)
  | image f => exact (lawful_freeImagePlace s).then (lawful_imageGone _ _)

theorem lawful_ownFrameStart (s : State) : Lawful 0 s s.ownFrameStart := by
  unfold State.ownFrameStart
  split
  · exact .refl s
  · exact .ite (fun _ => (lawful_startFrame s _).then (lawful_freePlace _ _)) (fun _ => .refl s)

theorem replied_reqSetCableComp (v : Option Nat) (s : State) : Replied s (reqSetCableComp v s) := by
  cases v with
  | none => exact .same s _
  | some v => exact (lawful_onRc s _ ⟨rfl, rfl, rfl, rfl⟩).replied _

theorem replied_reqSetPublicationOffset (v : Option Nat) (s : State) : Replied s (reqSetPublicationOffset v s) := by
  refine .refusing fun _ => ?_
  cases v with
  | none => exact .same s _
  | some v => exact (lawful_onRc s _ ⟨rfl, rfl, rfl, rfl⟩).replied _

end Sys2Proof.Machine

end

section
/-! SUPPORT. Requests that may wait. -/

namespace Sys2Proof.Machine

variable {s : State} {p : PortNo} {g : Tag}

/-! ### Requests -/

/-- The work of a request's block and the answer, where it gives one. -/
theorem lawful_answered {r : State × Reply} (h : Lawful 0 s r.1) (hr : r.2.isSome = true) :
    Lawful (-owe p g) s (State.answer r p g) := by
  obtain ⟨a, b⟩ := r
  obtain ⟨x, rfl⟩ := Option.isSome_iff_exists.1 hr
  have := h.trans (lawful_respond a p g x.1 x.2)
  rwa [zero_add] at this

theorem lawful_takeWaiting (s : State) (w : Waiting) :
    Lawful (-owe w.port w.tag) s (State.answer (s.takeWaiting w) w.port w.tag) := by
  unfold State.takeWaiting
  split
  · exact lawful_answered (.refl s) rfl
  · split
    · exact lawful_answered (.refl s) rfl
    · exact lawful_joinWaiting s w

theorem lawful_reqFence (s : State) : Lawful (-owe p g) s (State.answer (reqFence p g s) p g) := by
  unfold reqFence
  dsimp only
  split
  · exact lawful_answered (.refl s) rfl
  · exact lawful_joinFences s ⟨p, g, _⟩

theorem lawful_reqCouple (slot : Option Nat) (s : State) :
    Lawful (-owe p g) s (State.answer (reqCouple p g slot s) p g) := by
  unfold reqCouple
  split
  · exact lawful_takeWaiting s ⟨p, g, _, _⟩
  · exact lawful_answered (.refl s) rfl

theorem lawful_reqDecouple (slot : Option Nat) (s : State) :
    Lawful (-owe p g) s (State.answer (reqDecouple p g slot s) p g) := by
  unfold reqDecouple
  split
  · exact lawful_takeWaiting s ⟨p, g, _, _⟩
  · exact lawful_answered (.refl s) rfl

theorem lawful_reqSetPosition (slot position : Option Nat) (s : State) :
    Lawful (-owe p g) s (State.answer (reqSetPosition p g slot position s) p g) := by
  unfold reqSetPosition
  rcases argFin 16 slot with _ | i
  · exact lawful_answered (.refl s) rfl
  rcases argFin 16777216 position with _ | a
  · exact lawful_answered (.refl s) rfl
  · exact lawful_takeWaiting s ⟨p, g, _, _⟩

theorem lawful_reqRemoteNudge (hub : Nat) (slot : Option Nat) (amount : Option Int) (s : State) :
    Lawful (-owe p g) s (State.answer (reqRemoteNudge p g hub slot amount s) p g) := by
  unfold reqRemoteNudge
  split
  · next x b i a _ =>
    split
    · exact lawful_answered (.refl s) rfl
    · split
      · exact lawful_answered (.refl s) rfl
      · split
        · exact lawful_answered (.refl s) rfl
        · have h := (lawful_joinNudges s { port := p, tag := g, dst := hub, ref := s.vu.refCount + 1, steps := 0 }
            (s.vu.refCount + 1)).trans (lawful_makeControl _ ⟨hub, .edit (s.vu.refCount + 1) i.val a⟩)
          rw [add_zero] at h
          exact h
  · exact lawful_answered (.refl s) rfl

theorem lawful_reqTrimNudge (hub slot : Option Nat) (amount : Option Int) (s : State) :
    Lawful (-owe p g) s (State.answer (reqTrimNudge p g hub slot amount s) p g) := by
  unfold reqTrimNudge
  split
  · exact lawful_answered (.refl s) rfl
  · split
    · exact lawful_answered (lawful_postNudge s _ _ _) rfl
    · exact lawful_reqRemoteNudge _ _ _ s

end Sys2Proof.Machine

end

section
/-! SUPPORT. The block of every request keeps the laws. -/

namespace Sys2Proof.Machine

variable {s : State} {p : PortNo} {g : Tag} {c : Instr} {block : State → State × Reply}

/-! ### The blocks of the requests -/

/-- A block that answers at once and changes nothing. -/
def Reading (block : State → State × Reply) : Prop := ∀ s, ∃ st bytes, block s = (s, some (st, bytes))

theorem Reading.replied (h : Reading block) (s : State) : Replied s (block s) := by
  obtain ⟨st, b, e⟩ := h s
  rw [e]
  exact .same s _

theorem reading_sectionRead (a : Option Nat) : Reading (reqSectionRead a) := fun s => by
  unfold reqSectionRead
  cases argFin 16 a <;> exact ⟨_, _, rfl⟩

theorem reading_registerRead (a b : Option Nat) : Reading (reqRegisterRead a b) := fun s => by
  unfold reqRegisterRead
  rcases a with _ | a
  · rcases b with _ | b
    · exact ⟨_, _, rfl⟩
    · cases e : toFin 8 b <;> simp only [e] <;> exact ⟨_, _, rfl⟩
  · rcases b with _ | b
    · cases e : toFin 16 a <;> simp only [e] <;> exact ⟨_, _, rfl⟩
    · exact ⟨_, _, rfl⟩

theorem reading_stripList (a : Option Nat) : Reading (reqStripList a) := fun s => by
  unfold reqStripList
  cases argFin 256 a <;> exact ⟨_, _, rfl⟩

theorem reading_recordRead (sel : Option RecordSel) : Reading (reqRecordRead sel) := fun s => by
  unfold reqRecordRead
  rcases sel with _ | sel
  · exact ⟨_, _, rfl⟩
  cases e : s.selectRecord sel with
  | none => simp only [e]; exact ⟨_, _, rfl⟩
  | some r => cases c : r.capturing <;> simp only [e, c] <;> exact ⟨_, _, rfl⟩

theorem reading_stripRead (a b c : Option Nat) : Reading (reqStripRead a b c) := fun s => by
  unfold reqStripRead
  rcases a with _ | a
  · exact ⟨_, _, rfl⟩
  rcases b with _ | b
  · exact ⟨_, _, rfl⟩
  rcases c with _ | c
  · exact ⟨_, _, rfl⟩
  dsimp only
  cases s.strip a with
  | none => exact ⟨_, _, rfl⟩
  | some x =>
    dsimp only
    split
    · exact ⟨_, _, rfl⟩
    · split <;> exact ⟨_, _, rfl⟩

/-- What the block of a request does with it: it answers at once, or as the one request may leave it waiting, or ends a trip, or
sets what the Client Ports notify. -/
inductive Handling (c : Instr) (block : State → State × Reply) : Prop
  | replies (h : ∀ s, Replied s (block s))
  | waits (h : ∀ p g, c.waitsAs p g → ∀ s, Lawful (-owe p g) s (State.answer (block s) p g))
  | resets (h : block = reqTripReset)
  | routes (pairs : List (Nat × Nat)) (h : block = reqNoticeRoute pairs)
  | enables (kinds : Option Nat) (h : ∀ p g, c.waitsAs p g → block = reqNoticeEnable p kinds)

/-- A request row is judged and handed to its block under its own port and tag. -/
def RowOf (c : Instr) (block : State → State × Reply) : Prop :=
  ∃ t p g roles, c.waitsAs p g ∧ ∀ s, exec c s = finishRequest s t p g roles block

/-- A request taken under a tag is answered, and owed no more. -/
theorem Replied.lawful {r : State × Reply} (h : Replied s r) : Lawful (-owe p g) s (State.answer r p g) :=
  lawful_answered h.work h.answered

end Sys2Proof.Machine

end

section
/-! SUPPORT. What every command keeps, put together. -/

namespace Sys2Proof.Machine

variable {s : State} {p : PortNo} {g : Tag} {c : Instr}

/-! ### What every command keeps, put together -/

/-- The census timer after a command: its law, and the census of a LOST master whose timer was stopped. -/
structure Recounted (s a : State) : Prop where
  law : s.censusLaw = true → a.censusLaw = true
  census : s.censusLaw = true → s.isMaster = true → (s.rc.ringState = .lost ∨ s.rc.ringState = .running) →
    s.rc.censusTimer = none → a.Censused (s.rc.ringState = .lost) s.rc.censusNumber

/-- What the work of a command keeps, where it answers requests or takes them as the debt says. -/
structure Work (d : Debt) (s a : State) : Prop where
  straps : a.straps = s.straps
  queue : a.pending = s.pending
  roles : ∀ p, (a.port p).role = (s.port p).role
  shaft : ShaftKept s.su a.su
  sections : SectionsKept s.se a.se
  store : StoreKept s a
  trip : TripKept s a
  debt : a.debt = s.debt + d
  get : ∀ p, (s.port p).getGood → (a.port p).getGood
  ring : a.rc.ringState = s.rc.ringState
    ∨ ∀ p : PortNo, s.cp.routes.ring.getLsbD p = true → (a.port p).pending.getLsbD 7 = true
  atn : ∀ p, (s.port p).atn = true → (a.port p).atn = true
  census : Recounted s a

theorem atn_iff (q : Port) : q.atn = true ↔ q.responses ≠ [] ∨ ∃ i < 11, q.pending.getLsbD i = true ∧ q.enabled.getLsbD i = true := by
  have bits : q.pending &&& q.enabled ≠ 0 ↔ ∃ i < 11, q.pending.getLsbD i = true ∧ q.enabled.getLsbD i = true := by
    constructor
    · intro h
      by_contra hn
      push Not at hn
      refine h (BitVec.eq_of_getLsbD_eq fun i hi => ?_)
      rw [BitVec.getLsbD_and]
      show _ = (0#11).getLsbD i
      rw [BitVec.getLsbD_zero]
      cases hp : q.pending.getLsbD i with
      | false => rfl
      | true => rw [Bool.eq_false_iff.2 (hn i hi hp)]; rfl
    · rintro ⟨i, -, hp, he⟩ h
      have := congrArg (fun x => x.getLsbD i) h
      simp [hp, he] at this
  unfold Port.atn
  rw [Bool.or_eq_true, decide_eq_true_iff, bits]
  simp

/-- ATN stays asserted where the responses and the notices pending stay and no kind is disabled. -/
theorem PortKept.atn {q q' : Port} (h : PortKept q q') (ha : q.atn = true) : q'.atn = true := by
  rw [atn_iff] at ha ⊢
  rcases ha with hr | ⟨i, hi, hp, he⟩
  · left
    intro e
    have := h.responses
    rw [e, List.prefix_nil] at this
    exact hr this
  · exact .inr ⟨i, hi, h.pending i hp, h.enabled ▸ he⟩

theorem Sound.work {d : Debt} {a : State} (h : Sound d s a) (ht : TripKept s a) (hc : Recounted s a) : Work d s a where
  straps := h.straps
  queue := h.queue
  roles p := (h.ports p).role
  shaft := h.shaft
  sections := h.sections
  store := h.store
  trip := ht
  debt := h.debt
  get p := (h.ports p).get
  ring := h.ring
  atn p := (h.ports p).atn
  census := hc

/-- Where the timer stays stopped as `CensusKept` says, no census is made and the conditions do not hold. -/
theorem CensusKept.recounted {a : State} (h : CensusKept s a) : Recounted s a := by
  have law : s.censusLaw = true → a.censusLaw = true := by
    intro l
    cases hm : s.isMaster with
    | false => rw [censusLaw_iff, h.master, hm]; simp
    | true => exact h.law hm l
  refine ⟨law, fun l m r t => ⟨law l, fun hl hh => ?_, fun hl _ => ?_⟩⟩
  · have k := h.number m l t hl
    have := ((censusLaw_iff a).1 (law l) (h.master.trans m)).2 hl
    rw [k.1, hh] at this
    cases this
  · exact ⟨(h.number m l t hl).1, fun _ => (h.number m l t hl).2⟩

theorem Lawful.work {d : Debt} {a : State} (h : Lawful d s a) : Work d s a := h.sound.work h.trip h.census.recounted

/-! ### Before the work and after it -/

/-- The hub before the work of a command: hub time has come, and a request may have been taken. -/
structure Entered (d : Debt) (s b : State) : Prop where
  straps : b.straps = s.straps
  queue : b.pending = s.pending
  routes : b.cp.routes = s.cp.routes
  roles : ∀ p, (b.port p).role = (s.port p).role
  atn : ∀ p, (b.port p).atn = (s.port p).atn
  get : ∀ p, (s.port p).getGood → (b.port p).getGood
  shaft : b.su = s.su
  sections : b.se = s.se
  store : StoreKept s b
  trip : TripKept s b
  debt : b.debt = s.debt + d
  census : s.rc.SameCensus b.rc
  tu : b.tu = s.tu

theorem entered_advance (s : State) (t : HubTime) : Entered 0 s (s.advance t) where
  straps := rfl
  queue := rfl
  routes := rfl
  roles _ := rfl
  atn _ := rfl
  get _ := id
  shaft := rfl
  sections := rfl
  store := ⟨id, fun _ => id⟩
  trip := ⟨id, id, id, fun m r c => ⟨m, r, c⟩⟩
  debt := by rw [add_zero]; rfl
  census := ⟨rfl, rfl, rfl, rfl, rfl, rfl⟩
  tu := rfl

/-- A tag set that was clear is outstanding, and no other is. -/
theorem getLsbD_taken {q : Port} (hg : q.outstanding.getLsbD g = false) (h : Tag) :
    (q.taken g).outstanding.getLsbD h = (q.outstanding.getLsbD h || decide (h = g)) := by
  have set : ∀ (b : BitVec 4) (g h : Tag), b.getLsbD g = false →
      (b ||| (1#4 <<< g.val)).getLsbD h = (b.getLsbD h || decide (h = g)) := by decide
  exact set _ g h hg

theorem debt_taken (hg : (s.port p).outstanding.getLsbD g = false) :
    (s.onPort p (fun q => q.taken g)).debt = s.debt + owe p g := by
  funext q h
  have owes : (s.onPort p (fun q => q.taken g)).owes q h = s.owes q h := by
    unfold State.owes
    rw [port_onPort]
    split
    next e => subst e; rfl
    next => rfl
  show _ = s.debt q h + owe p g q h
  unfold State.debt owe
  rw [owes, port_onPort]
  by_cases e : q = p
  · subst e
    rw [if_pos rfl, getLsbD_taken hg]
    by_cases e' : h = g
    · subst e'; rw [hg]; simp; ring
    · simp [e']
  · rw [if_neg (Ne.symm e)]
    simp [e]

theorem entered_handed {t : HubTime} (hg : (s.port p).outstanding.getLsbD g = false) :
    Entered (owe p g) s (s.handed t p g) := by
  have port : ∀ q, (s.handed t p g).port q = if p = q then (s.port p).taken g else s.port q :=
    fun q => port_onPort (s.advance t) p q _
  have same : ∀ (P : Port → Port → Prop), (∀ q, P q q) → P (s.port p) ((s.port p).taken g) →
      ∀ q, P (s.port q) ((s.handed t p g).port q) := by
    intro P hr hp q
    rw [port]
    split
    next e => rw [← e]; exact hp
    next => exact hr _
  exact ⟨rfl, rfl, rfl, same (fun x y => y.role = x.role) (fun _ => rfl) rfl, same (fun x y => y.atn = x.atn) (fun _ => rfl) rfl,
    same (fun x y => x.getGood → y.getGood) (fun _ => id) id, rfl, rfl, ⟨id, fun _ => id⟩, ⟨id, id, id, fun m r c => ⟨m, r, c⟩⟩,
    debt_taken (s := s.advance t) hg, ⟨rfl, rfl, rfl, rfl, rfl, rfl⟩, rfl⟩

end Sys2Proof.Machine

end

section
/-! SUPPORT. The census over the ends of a command. -/

namespace Sys2Proof.Machine

variable {s : State} {p : PortNo} {g : Tag} {c : Instr}

/-! ### The census over the ends of a command -/

variable {lost : Prop} {n : BitVec 16}

/-- What the census law looks at beside the Ring Controller. -/
structure State.SamePress (s a : State) : Prop where
  time : a.hubTime = s.hubTime
  master : a.isMaster = s.isMaster
  rc : a.rc = s.rc
  su : a.su = s.su
  tu : a.tu.state = s.tu.state

theorem State.SamePress.holds {a : State} (h : s.SamePress a) : a.reformationHolds = s.reformationHolds := by
  unfold State.reformationHolds; rw [h.su, h.tu]

theorem State.Censused.congr {a : State} (h : s.Censused lost n) (e : s.SamePress a) : a.Censused lost n := by
  refine ⟨?_, fun hl hh => ?_, fun hl hh => ?_⟩
  · rw [censusLaw_congr e.master (by rw [e.rc]) (by rw [e.rc]) (fun _ _ => e.holds)]; exact h.law
  · rw [e.rc, e.time]; rw [e.rc] at hl; rw [e.holds] at hh; exact h.made hl hh
  · rw [e.rc]; rw [e.rc] at hl; rw [e.holds] at hh; exact h.stopped hl hh

theorem Recounted.congr {a b : State} (h : Recounted s a) (e : a.SamePress b) : Recounted s b :=
  ⟨fun l => by
    rw [censusLaw_congr e.master (by rw [e.rc]) (by rw [e.rc]) (fun _ _ => e.holds)]; exact h.law l,
    fun l m r t => (h.census l m r t).congr e⟩

theorem Entered.holds {d : Debt} {b : State} (h : Entered d s b) : b.reformationHolds = s.reformationHolds := by
  unfold State.reformationHolds; rw [h.shaft, h.tu]

theorem Entered.master {d : Debt} {b : State} (h : Entered d s b) : b.isMaster = s.isMaster := by
  unfold State.isMaster; rw [h.straps]

theorem Entered.censusLaw {d : Debt} {b : State} (h : Entered d s b) : b.censusLaw = s.censusLaw :=
  censusLaw_congr h.master h.census.ring h.census.timer (fun _ _ => h.holds)

theorem Entered.recounted {d : Debt} {a b : State} (h : Entered d s b) (r : Recounted b a) : Recounted s a := by
  refine ⟨fun l => r.law (h.censusLaw ▸ l), fun l m q t => ?_⟩
  have := r.census (h.censusLaw ▸ l) (h.master ▸ m) (h.census.ring ▸ q) (h.census.timer ▸ t)
  rwa [h.census.ring, h.census.number] at this

/-- A change of the trip state looks at the re-formation conditions, and makes the census where they come to hold. -/
theorem recounted_setTrip (s : State) (st : TripState) : Recounted s (s.setTrip st) := by
  obtain ⟨hm, hr, hk⟩ := setTrip_census s st
  refine ⟨fun l => ?_, fun _ m r t => State.Between.checked ⟨m, ?_⟩⟩
  · cases h : s.isMaster with
    | false => rw [censusLaw_iff, hm, h]; simp
    | true => exact hk h l
  · rcases r with r | r
    · exact .inr ⟨r, .inl ⟨t, rfl⟩⟩
    · exact .inl ⟨r, t⟩

theorem State.SamePress.recounted {a b : State} (e : s.SamePress a) (h : Recounted a b) : Recounted s b := by
  have l : a.censusLaw = s.censusLaw :=
    censusLaw_congr e.master (by rw [e.rc]) (by rw [e.rc]) (fun _ _ => e.holds)
  refine ⟨fun k => h.law (l ▸ k), fun k m r t => ?_⟩
  have := h.census (l ▸ k) (e.master ▸ m) (by rw [e.rc]; exact r) (by rw [e.rc]; exact t)
  rwa [e.rc] at this

theorem recounted_captured (s : State) : Recounted s s.captured := by
  unfold State.captured
  split
  · exact (by split <;> exact recounted_setTrip s _)
  all_goals exact (lawful_notify s _).census.recounted

theorem recounted_walkCompletion (s : State) : Recounted s s.walkCompletion := by
  unfold State.walkCompletion
  split
  next w _ =>
    split
    · exact State.SamePress.recounted (a := s.storeFrozen w) ⟨rfl, rfl, rfl, rfl, rfl⟩ (recounted_captured _)
    · exact (CensusKept.refl s).recounted
  next => exact (CensusKept.refl s).recounted

theorem recounted_resetTrip (s : State) : Recounted s s.resetTrip.1 := by
  have same := (CensusKept.refl s).recounted
  have clear : Recounted s (s.onTu (fun t => { t with causes := s.tu.causes.filter (fun c => !s.conditionGone c) })) :=
    same.congr ⟨rfl, rfl, rfl, rfl, rfl⟩
  unfold State.resetTrip
  dsimp only
  split
  next => exact same
  next => exact same
  next => exact same
  next => split <;> exact clear
  next => split <;> exact clear
  next =>
    split
    · exact clear
    · refine State.SamePress.recounted ?_ (recounted_setTrip _ _)
      exact ⟨rfl, rfl, rfl, rfl, rfl⟩

theorem recounted_cycleOrigination (s : State) : Recounted s s.cycleOrigination := by
  refine ⟨cycleOrigination_law, fun l m r t => ?_⟩
  unfold State.cycleOrigination
  split
  · split
    · exact originate_censused _ m t r.symm
    · exact (CensusKept.refl s).recounted.census l m r t
  · exact (CensusKept.refl s).recounted.census l m r t

theorem recounted_masterRunning (s : State) : Recounted s s.masterRunning := by
  refine ⟨fun _ => masterRunning_law s, fun l m r t => ?_⟩
  have hd : ¬ s.rc.ringState = .down := by rcases r with r | r <;> rw [r] <;> decide
  have hr : s.masterRunning.rc.ringState = .running := by
    unfold State.masterRunning
    dsimp only
    rw [if_neg hd]
    exact setRing_ring _ _
  exact ⟨masterRunning_law s, fun e => (by rw [hr] at e; cases e), fun e => (by rw [hr] at e; cases e)⟩

theorem recounted_takeReturnedRoster (s : State) (f : Inbound RosterFields) : Recounted s (s.takeReturnedRoster f) := by
  have same := (CensusKept.refl s).recounted
  unfold State.takeReturnedRoster
  split
  · exact same
  · split
    · exact (lawful_countCorrupt s).census.recounted
    · split
      · exact same
      · split
        · exact (lawful_enterConflict s).census.recounted
        · exact recounted_masterRunning s

end Sys2Proof.Machine

end

section
/-! SUPPORT. The work of every event and of every request. -/

namespace Sys2Proof.Machine

variable {s : State} {p : PortNo} {g : Tag} {c : Instr} {block : State → State × Reply}

/-! ### The events -/

theorem Steady.work {a : State} (h : Steady s a) (hc : Recounted s a) : Work 0 s a := h.sound.work h.trip hc

theorem lawful_beginGet (s : State) (p : PortNo) : Lawful 0 s (s.beginGet p) := by
  refine lawful_onPort s p _ ?_ ?_ ?_
  · split
    · exact .refl _
    · refine ⟨rfl, rfl, rfl, fun _ h => h, List.prefix_rfl, fun _ f r hf hr => ?_⟩
      cases hf
      revert hr
      unfold Port.fixGet
      dsimp only
      split
      next r rest e => rintro ⟨⟩; rw [e]; rfl
      next => rintro ⟨⟩
  all_goals split <;> rfl

/-! ### The requests -/

theorem work_respond (s : State) (p : PortNo) (g : Tag) (st : Status) (bytes : List Byte) :
    Work (-owe p g) s (s.respond p g st bytes) := (lawful_respond s p g st bytes).work

theorem work_tripReset (s : State) : Work (-owe p g) s (State.answer (reqTripReset s) p g) := by
  have reset := settled_resetTrip s
  have press : Lawful 0 s.resetTrip.1 (s.resetTrip.1.requestPressReset s.tu.state) :=
    .ite (fun _ => lawful_onTu _ _ ⟨rfl, rfl, rfl, rfl⟩) (fun _ => .refl _)
  have same : s.resetTrip.1.SamePress (s.resetTrip.1.requestPressReset s.tu.state) := by
    unfold State.requestPressReset
    split
    · exact ⟨rfl, rfl, rfl, rfl, rfl⟩
    · exact ⟨rfl, rfl, rfl, rfl, rfl⟩
  have answer := lawful_respond (s.resetTrip.1.requestPressReset s.tu.state) p g s.resetTrip.2.1 s.resetTrip.2.2
  have sound := (reset.steady.trans press.steady).sound.trans answer.sound
  rw [zero_add] at sound
  exact sound.work ((reset.trip.trans press.trip).trans answer.trip)
    (((recounted_resetTrip s).congr same).congr ⟨rfl, rfl, rfl, rfl, rfl⟩)

/-- A change of what the Client Ports notify, at most one port's enabled set, and of nothing that a request is owed. -/
structure CP.Renotified (p : PortNo) (r r' : CP) : Prop where
  role : ∀ q, (r'.ports.get q).role = (r.ports.get q).role
  tags : ∀ q, (r'.ports.get q).outstanding = (r.ports.get q).outstanding
  responses : ∀ q, (r'.ports.get q).responses = (r.ports.get q).responses
  getting : ∀ q, (r'.ports.get q).getting = (r.ports.get q).getting
  others : ∀ q, q ≠ p → r'.ports.get q = r.ports.get q

theorem work_renotified {f : CP → CP} (h : s.cp.Renotified p (f s.cp)) (st : Status) (bytes : List Byte) :
    Work (-owe p g) s ((s.onCp f).respond p g st bytes) := by
  have answer := lawful_respond (s.onCp f) p g st bytes
  refine ⟨rfl, rfl, fun q => ((answer.sound.ports q).role).trans (h.role q), answer.sound.shaft, answer.sound.sections,
    ⟨answer.sound.store.law, answer.sound.store.freeze⟩, ⟨answer.trip.law, answer.trip.causes, answer.trip.lockout,
    answer.trip.conflict⟩, ?_, fun q hq => (answer.sound.ports q).get ?_, .inl rfl, fun q hq => ?_,
    (CensusKept.refl s).recounted.congr ⟨rfl, rfl, rfl, rfl, rfl⟩⟩
  · rw [answer.sound.debt]
    exact congrArg (· + -owe p g) (debt_congr (a := s) (b := s.onCp f) h.tags h.responses rfl rfl rfl)
  · intro x r hx
    have e : (s.port q).getting = some x := (h.getting q).symm.trans hx
    exact fun hr => (congrArg List.head? (h.responses q)).trans (hq x r e hr)
  · by_cases e : q = p
    · subst e
      rw [atn_iff, State.respond, port_onPort, if_pos rfl]
      exact .inl (by simp)
    · refine (answer.sound.ports q).atn ?_
      rw [State.port, State.onCp, h.others q e]
      exact hq

theorem work_noticeRoute (s : State) (pairs : List (Nat × Nat)) :
    Work (-owe p g) s (State.answer (reqNoticeRoute pairs s) p g) := by
  unfold reqNoticeRoute
  split
  · exact work_respond s p g _ _
  · exact work_renotified ⟨fun _ => rfl, fun _ => rfl, fun _ => rfl, fun _ => rfl, fun _ _ => rfl⟩ _ _

theorem work_noticeEnable (s : State) (kinds : Option Nat) :
    Work (-owe p g) s (State.answer (reqNoticeEnable p kinds s) p g) := by
  have port : ∀ (f : Port → Port) (q : PortNo),
      (s.cp.ports.modify p f).get q = if p = q then f (s.cp.ports.get p) else s.cp.ports.get q := fun f q =>
    Table.get_modify _ _ _ _
  unfold reqNoticeEnable
  split
  · exact work_respond s p g _ _
  · refine work_renotified (f := fun c => { c with ports := c.ports.modify p _ }) ⟨?_, ?_, ?_, ?_, fun q hq => ?_⟩ _ _
    case refine_5 => exact (port _ q).trans (if_neg (Ne.symm hq))
    all_goals
      intro q
      dsimp only
      rw [port]
      split
      next e => subst e; rfl
      next => rfl

/-- What a row does, by its kind: a request is handed to its block; a PUT, the end of a GET and a reset are rows of their own;
and every other row is an event with its work. -/
inductive Doing (c : Instr) : Prop
  | request (block : State → State × Reply) (hb : blockOf c = some block) (row : RowOf c block) (h : Handling c block)
  | event (hb : blockOf c = none) (h : ∀ s, ∃ t a, exec c s = finish s a ∧ Work 0 (s.advance t) a)
  | put (t : HubTime) (p : PortNo) (bytes : List Byte) (h : c = .put t p bytes)
  | ends (t : HubTime) (p : PortNo) (n : Nat) (h : c = .getCompletion t p n)
  | resets (st : Straps) (a b : Bool) (h : c = .hardwareReset st a b)

theorem Doing.replied {block : State → State × Reply} (hb : blockOf c = some block) (row : RowOf c block)
    (h : ∀ s, Replied s (block s)) : Doing c := .request block hb row (.replies h)

theorem Doing.work {t : HubTime} {f : State → State} (hb : blockOf c = none)
    (he : ∀ s, exec c s = finish s (f (s.advance t)))
    (h : ∀ a, Work 0 a (f a)) : Doing c := .event hb fun s => ⟨t, _, he s, h _⟩

theorem Doing.lawful {t : HubTime} {f : State → State} (hb : blockOf c = none)
    (he : ∀ s, exec c s = finish s (f (s.advance t)))
    (h : ∀ a, Lawful 0 a (f a)) : Doing c := .work hb he fun a => (h a).work

theorem doing (c : Instr) : Doing c := by
  cases c with
  | hardwareReset st a b => exact .resets st a b rfl
  | put t p bytes => exact .put t p bytes rfl
  | getCompletion t p n => exact .ends t p n rfl
  | setCableComp _ _ _ v => exact .replied rfl ⟨_, _, _, _, rfl, fun _ => rfl⟩ (replied_reqSetCableComp v)
  | setPublicationOffset _ _ _ v => exact .replied rfl ⟨_, _, _, _, rfl, fun _ => rfl⟩ (replied_reqSetPublicationOffset v)
  | hubInfo _ _ _ => exact .replied rfl ⟨_, _, _, _, rfl, fun _ => rfl⟩ (fun s => .same s _)
  | setSpeed _ _ _ v => exact .replied rfl ⟨_, _, _, _, rfl, fun _ => rfl⟩ (replied_reqSetSpeed v)
  | setRamp _ _ _ a dn de => exact .replied rfl ⟨_, _, _, _, rfl, fun _ => rfl⟩ (replied_reqSetRamp a dn de)
  | setVmax _ _ _ v => exact .replied rfl ⟨_, _, _, _, rfl, fun _ => rfl⟩ (replied_reqSetVmax v)
  | inchStart _ _ _ v => exact .replied rfl ⟨_, _, _, _, rfl, fun _ => rfl⟩ (replied_reqInchStart v)
  | inchStop _ _ _ => exact .replied rfl ⟨_, _, _, _, rfl, fun _ => rfl⟩ replied_reqInchStop
  | shaftRead _ _ _ => exact .replied rfl ⟨_, _, _, _, rfl, fun _ => rfl⟩ (fun s => .same s _)
  | sectionSet _ q _ slot expected pairs =>
    exact .replied rfl ⟨_, _, _, _, rfl, fun _ => rfl⟩ (replied_reqSectionSet q slot expected pairs)
  | trimNudge _ q k hub slot amount =>
    exact .request _ rfl ⟨_, _, _, _, rfl, fun _ => rfl⟩ (.waits fun p g hw => by cases hw; exact lawful_reqTrimNudge hub slot amount)
  | sectionRead _ _ _ slot => exact .replied rfl ⟨_, _, _, _, rfl, fun _ => rfl⟩ (reading_sectionRead slot).replied
  | fence _ q k =>
    exact .request _ rfl ⟨_, _, _, _, rfl, fun _ => rfl⟩ (.waits fun p g hw => by cases hw; exact lawful_reqFence)
  | couple _ q k slot =>
    exact .request _ rfl ⟨_, _, _, _, rfl, fun _ => rfl⟩ (.waits fun p g hw => by cases hw; exact lawful_reqCouple slot)
  | decouple _ q k slot =>
    exact .request _ rfl ⟨_, _, _, _, rfl, fun _ => rfl⟩ (.waits fun p g hw => by cases hw; exact lawful_reqDecouple slot)
  | setPosition _ q k slot position =>
    exact .request _ rfl ⟨_, _, _, _, rfl, fun _ => rfl⟩ (.waits fun p g hw => by cases hw; exact lawful_reqSetPosition slot position)
  | setpointPickup _ q _ slot => exact .replied rfl ⟨_, _, _, _, rfl, fun _ => rfl⟩ (replied_reqSetpointPickup q slot)
  | driveStatus _ q _ slot ready fault following position =>
    exact .replied rfl ⟨_, _, _, _, rfl, fun _ => rfl⟩ (replied_reqDriveStatus q slot ready fault following position)
  | registerSetInputForm _ _ _ input items =>
    exact .replied rfl ⟨_, _, _, _, rfl, fun _ => rfl⟩ (replied_reqRegisterInput input items)
  | registerSetLoopForm _ _ _ loop items =>
    exact .replied rfl ⟨_, _, _, _, rfl, fun _ => rfl⟩ (replied_reqRegisterLoop loop items)
  | registerRead _ _ _ loop input => exact .replied rfl ⟨_, _, _, _, rfl, fun _ => rfl⟩ (reading_registerRead loop input).replied
  | matrixSet _ _ _ pairs => exact .replied rfl ⟨_, _, _, _, rfl, fun _ => rfl⟩ (replied_reqMatrixSet pairs)
  | stopPress _ _ _ => exact .replied rfl ⟨_, _, _, _, rfl, fun _ => rfl⟩ (fun s => (lawful_raiseHub s _).replied _)
  | tripReset _ _ _ => exact .request _ rfl ⟨_, _, _, _, rfl, fun _ => rfl⟩ (.resets rfl)
  | recordRead _ _ _ sel => exact .replied rfl ⟨_, _, _, _, rfl, fun _ => rfl⟩ (reading_recordRead sel).replied
  | recordRelease _ _ _ number => exact .replied rfl ⟨_, _, _, _, rfl, fun _ => rfl⟩ (replied_reqRecordRelease number)
  | tripRead _ _ _ => exact .replied rfl ⟨_, _, _, _, rfl, fun _ => rfl⟩ (fun s => .same s _)
  | cameraSet _ _ _ camera items => exact .replied rfl ⟨_, _, _, _, rfl, fun _ => rfl⟩ (replied_reqCameraSet camera items)
  | triggerSet _ _ _ camera angles => exact .replied rfl ⟨_, _, _, _, rfl, fun _ => rfl⟩ (replied_reqTriggerSet camera angles)
  | stripOpen _ q _ camera trigger width rows =>
    exact .replied rfl ⟨_, _, _, _, rfl, fun _ => rfl⟩ (replied_reqStripOpen q camera trigger width rows)
  | stripData _ q _ strip offset bytes =>
    exact .replied rfl ⟨_, _, _, _, rfl, fun _ => rfl⟩ (replied_reqStripData q strip offset bytes)
  | stripClose _ q _ strip => exact .replied rfl ⟨_, _, _, _, rfl, fun _ => rfl⟩ (replied_reqStripClose q strip)
  | stripDiscard _ q _ strip => exact .replied rfl ⟨_, _, _, _, rfl, fun _ => rfl⟩ (replied_reqStripDiscard q strip)
  | stripHold _ q _ strip => exact .replied rfl ⟨_, _, _, _, rfl, fun _ => rfl⟩ (replied_reqStripHold q strip)
  | stripUnhold _ q _ strip => exact .replied rfl ⟨_, _, _, _, rfl, fun _ => rfl⟩ (replied_reqStripUnhold q strip)
  | stripRead _ _ _ strip offset count =>
    exact .replied rfl ⟨_, _, _, _, rfl, fun _ => rfl⟩ (reading_stripRead strip offset count).replied
  | stripList _ _ _ start => exact .replied rfl ⟨_, _, _, _, rfl, fun _ => rfl⟩ (reading_stripList start).replied
  | freezeSpanSet _ _ _ span => exact .replied rfl ⟨_, _, _, _, rfl, fun _ => rfl⟩ (replied_reqFreezeSpanSet span)
  | viewOpen _ q _ hub kind index rate =>
    exact .replied rfl ⟨_, _, _, _, rfl, fun _ => rfl⟩ (replied_reqViewOpen q hub kind index rate)
  | viewFetch _ q _ => exact .replied rfl ⟨_, _, _, _, rfl, fun _ => rfl⟩ (replied_reqViewFetch q)
  | viewClose _ q _ view => exact .replied rfl ⟨_, _, _, _, rfl, fun _ => rfl⟩ (replied_reqViewClose q view)
  | noticeRoute _ _ _ pairs => exact .request _ rfl ⟨_, _, _, _, rfl, fun _ => rfl⟩ (.routes pairs rfl)
  | noticeEnable _ q k kinds =>
    exact .request _ rfl ⟨_, _, _, _, rfl, fun _ => rfl⟩ (.enables kinds fun p g hw => by cases hw; rfl)
  | get t p => exact .lawful rfl (fun _ => rfl) (fun _ => lawful_beginGet _ p)
  | voidTransaction t p b => exact .lawful rfl (fun _ => rfl) (fun _ => .ite (fun _ => lawful_frameError _ p) (fun _ => .refl _))
  | cycleOrigination t => exact .work rfl (fun _ => rfl) (fun _ => (steady_cycleOrigination _).work (recounted_cycleOrigination _))
  | returnedRoster t f =>
    exact .work rfl (fun _ => rfl) (fun _ => (steady_takeReturnedRoster _ f).work (recounted_takeReturnedRoster _ f))
  | freezeWalkCompletion t =>
    exact .work rfl (fun _ => rfl) (fun _ => (settled_walkCompletion _).steady.work (recounted_walkCompletion _))
  | censusTimerExpiry t => exact .lawful rfl (fun _ => rfl) lawful_censusExpiry
  | frameForward t _ => exact .lawful rfl (fun _ => rfl) (fun _ => lawful_frameForward _ _)
  | heldFrameRelease t => exact .lawful rfl (fun _ => rfl) lawful_heldRelease
  | ownFrameStart t => exact .lawful rfl (fun _ => rfl) lawful_ownFrameStart
  | census t _ => exact .lawful rfl (fun _ => rfl) (fun _ => lawful_censusArrives _ _)
  | returnedCensus t _ => exact .lawful rfl (fun _ => rfl) (fun _ => lawful_takeReturnedCensus _ _)
  | roster t _ => exact .lawful rfl (fun _ => rfl) (fun _ => lawful_rosterArrives _ _)
  | rosterTimerExpiry t => exact .lawful rfl (fun _ => rfl) lawful_rosterExpiry
  | returnedCycleFrame t _ => exact .lawful rfl (fun _ => rfl) (fun _ => lawful_takeReturnedCycle _ _)
  | cycleFrame t _ => exact .lawful rfl (fun _ => rfl) (fun _ => lawful_takeCycle _ _)
  | deadlineExpiry t => exact .lawful rfl (fun _ => rfl) lawful_deadlineExpiry
  | dataFrameRemoval t _ => exact .lawful rfl (fun _ => rfl) (fun _ => lawful_removeData _ _)
  | setpointPublication t _ => exact .lawful rfl (fun _ => rfl) (fun _ => lawful_publishDue _ _)
  | edit t _ _ _ _ => exact .lawful rfl (fun _ => rfl) (fun _ => lawful_deliverFrom (fun a => lawful_takeEdit a _ _ _ _) _ _ _)
  | markEdge t _ _ => exact .lawful rfl (fun _ => rfl) (fun _ => lawful_markEdge _ _ _)
  | holdOffExpiry t _ => exact .lawful rfl (fun _ => rfl) (fun _ => lawful_holdOffExpiry _ _)
  | passCompare t => exact .lawful rfl (fun _ => rfl) lawful_passCompare
  | tripIn t => exact .lawful rfl (fun _ => rfl) lawful_tripInFalls
  | webBrk t => exact .lawful rfl (fun _ => rfl) lawful_webBrkRises
  | freezeWalkExamination t => exact .lawful rfl (fun _ => rfl) lawful_walkExamination
  | triggerFire t _ => exact .lawful rfl (fun _ => rfl) (fun _ => lawful_triggerFire _ _)
  | triggerPulseEnd t _ => exact .lawful rfl (fun _ => rfl) (fun _ => lawful_pulseEnd _ _)
  | senderTakeHead t => exact .lawful rfl (fun _ => rfl) lawful_takeHead
  | beginTimeout t => exact .lawful rfl (fun _ => rfl) lawful_beginTimeout
  | retryWaitExpiry t => exact .lawful rfl (fun _ => rfl) lawful_retryWaitExpiry
  | awaitCompleteTimeout t => exact .lawful rfl (fun _ => rfl) lawful_awaitCompleteTimeout
  | imageReply t _ _ _ _ _ =>
    exact .lawful rfl (fun _ => rfl) (fun _ => lawful_deliverFrom (fun a => lawful_takeReply a _ _ _ _) _ _ _)
  | imageAbortToSender t _ _ _ _ =>
    exact .lawful rfl (fun _ => rfl) (fun _ => lawful_deliverFrom (fun a => lawful_takeAbortToSender a _ _ _) _ _ _)
  | imageBegin t _ _ => exact .lawful rfl (fun _ => rfl) (fun _ => lawful_deliverFrom (fun a => lawful_takeBegin a _ _) _ _ _)
  | imageSegment t _ _ _ _ _ _ =>
    exact .lawful rfl (fun _ => rfl) (fun _ => lawful_deliverFrom (fun a => lawful_takeSegment a _ _ _ _ _ _) _ _ _)
  | segmentTimeout t _ => exact .lawful rfl (fun _ => rfl) (fun _ => lawful_segmentTimeout _ _)
  | imageAbortToReceiver t _ _ _ _ =>
    exact .lawful rfl (fun _ => rfl) (fun _ => lawful_deliverFrom (fun a => lawful_takeAbortToReceiver a _ _) _ _ _)
  | scanCompletion t => exact .lawful rfl (fun _ => rfl) lawful_scanCompletion
  | rateTimerExpiry t _ => exact .lawful rfl (fun _ => rfl) (fun _ => lawful_rateExpiry _ _)
  | exportKeepAlive t _ => exact .lawful rfl (fun _ => rfl) (fun _ => lawful_keepAlive _ _)
  | subscribe t _ _ _ _ _ _ =>
    exact .lawful rfl (fun _ => rfl) (fun _ => lawful_deliverFrom (fun a => lawful_takeSubscribe a _ _ _ _ _ _) _ _ _)
  | unsubscribe t _ _ _ =>
    exact .lawful rfl (fun _ => rfl) (fun _ => lawful_deliverFrom (fun a => lawful_takeUnsubscribe a _ _ _) _ _ _)
  | subscribeReply t _ _ _ _ =>
    exact .lawful rfl (fun _ => rfl) (fun _ => lawful_deliverFrom (fun a => lawful_takeSubReply a _ _ _ _) _ _ _)
  | viewUpdate t _ _ _ _ =>
    exact .lawful rfl (fun _ => rfl) (fun _ => lawful_deliverFrom (fun a => lawful_takeViewUpdate a _ _ _ _) _ _ _)
  | staleCountExpiry t _ => exact .lawful rfl (fun _ => rfl) (fun _ => lawful_staleExpiry _ _)
  | editReply t _ _ _ _ _ =>
    exact .lawful rfl (fun _ => rfl) (fun _ => lawful_deliverFrom (fun a => lawful_takeEditReply a _ _ _ _ _) _ _ _)
  | nudgeTimeout t _ => exact .lawful rfl (fun _ => rfl) (fun _ => lawful_nudgeTimeout _ _)
  | lineReturnsToInactive t _ => exact .lawful rfl (fun _ => rfl) (fun _ => lawful_lineReturns _ _)

theorem block_row (h : blockOf c = some block) : RowOf c block ∧ Handling c block := by
  cases doing c with
  | request b hb row hh => cases hb.symm.trans h; exact ⟨row, hh⟩
  | event hb _ => cases hb.symm.trans h
  | put t p bytes hc => subst hc; cases h
  | ends t p n hc => subst hc; cases h
  | resets st a b hc => subst hc; cases h

/-- The work of a row that is no request, but for a PUT, the end of a GET and a reset. -/
theorem event_work (hb : blockOf c = none) (hp : ∀ t p bytes, c ≠ .put t p bytes) (hg : ∀ t p n, c ≠ .getCompletion t p n)
    (hr : ∀ st a b, c ≠ .hardwareReset st a b) (s : State) :
    ∃ t a, exec c s = finish s a ∧ Work 0 (s.advance t) a := by
  cases doing c with
  | request b h _ _ => cases hb.symm.trans h
  | event _ he => exact he s
  | put t p bytes h => exact absurd h (hp t p bytes)
  | ends t p n h => exact absurd h (hg t p n)
  | resets st a b h => exact absurd h (hr st a b)

/-- The work and the answer of every request, or its wait. -/
theorem work_block (h : Handling c block) (hw : c.waitsAs p g) (s : State) :
    Work (-owe p g) s (State.answer (block s) p g) := by
  cases h with
  | replies h => exact (h s).lawful.work
  | waits h => exact (h p g hw s).work
  | resets h => exact h ▸ work_tripReset s
  | routes pairs h => exact h ▸ work_noticeRoute s pairs
  | enables kinds h => exact h p g hw ▸ work_noticeEnable s kinds

end Sys2Proof.Machine

end

section
/-! SUPPORT. Every command but a reset keeps the laws. -/

namespace Sys2Proof.Machine

variable {s : State} {p : PortNo} {g : Tag} {c : Instr} {block : State → State × Reply} {t : HubTime}

/-! ### Every command -/

theorem Entered.work {b a : State} {d : Debt} (h : Entered d s b) (w : Work (-d) b a) : Work 0 s a where
  straps := w.straps.trans h.straps
  queue := w.queue.trans h.queue
  roles p := (w.roles p).trans (h.roles p)
  shaft := h.shaft ▸ w.shaft
  sections := by have := w.sections; rwa [h.sections] at this
  store := h.store.trans w.store
  trip := h.trip.trans w.trip
  debt := by rw [w.debt, h.debt, add_assoc, add_neg_cancel]
  get p := w.get p ∘ h.get p
  ring := by rw [← h.census.ring, ← h.routes]; exact w.ring
  atn p ha := w.atn p ((h.atn p).trans ha)
  census := h.recounted w.census

/-- The end of every command, which marks views and exports, changes nothing that is kept. -/
theorem Work.finished {a : State} {d : Debt} (w : Work d s a) (x : State) : Work d s (markDirty x a) := by
  have m := lawful_markDirty x a
  exact ⟨w.straps, w.queue, w.roles, w.shaft, w.sections, ⟨w.store.law, w.store.freeze⟩, w.trip.trans m.trip,
    by rw [m.sound.debt, add_zero, w.debt], w.get, w.ring, w.atn, w.census.congr ⟨rfl, rfl, rfl, rfl, rfl⟩⟩

theorem takeFrame_work {f : State → State}
    (hf : (s.port p).outstanding.getLsbD g = false → Work (-owe p g) (s.handed t p g) (f (s.handed t p g))) :
    Work 0 s ((s.advance t).takeFrame p g f) := by
  have enter := entered_advance s t
  unfold State.takeFrame
  dsimp only
  split
  · refine enter.work ?_
    rw [neg_zero]
    have k := PortKept.addNotice ((s.advance t).port p) .overrun
    exact (lawful_onPort _ p _ ⟨k.tags, k.role, k.enabled, k.pending, k.responses, k.get⟩ rfl rfl).work
  · split
    · refine enter.work ?_
      rw [neg_zero]
      exact (lawful_frameError _ p).work
    next h =>
      have free : (s.port p).outstanding.getLsbD g = false := Bool.eq_false_iff.2 h
      exact (entered_handed free).work (hf free)

theorem request_work (h : blockOf c = some block) (s : State) : ∃ s', exec c s = .next s' ∧ Work 0 s s' := by
  obtain ⟨⟨t, p, g, roles, hw, he⟩, hh⟩ := block_row h
  refine ⟨_, he s, (takeFrame_work fun _ => ?_).finished s⟩
  unfold State.handRequest
  split
  · exact work_block hh hw _
  · exact work_respond _ p g _ _

theorem put_work (s : State) (t : HubTime) (p : PortNo) (bytes : List Byte) :
    Work 0 s ((s.advance t).putBytes p bytes) := by
  have fault : Work 0 s ((s.advance t).frameError p) := by
    refine (entered_advance s t).work ?_
    rw [neg_zero]
    exact (lawful_frameError _ p).work
  unfold State.putBytes
  rcases bytes with _ | ⟨kind, _ | ⟨b1, _ | ⟨b2, rest⟩⟩⟩
  · exact fault
  · exact fault
  · exact fault
  dsimp only
  split
  · exact fault
  refine takeFrame_work fun _ => ?_
  unfold State.handFrame
  split
  · exact work_respond _ p _ _ _
  · split
    · split
      next block hb =>
        obtain ⟨c, hc, hb⟩ := Option.bind_eq_some_iff.1 hb
        obtain ⟨l, -, hc⟩ := Option.bind_eq_some_iff.1 hc
        exact work_block (block_row hb).2 (requestOf_waitsAs hc) _
      · exact work_respond _ p _ _ _
    · exact work_respond _ p _ _ _

/-! ### The end of a GET -/

/-- What every command but a reset keeps. The ports `off` are those whose ATN may fall. -/
structure Upheld (off : PortNo → Prop) (s a : State) : Prop where
  straps : a.straps = s.straps
  queue : a.pending = s.pending
  roles : ∀ p, (a.port p).role = (s.port p).role
  shaft : ShaftKept s.su a.su
  sections : SectionsKept s.se a.se
  store : StoreKept s a
  trip : TripKept s a
  ports : s.portLaw = true → s.getLaw = true → a.portLaw = true ∧ a.getLaw = true
  ring : a.rc.ringState = s.rc.ringState
    ∨ ∀ p : PortNo, s.cp.routes.ring.getLsbD p = true → (a.port p).pending.getLsbD 7 = true
  atn : ∀ p, ¬ off p → (s.port p).atn = true → (a.port p).atn = true
  census : Recounted s a

theorem getLaw_iff (s : State) : s.getLaw = true ↔ ∀ p, (s.port p).getGood := by
  unfold State.getLaw
  rw [List.all_eq_true]
  refine ⟨fun h p f r hf hr => ?_, fun h p _ => ?_⟩
  · have := h p (List.mem_finRange p)
    rw [hf] at this
    dsimp only at this
    rw [hr] at this
    exact of_decide_eq_true this
  · split
    next f hf =>
      split
      next r hr => exact decide_eq_true (h p f r hf hr)
      next => rfl
    next => rfl

theorem Work.upheld {a : State} (w : Work 0 s a) (off : PortNo → Prop) : Upheld off s a :=
  ⟨w.straps, w.queue, w.roles, w.shaft, w.sections, w.store, w.trip,
    fun hp hg => ⟨by rw [portLaw_iff, w.debt, (portLaw_iff s).1 hp, add_zero],
      (getLaw_iff a).2 fun p => w.get p ((getLaw_iff s).1 hg p)⟩,
    w.ring, fun p _ => w.atn p, w.census⟩

/-- The tag of a response that leaves is free, and no other. -/
theorem getLsbD_freed (b : BitVec 4) (g h : Tag) :
    (b &&& ~~~(1#4 <<< g.val)).getLsbD h = (b.getLsbD h && decide (h ≠ g)) := by
  revert b g h
  decide

/-- A response that leaves takes its tag with it: where each tag owed is outstanding, what a port owes beyond its ready responses
stays. -/
theorem completeGet_unready {q : Port} {f : GetFixed} (hf : ∀ r, f.response = some r → q.responses.head? = some r)
    (h : ∀ g, 0 ≤ q.unready g) (g : Tag) : (q.completeGet f).unready g = q.unready g := by
  unfold Port.completeGet
  split
  next r hr =>
    obtain ⟨rest, hrest⟩ : ∃ rest, q.responses = r :: rest := by
      have hq := hf r hr
      cases h : q.responses with
      | nil => rw [h] at hq; cases hq
      | cons x rest => rw [h] at hq; cases hq; exact ⟨rest, rfl⟩
    have hg := h g
    unfold Port.unready at hg ⊢
    dsimp only
    rw [getLsbD_freed, hrest, List.tail_cons]
    rw [hrest] at hg
    rw [List.countP_cons] at hg ⊢
    by_cases e : g = r.tag
    · subst e
      simp only [beq_self_eq_true, if_true, ne_eq, not_true_eq_false, decide_false, Bool.and_false] at hg ⊢
      split at hg
      next hb => rw [if_neg Bool.false_ne_true, if_pos hb]; push_cast; omega
      next => push_cast at hg; omega
    · have : (r.tag == g) = false := beq_eq_false_iff_ne.2 (Ne.symm e)
      simp [e, this]
  next => rfl

/-- The port at which a GET has ended. -/
noncomputable def Port.endGet (q : Port) (f : GetFixed) (n : Nat) : Port :=
  let q1 := { q with shifted := f.shiftedOut n }
  if f.bytes.length ≤ n then q1.completeGet f
  else { ({ q1 with getting := none }).addNotice .frameError with frameErrors := satInc q.frameErrors }

theorem endGet_eq {f : GetFixed} (h : (s.port p).getting = some f) (n : Nat) :
    s.endGet p n = s.onPort p (fun q => q.endGet f n) := by
  unfold State.endGet
  rw [h]
  dsimp only
  split
  next hn =>
    rw [onPort_onPort]
    refine congrArg (s.onPort p) (funext fun q => ?_)
    unfold Port.endGet
    rw [if_pos hn]
  next hn =>
    unfold State.frameError
    rw [onPort_onPort, onPort_onPort]
    refine congrArg (s.onPort p) (funext fun q => ?_)
    unfold Port.endGet
    rw [if_neg hn]

theorem portEndGet_unready {q : Port} {f : GetFixed} (hf : ∀ r, f.response = some r → q.responses.head? = some r)
    (h : ∀ g, 0 ≤ q.unready g) (n : Nat) (g : Tag) : (q.endGet f n).unready g = q.unready g := by
  unfold Port.endGet
  dsimp only
  split
  · exact completeGet_unready (q := { q with shifted := f.shiftedOut n }) hf h g
  · rfl

theorem portEndGet_role (q : Port) (f : GetFixed) (n : Nat) : (q.endGet f n).role = q.role := by
  unfold Port.endGet Port.completeGet
  dsimp only
  split
  · split <;> rfl
  · rfl

theorem portEndGet_getting (q : Port) (f : GetFixed) (n : Nat) : (q.endGet f n).getting = none := by
  unfold Port.endGet Port.completeGet
  dsimp only
  split
  · split <;> rfl
  · rfl

/-- Where nothing is owed beyond what waits, no port has a tag with less than its ready responses. -/
theorem unready_nonneg (h : s.debt = 0) (p : PortNo) (g : Tag) : 0 ≤ (s.port p).unready g := by
  have := congrFun (congrFun ((debt_eq s).symm.trans h) p) g
  simp only [Pi.sub_apply, Pi.zero_apply, owing] at this
  omega

theorem upheld_endGet (s x : State) (t : HubTime) (p : PortNo) (n : Nat) :
    Upheld (· = p) s (markDirty x ((s.advance t).endGet p n)) := by
  cases hf : (s.port p).getting with
  | none =>
    have e : (s.advance t).endGet p n = s.advance t := by
      unfold State.endGet
      rw [show ((s.advance t).port p).getting = none from hf]
    rw [e]
    exact (((entered_advance s t).work (by rw [neg_zero]; exact (Lawful.refl _).work)).finished x).upheld _
  | some f =>
    rw [endGet_eq (s := s.advance t) hf]
    have port : ∀ q, (markDirty x ((s.advance t).onPort p (fun q => q.endGet f n))).port q =
        if p = q then (s.port p).endGet f n else s.port q := fun q => port_onPort (s.advance t) p q _
    refine ⟨rfl, rfl, fun q => ?_, .refl _, id, ⟨id, fun _ => id⟩, ⟨id, id, id, fun m r c => ⟨m, r, c⟩⟩, fun hp hg => ?_,
      .inl rfl, fun q hq ha => ?_, (entered_advance s t).recounted ((CensusKept.refl _).recounted.congr ⟨rfl, rfl, rfl, rfl, rfl⟩)⟩
    · rw [port]
      split
      next e => subst e; exact portEndGet_role _ _ _
      next => rfl
    · have hd := (portLaw_iff s).1 hp
      have good := (getLaw_iff s).1 hg
      refine ⟨(portLaw_iff _).2 (Eq.trans ?_ hd), (getLaw_iff _).2 fun q => ?_⟩
      · rw [debt_eq, debt_eq]
        congr 2
        funext q g
        rw [port]
        split
        next e => subst e; exact portEndGet_unready (fun r hr => good p f r hf hr) (unready_nonneg hd p) n g
        next => rfl
      · rw [port]
        split
        next => intro k r hk; rw [portEndGet_getting] at hk; cases hk
        next => exact good q
    · rw [port, if_neg (Ne.symm hq)]
      exact ha

/-- Every command but a reset completes and keeps the laws; only the end of a GET may make ATN fall, at its port. -/
theorem exec_upheld (c : Instr) (s : State) (hr : ∀ st a b, c ≠ .hardwareReset st a b) :
    ∃ s', exec c s = .next s' ∧ Upheld (fun p => ∃ t n, c = .getCompletion t p n) s s' := by
  by_cases hg : ∃ t p n, c = .getCompletion t p n
  · obtain ⟨t, p, n, rfl⟩ := hg
    have u := upheld_endGet s s t p n
    exact ⟨_, rfl, u.straps, u.queue, u.roles, u.shaft, u.sections, u.store, u.trip, u.ports, u.ring,
      fun q hq => u.atn q (fun e => hq ⟨t, n, by rw [e]⟩), u.census⟩
  · have work : ∃ s', exec c s = .next s' ∧ Work 0 s s' := by
      cases hb : blockOf c with
      | some block => exact request_work hb s
      | none =>
        by_cases hp : ∃ t p bytes, c = .put t p bytes
        · obtain ⟨t, p, bytes, rfl⟩ := hp
          exact ⟨_, rfl, (put_work s t p bytes).finished s⟩
        · obtain ⟨t, a, he, w⟩ := event_work hb (fun t p b e => hp ⟨t, p, b, e⟩) (fun t p n e => hg ⟨t, p, n, e⟩) hr s
          refine ⟨_, he, ((entered_advance s t).work ?_).finished s⟩
          rw [neg_zero]
          exact w
    obtain ⟨s', he, w⟩ := work
    exact ⟨s', he, w.upheld _⟩

end Sys2Proof.Machine

end

section
/-! SUPPORT. A reset meets the laws, and every command keeps them. -/

namespace Sys2Proof.Machine

variable {s : State}

/-! ### The laws after a reset -/

theorem sections_lawful_iff (s : State) : (s.trimLaw = true ∧ s.listsBounded = true ∧ s.gearLaw = true) ↔
    ∀ i, (s.slot i).lawful := by
  unfold State.trimLaw State.listsBounded State.gearLaw
  rw [Table.all_list, Table.all_list, Table.all_list]
  constructor
  · rintro ⟨ht, hl, hg⟩ i
    exact ⟨of_decide_eq_true (ht i), of_decide_eq_true (hl i), hg i⟩
  · intro h
    exact ⟨fun i => decide_eq_true (h i).trim, fun i => decide_eq_true (h i).list, fun i => (h i).gear⟩

/-- Every law of the device. -/
structure State.lawsHold (s : State) : Prop where
  gen : s.su.gen.lawful = true
  rates : s.su.gen.ratesInRange = true
  history : s.su.tracker.bounded = true
  sections : ∀ i, (s.slot i).lawful
  trip : s.tripLaw = true
  causes : s.causesLaw = true
  census : s.censusLaw = true
  store : s.storeLaw = true
  freeze : s.freezeLaw = true
  ports : s.debt = 0
  get : ∀ p, (s.port p).getGood

theorem Lawful.lawsHold {a : State} (h : Lawful 0 s a) (l : s.lawsHold) : a.lawsHold where
  gen := h.sound.shaft.gen l.gen
  rates := h.sound.shaft.rates l.rates
  history := h.sound.shaft.history l.history
  sections := h.sound.sections l.sections
  trip := h.trip.law l.trip
  causes := h.trip.causes l.causes
  census := h.census.recounted.law l.census
  store := h.sound.store.law l.store
  freeze := h.sound.store.freeze l.store l.freeze
  ports := by rw [h.sound.debt, l.ports, add_zero]
  get p := (h.sound.ports p).get (l.get p)

theorem resetWith_port (st : Straps) (low brk : Bool) (q : List Instr) (p : PortNo) :
    (State.resetWith st low brk q).port p = .reset (st.roleOf p) := Table.get_ofFn _ _

theorem resetWith_lawsHold (st : Straps) (low brk : Bool) (q : List Instr) : (State.resetWith st low brk q).lawsHold := by
  have slots : ∀ i, (State.resetWith st low brk q).slot i = .reset := fun i => Table.get_const _ _
  refine ⟨rfl, rfl, rfl, fun i => ?_, rfl, rfl, ?_, ?_, rfl, ?_, fun p => ?_⟩
  · rw [slots]; exact ⟨by decide, by decide, by decide⟩
  · unfold State.censusLaw; exact Bool.or_true _
  · rw [storeLaw_good]
    have free : (State.resetWith st low brk q).is.free = List.range 1024 := by
      simp only [State.resetWith, IS.reset]
    have reserved : reservedTiles (State.resetWith st low brk q).im.contexts.list = [] := rfl
    exact ⟨rfl, by rw [reserved, List.append_nil, free]; exact (List.append_nil _).symm ▸ .refl _, List.nodup_nil, List.nodup_nil, fun r hr => by
      rcases hr with _ | ⟨_, _ | ⟨_, hr⟩⟩
      cases hr⟩
  · funext p g
    show (State.resetWith st low brk q).debt p g = 0
    unfold State.debt
    rw [owes_eq, resetWith_port]
    simp [State.resetWith, Port.reset, VU.owed, VU.reset]
  · rw [resetWith_port]
    intro f r hf
    cases hf

theorem lawful_raiseLines (s : State) : Lawful 0 s s.raiseLines := by
  have h : ∀ (a : State) (b : Bool) (c : Cause), Lawful 0 a (if b then a.raiseHub c else a) := fun a b c =>
    .ite (fun _ => lawful_raiseHub a c) (fun _ => .refl a)
  exact (h s _ _).then (h _ _ _)

theorem hardwareReset_lawsHold (s : State) (st : Straps) (low brk : Bool) : (s.hardwareReset st low brk).lawsHold :=
  (lawful_raiseLines _).lawsHold (resetWith_lawsHold st low brk _)

/-! ### Every command, a reset too -/

/-- Where a reset meets a law and every other command keeps it, every command does. -/
theorem exec_keeps {P : State → Prop} (hr : ∀ s : State, s.lawsHold → P s)
    (hk : ∀ {off : PortNo → Prop} {s a : State}, Upheld off s a → P s → P a) {c : Instr} {s s' : State} (h : P s)
    (e : exec c s = .next s') : P s' := by
  by_cases hc : ∃ st a b, c = .hardwareReset st a b
  · obtain ⟨st, a, b, rfl⟩ := hc
    cases e
    exact hr _ (hardwareReset_lawsHold s st a b)
  · obtain ⟨a, ha, u⟩ := exec_upheld c s (fun st a b e => hc ⟨st, a, b, e⟩)
    rw [ha] at e
    cases e
    exact hk u h

end Sys2Proof.Machine

open Sys2Proof Sys2Proof.Machine

/-- Settles O2: a reset answers its state, and what every other command keeps holds of straps, queue and roles. -/
theorem everyCommandCompletes : Obligations.EveryCommandCompletes := by
  intro c s
  by_cases hc : ∃ st a b, c = .hardwareReset st a b
  · obtain ⟨st, a, b, rfl⟩ := hc
    exact ⟨_, rfl, (lawful_raiseLines _).sound.queue, fun h => absurd rfl (h st a b)⟩
  · obtain ⟨s', he, u⟩ := exec_upheld c s (fun st a b e => hc ⟨st, a, b, e⟩)
    exact ⟨s', he, u.queue, fun _ => ⟨u.straps, u.roles⟩⟩

/-- Settles O20: each law of the Shaft Unit is kept by every command and met by a reset; the appended history is the definition
read at a full and at a shorter history. -/
theorem shaftLaw : Obligations.ShaftLaw := by
  refine ⟨fun c s s' h1 h2 e => ?_, fun c s s' h e => ?_, fun h e hl => ?_⟩
  · exact exec_keeps (P := fun s => s.su.gen.lawful = true ∧ s.su.gen.ratesInRange = true) (fun _ l => ⟨l.gen, l.rates⟩)
      (fun u h => ⟨u.shaft.gen h.1, u.shaft.rates h.2⟩) ⟨h1, h2⟩ e
  · exact exec_keeps (P := fun s => s.su.tracker.bounded = true) (fun _ l => l.history) (fun u => u.shaft.history) h e
  · unfold appendEntry
    by_cases hf : h.length = 16
    · rw [if_neg (by omega), if_pos hf, hf, List.drop_one]
    · rw [if_pos (by omega), if_neg hf]

/-- Settles O26: the laws of all sections are one law of each, which every command keeps. -/
theorem trimAndGearLaw : Obligations.TrimAndGearLaw := by
  intro c s s' h1 h2 h3 e
  exact (sections_lawful_iff s').2 (exec_keeps (P := fun s => ∀ i, (s.slot i).lawful) (fun _ l => l.sections)
    (fun u => u.sections) ((sections_lawful_iff s).1 ⟨h1, h2, h3⟩) e)

/-- Settles O37. -/
theorem tripLaw : Obligations.TripLaw := by
  refine ⟨fun c s s' hc e => ?_, fun c s s' h e => ?_, fun c s s' h e => ?_, fun s h => ?_⟩
  · obtain ⟨a, ha, u⟩ := exec_upheld c s hc
    rw [ha] at e
    cases e
    exact ⟨u.trip.lockout, u.trip.conflict⟩
  · exact exec_keeps (P := fun s => s.tripLaw = true) (fun _ l => l.trip) (fun u => u.trip.law) h e
  · exact exec_keeps (P := fun s => s.causesLaw = true) (fun _ l => l.causes) (fun u => u.trip.causes) h e
  · unfold State.tripOut
    rw [h]
    exact Bool.or_true _

/-- Settles O43. -/
theorem storeLaw : Obligations.StoreLaw := by
  intro c s s' h e
  refine ⟨exec_keeps (P := fun s => s.storeLaw = true) (fun _ l => l.store) (fun u => u.store.law) h e, fun hf => ?_⟩
  exact (exec_keeps (P := fun s => s.storeLaw = true ∧ s.freezeLaw = true) (fun _ l => ⟨l.store, l.freeze⟩)
    (fun u h => ⟨u.store.law h.1, u.store.freeze h.1 h.2⟩) ⟨h, hf⟩ e).2

/-- Settles O58: what is owed is counted tag by tag; four tags bound the responses ready. -/
theorem portLaw : Obligations.PortLaw := by
  refine ⟨fun c s s' h1 h2 e => ?_, fun s p h => ?_⟩
  · exact exec_keeps (P := fun s => s.portLaw = true ∧ s.getLaw = true)
      (fun s l => ⟨(portLaw_iff s).2 l.ports, (getLaw_iff s).2 l.get⟩) (fun u h => u.ports h.1 h.2) ⟨h1, h2⟩ e
  · have perm := of_decide_eq_true (List.all_eq_true.1 h p (List.mem_finRange p))
    have owed : (s.port p).responses.length ≤ (s.owedTags p).length := by
      unfold State.owedTags
      simp only [List.length_append, List.length_map]
      omega
    have open4 : (s.openTags p).length ≤ 4 := (List.length_filter_le _ _).trans (by simp)
    rw [perm.length_eq] at owed
    omega

/-- Settles O60. -/
theorem resetMeetsTheLaws : Obligations.ResetMeetsTheLaws := by
  intro st low brk s
  refine ⟨_, rfl, fun x hx => ?_⟩
  have l : x.lawsHold := by
    rcases List.mem_cons.1 hx with rfl | hx
    · exact hardwareReset_lawsHold s st low brk
    · rw [List.mem_singleton.1 hx]
      exact resetWith_lawsHold _ _ _ _
  obtain ⟨h1, h2, h3⟩ := (sections_lawful_iff x).2 l.sections
  exact ⟨l.gen, l.rates, l.history, h1, h2, h3, l.trip, l.causes, l.census, l.store, l.freeze,
    (portLaw_iff x).2 l.ports, (getLaw_iff x).2 l.get⟩

end

section
/-! SUPPORT. The Ring Controller after an origination, and the master that enters RUNNING. -/

namespace Sys2Proof.Machine

variable {s : State}

/-- The Ring Controller without what belongs to its census. -/
noncomputable def RC.lessCensus (r : RC) : RC :=
  { r with censusTimer := none, censusNumber := 0, outstandingCensus := none, outstandingRoster := none, ringFrameDue := none }

/-- Nothing but the census has changed, and not that in RUNNING. -/
structure RC.Recensused (r r' : RC) : Prop where
  core : r'.lessCensus = r.lessCensus
  running : r.ringState = .running → r' = r

theorem RC.Recensused.refl (r : RC) : r.Recensused r := ⟨rfl, fun _ => rfl⟩

theorem RC.Recensused.trans {r r' r'' : RC} (h : r.Recensused r') (h' : r'.Recensused r'') : r.Recensused r'' :=
  ⟨h'.core.trans h.core, fun e => by
    have e' := h.running e
    rw [h'.running (by rw [e']; exact e), e']⟩

theorem checkReformation_recensused (s : State) : s.rc.Recensused s.checkReformation.rc := by
  refine ⟨?_, fun e => by rw [checkReformation_other (by rw [e]; rintro ⟨-, ⟨⟩⟩)]⟩
  unfold State.checkReformation
  split
  · split
    · split <;> rfl
    · rfl
  · rfl

theorem RingKept.recensused {a : State} (h : RingKept s a) : s.rc.Recensused a.rc := by
  rcases h.rc with ⟨e, -⟩ | ⟨-, e⟩
  · rw [e]; exact .refl _
  · rw [e]
    unfold State.rcStopped
    split
    next h => exact ⟨rfl, fun r => by rw [h.2] at r; cases r⟩
    next => exact .refl _

theorem setTrip_recensused (s : State) (st : TripState) : s.rc.Recensused (s.setTrip st).rc :=
  checkReformation_recensused ((s.onTu _).notify .trip)

theorem tellStep_recensused (s : State) (b : Bool) : s.rc.Recensused (s.tellStep b).rc := by
  unfold State.tellStep State.stepTrip
  split
  · exact setTrip_recensused ((s.onIm _).onVu _) _
  · exact .refl _

theorem frameStep_recensused (s : State) (n : BitVec 16) (p : HubTime) (late : Bool) (a : FullAngle) (v : Int)
    (f : ShaftFlags) : s.rc.Recensused (s.frameStep n p late a v f).rc :=
  (ringKept_stepBlocks (s.onSu (fun u => { u with tracker := s.su.tracker.frameStep n p late a v f })) _).recensused

/-! ### The parts of an origination -/

/-- The hub once the frame originated before has been checked, at the start of an origination scheduled at `t`. -/
noncomputable def State.returnChecked (s : State) (t : HubTime) : State :=
  (s.onRc (fun r => { r.takeBack s.hubTime with nextOrigination := some (later t s.periodTicks) })).checkReturn

/-- The origination's step of the generator is for a trip. -/
noncomputable def State.forTrip (s : State) : Bool := s.stopInForce s.composeWord

/-- The hub after the origination's step of the generator. -/
noncomputable def State.generated (s : State) : State :=
  s.onSu (fun u => { u with gen := u.gen.step s.forTrip (decide (s.tu.state = .lockout)) })

/-- The frame that an origination sends. -/
noncomputable def State.ownCycle (s : State) : CycleFields := s.generated.composeCycle s.forTrip s.composeWord

/-- The hub once its cycle frame has been given to RING OUT. -/
noncomputable def State.ownSent (s : State) : State :=
  s.generated.sendCycle s.ownCycle (later s.generated.hubTime s.generated.rc.outLeft)

/-- An origination changes the Ring Controller by the check of the frame before, the frame that leaves, and the census alone. -/
theorem originate_recensused (s : State) (t : HubTime) :
    (s.returnChecked t).ownSent.rc.Recensused (s.originate t).rc :=
  ((frameStep_recensused _ _ _ _ _ _ _).trans (ringKept_handTripWord _ _ _).recensused).trans
    ((tellStep_recensused _ _).trans (checkReformation_recensused _))

/-- The failed returns after the check of the frame before. -/
noncomputable def RC.nextFailed (r : RC) : Nat :=
  if r.ringState = .running ∧ r.lastCycle.isSome = true then if r.returnSeen then 0 else r.failedReturns + 1
  else r.failedReturns

/-- Without a second failure in RUNNING the check counts, and no more. -/
theorem checkReturn_calm (h : s.rc.nextFailed < 2 ∨ s.rc.ringState ≠ .running ∨ s.rc.lastCycle = none) :
    s.checkReturn = s.onRc (fun r => { r with failedReturns := s.rc.nextFailed }) := by
  unfold State.checkReturn RC.nextFailed at *
  by_cases hr : s.running = true ∧ s.rc.lastCycle.isSome = true
  · have hr' : s.rc.ringState = .running ∧ s.rc.lastCycle.isSome = true := ⟨ringState_running hr.1, hr.2⟩
    rw [if_pos hr, if_pos hr']
    rw [if_pos hr'] at h
    split
    · rfl
    next hs =>
      rw [if_neg hs] at h
      have h2 : ¬ 2 ≤ s.rc.failedReturns + 1 := by
        rcases h with h | h | h
        · omega
        · exact absurd hr'.1 h
        · rw [h] at hr; exact absurd hr.2 Bool.false_ne_true
      exact if_neg h2
  · have hr' : ¬ (s.rc.ringState = .running ∧ s.rc.lastCycle.isSome = true) := fun e =>
      hr ⟨decide_eq_true e.1, e.2⟩
    rw [if_neg hr, if_neg hr']
    rfl

theorem takeBack_eq (r : RC) (now : HubTime) :
    r.takeBack now = { r with transit := (r.takeBack now).transit, outLeft := (r.takeBack now).outLeft } := by
  unfold RC.takeBack
  split <;> rfl

theorem cutArriving_eq (r : RC) (free : HubTime) : r.cutArriving free = { r with transit := (r.cutArriving free).transit } := by
  unfold RC.cutArriving
  split
  · rfl
  · dsimp only
    split <;> rfl

theorem takeBack_nextFailed (r : RC) (now : HubTime) (x : Option HubTime) :
    RC.nextFailed { r.takeBack now with nextOrigination := x } = r.nextFailed := by rw [takeBack_eq]; rfl

/-- The start of an origination without a second failure. -/
theorem returnChecked_calm (t : HubTime) (h : s.rc.nextFailed < 2 ∨ s.rc.ringState ≠ .running ∨ s.rc.lastCycle = none) :
    s.returnChecked t = s.onRc (fun r =>
      { r.takeBack s.hubTime with nextOrigination := some (later t s.periodTicks), failedReturns := r.nextFailed }) := by
  have c := takeBack_nextFailed s.rc s.hubTime (some (later t s.periodTicks))
  unfold State.returnChecked
  rw [checkReturn_calm]
  · show State.onRc s (fun _ => _) = _
    exact congrArg (fun n => s.onRc (fun r =>
      { r.takeBack s.hubTime with nextOrigination := some (later t s.periodTicks), failedReturns := n })) c
  · show RC.nextFailed { s.rc.takeBack s.hubTime with nextOrigination := some (later t s.periodTicks) } < 2
      ∨ (s.rc.takeBack s.hubTime).ringState ≠ .running ∨ (s.rc.takeBack s.hubTime).lastCycle = none
    rw [c, takeBack_eq]
    exact h

/-- The ring state and the numbers of the frames after an origination without a second failure. -/
theorem originate_numbers (t : HubTime) (h : s.rc.nextFailed < 2 ∨ s.rc.ringState ≠ .running ∨ s.rc.lastCycle = none) :
    (s.originate t).rc.ringState = s.rc.ringState ∧ (s.originate t).rc.cycleNumber = s.rc.cycleNumber + 1
      ∧ (s.originate t).rc.nextOrigination = some (later t s.periodTicks)
      ∧ (s.rc.ringState = .running → (s.originate t).rc.outstandingRoster = s.rc.outstandingRoster) := by
  have k := originate_recensused s t
  have sent : ∀ x : State, x.ownSent.rc.ringState = x.rc.ringState ∧ x.ownSent.rc.cycleNumber = x.rc.cycleNumber + 1
      ∧ x.ownSent.rc.nextOrigination = x.rc.nextOrigination
      ∧ x.ownSent.rc.outstandingRoster = x.rc.outstandingRoster := by
    intro x
    show (RC.cutArriving _ _).ringState = _ ∧ _ ∧ (RC.cutArriving _ _).nextOrigination = _
      ∧ (RC.cutArriving _ _).outstandingRoster = _
    rw [cutArriving_eq]
    exact ⟨rfl, rfl, rfl, rfl⟩
  obtain ⟨h1, h2, h3, h4⟩ := sent (s.returnChecked t)
  have start : (s.returnChecked t).rc.ringState = s.rc.ringState ∧ (s.returnChecked t).rc.cycleNumber = s.rc.cycleNumber
      ∧ (s.returnChecked t).rc.nextOrigination = some (later t s.periodTicks)
      ∧ (s.returnChecked t).rc.outstandingRoster = s.rc.outstandingRoster := by
    rw [returnChecked_calm t h]
    show (RC.takeBack _ _).ringState = _ ∧ (RC.takeBack _ _).cycleNumber = _ ∧ _ ∧ (RC.takeBack _ _).outstandingRoster = _
    rw [takeBack_eq]
    exact ⟨rfl, rfl, rfl, rfl⟩
  obtain ⟨k1, k2, k3, k4⟩ := start
  refine ⟨((congrArg RC.ringState k.core).trans h1).trans k1, ?_, ((congrArg RC.nextOrigination k.core).trans h3).trans k3,
    fun e => ?_⟩
  · exact (congrArg RC.cycleNumber k.core).trans (h2.trans (by rw [k2]))
  · rw [k.running ((h1.trans k1).trans e)]
    exact h4.trans k4

/-- The master in RUNNING, before it originates. -/
noncomputable def State.ranMaster (s : State) : State :=
  (s.onRc (fun r => { r with censusTimer := none, outstandingRoster := none, failedReturns := 0 })).setRing .running

theorem ranMaster_rc (s : State) : s.ranMaster.rc =
    { s.rc with censusTimer := none, outstandingRoster := none, failedReturns := 0, ringState := .running } := setRing_rc _ _

theorem masterRunning_lost (h : s.rc.ringState ≠ .down) : s.masterRunning = s.ranMaster := by
  unfold State.masterRunning
  dsimp only
  rw [if_neg h]
  rfl

theorem masterRunning_down (h : s.rc.ringState = .down) : s.masterRunning = s.ranMaster.originate s.hubTime := by
  have time : s.ranMaster.hubTime = s.hubTime :=
    (sound_setRing (s.onRc (fun r => { r with censusTimer := none, outstandingRoster := none, failedReturns := 0 }))
      .running).time
  unfold State.masterRunning
  dsimp only
  rw [if_pos h]
  exact congrArg s.ranMaster.originate time

/-- The master enters RUNNING: from DOWN it originates at once, else its cycle goes on. -/
theorem masterRunning_rc (s : State) :
    s.masterRunning.rc.ringState = .running ∧ s.masterRunning.rc.outstandingRoster = none
      ∧ (if s.rc.ringState = .down then
          s.masterRunning.rc.cycleNumber = s.rc.cycleNumber + 1
            ∧ s.masterRunning.rc.nextOrigination = some (later s.hubTime s.periodTicks)
        else s.masterRunning.rc.cycleNumber = s.rc.cycleNumber ∧ s.masterRunning.rc.nextOrigination = s.rc.nextOrigination
          ∧ s.masterRunning.rc.failedReturns = 0) := by
  have rc := ranMaster_rc s
  split
  next h =>
    have calm : s.ranMaster.rc.nextFailed < 2 := by
      rw [rc]
      unfold RC.nextFailed
      split
      · split
        · exact Nat.zero_lt_two
        · exact Nat.one_lt_two
      · exact Nat.zero_lt_two
    have period : s.ranMaster.periodTicks = s.periodTicks := by unfold State.periodTicks; rw [rc]
    have run : s.ranMaster.rc.ringState = .running := by rw [rc]
    obtain ⟨h1, h2, h3, h4⟩ := originate_numbers (s := s.ranMaster) s.hubTime (.inl calm)
    rw [masterRunning_down h]
    rw [rc] at h2
    rw [period] at h3
    exact ⟨h1.trans run, (h4 run).trans (by rw [rc]), h2, h3⟩
  next h =>
    rw [masterRunning_lost h, rc]
    exact ⟨rfl, rfl, rfl, rfl, rfl⟩

/-- The outstanding roster has come back to a master in DOWN or LOST. -/
theorem takeReturnedRoster_own {f : RosterFields} (hm : s.isMaster = true) (hf : s.rc.outstandingRoster = some f)
    (hr : s.rc.ringState = .down ∨ s.rc.ringState = .lost) : s.takeReturnedRoster ⟨f, 17, true⟩ = s.masterRunning := by
  have good : rosterCorrupt ⟨f, 17, true⟩ = false := rfl
  unfold State.takeReturnedRoster
  rw [if_neg (by rw [hm]; decide), if_neg (by rw [good]; decide), if_neg (by rcases hr with h | h <;> rw [h] <;> decide),
    if_neg (not_not.2 hf)]

theorem ringKept_raiseLines (s : State) : RingKept s s.raiseLines := by
  have h : ∀ (a : State) (b : Bool) (c : Cause), RingKept a (if b then a.raiseHub c else a) := fun a b c =>
    .ite (ringKept_raise a _) (.refl a)
  exact (h s _ _).trans (h _ _ _)

end Sys2Proof.Machine

open Sys2Proof Sys2Proof.Machine

/-- Settles O8: the master that enters RUNNING, then what every command keeps of the census and of the ring state. -/
theorem returnedRosterStartsTheRing : Obligations.ReturnedRosterStartsTheRing := by
  refine ⟨fun s t f hm hf hr => ?_, fun c s s' e => ⟨fun l => ?_, fun l m r n k => ?_, fun hc hn => ?_⟩⟩
  · have own := takeReturnedRoster_own (s := s.advance t) hm hf hr
    have law := masterRunning_law (s.advance t)
    obtain ⟨h1, h2, h3⟩ := masterRunning_rc (s.advance t)
    have timer := ((censusLaw_iff _).1 law (by
      rw [← own]; exact (steady_takeReturnedRoster (s.advance t) _).sound.master.trans hm)).1 h1
    exact ⟨_, congrArg (finish s) own, h1, timer, h2, h3⟩
  · exact exec_keeps (P := fun s => s.censusLaw = true) (fun _ l => l.census) (fun u => u.census.law) l e
  · have hc : ∀ st a b, c ≠ .hardwareReset st a b := by
      rintro st a b rfl
      cases e
      have down := congrArg RC.ringState (ringKept_raiseLines (State.resetWith st a b s.pending)).recensused.core
      exact absurd (k.symm.trans down) (fun h => nomatch h)
    obtain ⟨a, ha, u⟩ := exec_upheld c s hc
    rw [ha] at e
    cases e
    have census := u.census.census l m r n
    split
    next h =>
      have holds : s'.reformationHolds = true := by
        unfold State.reformationHolds
        rw [h.1]
        rcases h.2 with h | h <;> rw [h] <;> rfl
      have made := census.made k holds
      exact ⟨made.number, made.census, made.roster, made.due, made.timer⟩
    next h =>
      refine census.stopped k (Bool.eq_false_iff.2 fun holds => h ?_)
      simpa [State.reformationHolds] using holds
  · obtain ⟨a, ha, u⟩ := exec_upheld c s hc
    rw [ha] at e
    cases e
    exact u.ring.resolve_left hn

end

section
/-! SUPPORT. The ports at a PUT that spells no row, at a GET and at its end. -/

namespace Sys2Proof.Machine

variable {s : State} {p : PortNo} {g : Tag} {c : Instr} {block : State → State × Reply}

theorem steady_tripReset (s : State) : Steady s (reqTripReset s).1 :=
  (settled_resetTrip s).steady.trans
    (Lawful.ite (fun _ => lawful_onTu _ _ ⟨rfl, rfl, rfl, rfl⟩) (fun _ => .refl _)).steady

theorem respond_tags (s : State) (p : PortNo) (g : Tag) (st : Status) (bytes : List Byte) (q : PortNo) :
    ((s.respond p g st bytes).port q).outstanding = (s.port q).outstanding :=
  ((lawful_respond s p g st bytes).sound.ports q).tags

/-- No block frees a tag or takes one. -/
theorem block_tags (h : Handling c block) (hw : c.waitsAs p g) (s : State) (q : PortNo) :
    ((State.answer (block s) p g).port q).outstanding = (s.port q).outstanding := by
  cases h with
  | replies h => exact ((h s).lawful.sound.ports q).tags
  | waits h => exact ((h p g hw s).sound.ports q).tags
  | resets h => subst h; exact (respond_tags _ _ _ _ _ q).trans ((steady_tripReset s).sound.ports q).tags
  | routes pairs h =>
    subst h
    unfold reqNoticeRoute
    split
    · exact respond_tags _ _ _ _ _ q
    · exact respond_tags _ _ _ _ _ q
  | enables kinds h =>
    rw [h p g hw]
    unfold reqNoticeEnable
    split
    · exact respond_tags _ _ _ _ _ q
    · refine (respond_tags _ _ _ _ _ q).trans ?_
      rw [port_onPort]
      split
      next e => subst e; rfl
      next => rfl

/-- A request taken and answered at once. -/
theorem handed_responded (s : State) (t : HubTime) (p : PortNo) (g : Tag) (st : Status) :
    s.frame (markDirty s ((s.handed t p g).respond p g st [])) t [.cp]
      ∧ (markDirty s ((s.handed t p g).respond p g st [])).cp = s.cp.answered p g st [] := by
  obtain ⟨s', e, hf, hc⟩ := taken_responded (s := s) (t := t) (p := p) (g := g) st
  cases e
  exact ⟨hf, hc⟩

section
variable {kind : Nat} {payload : List Byte}

theorem handFrame_unknown (h : requestRoles kind = none) :
    s.handFrame p g kind payload = s.respond p g .unknownKind [] := by
  unfold State.handFrame; rw [h]

theorem handFrame_roles {roles : List Role} (h : requestRoles kind = some roles) (hr : (s.port p).role ∉ roles) :
    s.handFrame p g kind payload = s.respond p g .notPermitted [] := by
  unfold State.handFrame
  rw [h]
  exact if_neg (by simpa using hr)

theorem handFrame_malformed {roles : List Role} (h : requestRoles kind = some roles) (hr : ¬ (s.port p).role ∉ roles)
    (hf : checkForm kind payload = none) : s.handFrame p g kind payload = s.respond p g .badArgument [] := by
  unfold State.handFrame
  rw [h, hf]
  exact if_pos (by simpa using hr)

theorem handFrame_tags (s : State) (p : PortNo) (g : Tag) (kind : Nat) (payload : List Byte) (q : PortNo) :
    ((s.handFrame p g kind payload).port q).outstanding = (s.port q).outstanding := by
  unfold State.handFrame
  split
  · exact respond_tags _ _ _ _ _ q
  · split
    · split
      next block hb =>
        obtain ⟨c, hc, hb⟩ := Option.bind_eq_some_iff.1 hb
        obtain ⟨l, -, hc⟩ := Option.bind_eq_some_iff.1 hc
        exact block_tags (block_row hb).2 (requestOf_waitsAs hc) _ q
      · exact respond_tags _ _ _ _ _ q
    · exact respond_tags _ _ _ _ _ q

end

theorem handed_port (s : State) (t : HubTime) (p : PortNo) (g : Tag) : (s.handed t p g).port p = (s.port p).taken g := by
  rw [State.handed, port_onPort, if_pos rfl]; rfl

end Sys2Proof.Machine

open Sys2Proof Sys2Proof.Machine

/-- Settles O55, by the order in which a frame is judged: its length, the requests outstanding, its tag, its kind, the role and
the form. -/
theorem putsThatSpellNone : Obligations.PutsThatSpellNone := by
  intro s t p kind b1 b2 rest
  constructor
  · intro bytes h
    have he : (s.advance t).putBytes p bytes = (s.advance t).frameError p := by
      rcases h with h | ⟨rfl, h⟩
      · exact putBytes_short h
      · exact putBytes_long h
    exact (finish_cp (s := s) (t := t) (keeps_frameError (s.advance t) p)).imp fun s' a =>
      ⟨by rw [← a.1, ← he]; rfl, a.2.1, a.2.2⟩
  · intro h1 h2
    refine ⟨_, congrArg (finish s) (putBytes_whole h1 h2), ?_⟩
    split
    next ho =>
      have he : (s.advance t).takeFrame p (headerTag b1)
          (fun s1 => s1.handFrame p (headerTag b1) kind.toNat (rest.take (headerLength b1 b2))) =
          (s.advance t).onPort p (fun q => { (q.addNotice .overrun) with overruns := satInc q.overruns }) := if_pos ho
      rw [he]
      exact ⟨frame_finish (keeps_onPort _ p _), rfl⟩
    next ho =>
      split
      next hg =>
        have he : (s.advance t).takeFrame p (headerTag b1)
            (fun s1 => s1.handFrame p (headerTag b1) kind.toNat (rest.take (headerLength b1 b2))) =
            (s.advance t).frameError p := (if_neg ho).trans (if_pos hg)
        rw [he]
        exact ⟨frame_finish (keeps_frameError _ p), rfl⟩
      next hg =>
        have he : (s.advance t).takeFrame p (headerTag b1)
            (fun s1 => s1.handFrame p (headerTag b1) kind.toNat (rest.take (headerLength b1 b2))) =
            (s.handed t p (headerTag b1)).handFrame p (headerTag b1) kind.toNat (rest.take (headerLength b1 b2)) :=
          (if_neg ho).trans (if_neg hg)
        rw [he]
        have role : ((s.handed t p (headerTag b1)).port p).role = (s.port p).role := by rw [handed_port]; rfl
        split
        next hk =>
          rw [handFrame_unknown hk]
          exact handed_responded s t p _ _
        next roles hk =>
          split
          next hr =>
            rw [handFrame_roles hk (role ▸ hr)]
            exact handed_responded s t p _ _
          next hr =>
            split
            next hf =>
              have malformed : checkForm kind.toNat (rest.take (headerLength b1 b2)) = none := hf
              rw [handFrame_malformed hk (role ▸ hr) malformed]
              exact handed_responded s t p _ _
            next =>
              refine (handFrame_tags (s.handed t p (headerTag b1)) p _ _ _ p).trans ?_
              rw [handed_port]
              rfl

end

section
/-! SUPPORT. A GET and its end, byte by byte. -/

namespace Sys2Proof.Machine

variable {s : State} {t : HubTime} {p : PortNo} {n : Nat}

theorem beBytes_one_nat (v : Nat) : beBytes 1 v = [BitVec.ofNat 8 v] := by
  rw [beBytes_one, BitVec.ofInt_natCast]

theorem responseHeader_eq (r : Response) (ready : Nat) (reported : BitVec 11) : responseHeader r ready reported =
    [BitVec.ofNat 8 (r.tag.val * 64 + ready % 8 * 8 + 4), BitVec.ofNat 8 (Status.code r.status)]
      ++ beBytes 2 r.payload.length ++ beBytes 2 reported.toNat := by
  have first : beBytes 1 (r.tag.val * 64 + ready % 8 * 8 + 4) = [BitVec.ofNat 8 (r.tag.val * 64 + ready % 8 * 8 + 4)] := by
    rw [← beBytes_one_nat]; push_cast; rfl
  unfold responseHeader
  rw [first, beBytes_one_nat]
  rfl

theorem idleHeader_eq (reported : BitVec 11) : idleHeader reported = [0#8, 255#8, 0#8, 0#8] ++ beBytes 2 reported.toNat := by
  have first : beBytes 1 0 ++ beBytes 1 0xFF ++ beBytes 2 0 = [0#8, 255#8, 0#8, 0#8] := by decide
  unfold idleHeader
  rw [first]

theorem portEndGet_short {q : Port} {f : GetFixed} {n : Nat} (h : n < f.bytes.length) :
    q.endGet f n = { q.faulted with getting := none, shifted := f.bytes.take n } := by
  unfold Port.endGet
  dsimp only
  rw [if_neg (by omega), shiftedOut_eq, Nat.sub_eq_zero_of_le h.le, List.replicate_zero, List.append_nil]
  rfl

theorem portEndGet_whole {q : Port} {f : GetFixed} {n : Nat} (h : ¬ n < f.bytes.length) : q.endGet f n =
    Port.completeGet { q with shifted := f.bytes ++ List.replicate (n - f.bytes.length) 0#8 } f := by
  unfold Port.endGet
  dsimp only
  rw [if_pos (by omega), shiftedOut_eq, List.take_of_length_le (by omega)]
  rfl

theorem atn_reset (r : Role) : (Port.reset r).atn = false := by cases r <;> decide

theorem finish_port {f : Port → Port} {l : List Blk} (h : Blk.cp ∈ l) :
    ∃ s', finish s ((s.advance t).onPort p f) = .next s' ∧ s.frame s' t l ∧ s'.cp = s.cp.withPort p (f (s.port p)) :=
  ⟨_, rfl, frame_finish ((keeps_onPort _ p f).mono (by simpa using h)), rfl⟩

end Sys2Proof.Machine

open Sys2Proof Sys2Proof.Machine

/-- Settles O56: what a GET fixes, how it ends, a void transaction, and ATN over every command. -/
theorem getsAndVoids : Obligations.GetsAndVoids := by
  refine fun s t p n b f => ⟨fun h => ?_, fun h => ?_, fun hb => ?_, atn_iff, fun c s' e hg hr ha => ?_, fun st => ?_⟩
  · obtain ⟨s', e, hf, hc⟩ := finish_port (s := s) (t := t) (p := p) (l := [.cp])
      (f := fun q => if q.getting.isSome then q else { q with getting := some q.fixGet }) (List.mem_singleton.2 rfl)
    refine ⟨s', e, hf, hc.trans (congrArg _ ?_)⟩
    dsimp only
    rw [h, if_neg (by decide)]
    unfold Port.fixGet
    dsimp only
    cases hr : (s.port p).responses with
    | nil => dsimp only; rw [idleHeader_eq]; rfl
    | cons r rest => dsimp only; rw [responseHeader_eq]; rfl
  · have he : (s.advance t).endGet p n = (s.advance t).onPort p (fun q => q.endGet f n) :=
      endGet_eq (s := s.advance t) h n
    obtain ⟨s', e, hf, hc⟩ := finish_port (s := s) (t := t) (p := p) (f := fun q => q.endGet f n) (l := [.cp])
      (List.mem_singleton.2 rfl)
    refine ⟨s', (congrArg (finish s) he).trans e, hf, ?_⟩
    rw [hc]
    split
    next hn => rw [portEndGet_short hn]
    next hn =>
      rw [portEndGet_whole hn]
      unfold Port.completeGet
      cases f.response <;> rfl
  · have hv : voidByte b = true := by simpa [voidByte, and_assoc] using hb
    exact (finish_cp (s := s) (t := t) (keeps_frameError (s := s.advance t) p)).imp fun s' a =>
      ⟨(congrArg (finish s) (if_pos hv)).trans a.1, a.2.1, a.2.2⟩
  · obtain ⟨a, h, u⟩ := exec_upheld c s hr
    rw [h] at e
    cases e
    exact u.atn p (fun ⟨v, m, hm⟩ => hg v m hm) ha
  · have port : (State.resetWith st false false s.pending).port p = .reset (st.roleOf p) := resetWith_port _ _ _ _ _
    exact ⟨_, rfl, (congrArg Port.atn port).trans (atn_reset _)⟩

end

section
/-! SUPPORT. Exactly what an order to the sections does, what becomes of the current record, and what an entry to CAPTURE
leaves. -/

namespace Sys2Proof.Machine

variable {s : State}

/-! ### Orders -/

/-- A port at which responses have become ready. -/
noncomputable def Port.readied (q : Port) (l : List Response) : Port := { q with responses := q.responses ++ l }

theorem Port.readied_nil (q : Port) : q.readied [] = q := by unfold Port.readied; rw [List.append_nil]

theorem respondAll_port {α : Type} (k : α → PortNo × Tag) (st : Status) (l : List α) (s : State) (q : PortNo) :
    (l.foldl (fun s x => s.respond (k x).1 (k x).2 st []) s).port q =
      (s.port q).readied ((l.filter (fun x => decide ((k x).1 = q))).map (fun x => ⟨(k x).2, st, []⟩)) := by
  unfold Port.readied
  induction l generalizing s with
  | nil => simp
  | cons x l ih =>
    rw [List.foldl_cons, ih, State.respond, port_onPort]
    by_cases e : (k x).1 = q
    · subst e; simp
    · simp [e]

theorem discardSlots_port (s : State) (p : SlotNo → Bool) (q : PortNo) : (s.discardSlots p).port q =
    (s.port q).readied (((s.se.fences.filter (fun f => f.slots.any p)).filter (fun f => decide (f.port = q))).map
      (fun f => ⟨f.tag, .discarded, []⟩)) :=
  respondAll_port (fun f : Fence => (f.port, f.tag)) .discarded _ _ q

theorem orderSections_se (s : State) (p : SlotNo → Bool) (st : SectionState) : (s.orderSections p st).se =
    { s.se with
      slots := s.se.slots.mapIdx (fun i x =>
        if p i then { x with state := st, posted := [], corrSum := 0, corrHeld := false } else x)
      fences := s.se.fences.filter (fun f => !f.slots.any p) } := by
  have h : (s.orderSections p st).se = { (s.discardSlots p).se with
      slots := (s.discardSlots p).se.slots.mapIdx (fun i x => if p i then { x with state := st } else x) } := rfl
  have slots : (s.discardSlots p).se.slots.mapIdx (fun i x => if p i then { x with state := st } else x) =
      s.se.slots.mapIdx (fun i x =>
        if p i then { x with state := st, posted := [], corrSum := 0, corrHeld := false } else x) := by
    rw [discardSlots_se]
    refine Table.ext_get fun i => ?_
    simp only [Table.get_mapIdx]
    split <;> rfl
  rw [h, slots, discardSlots_se]

theorem orderSections_taken {p : SlotNo → Bool} {st : SectionState} {k : Cls}
    (hp : ∀ i, p i = true ↔ SectionState.under k (s.slot i).state ≠ (s.slot i).state)
    (hs : ∀ i, p i = true → SectionState.under k (s.slot i).state = st) : s.orderTaken (s.orderSections p st) k := by
  have hits : ∀ f : Fence, f.slots.any p = true ↔ ∃ i ∈ f.slots, SectionState.under k (s.slot i).state ≠ (s.slot i).state := by
    intro f
    rw [List.any_eq_true]
    exact ⟨fun ⟨i, h, h'⟩ => ⟨i, h, (hp i).1 h'⟩, fun ⟨i, h, h'⟩ => ⟨i, h, (hp i).2 h'⟩⟩
  refine ⟨fun i => ?_, ?_, ?_, ?_, fun f hf hi => ?_⟩
  · rw [State.slot, orderSections_se]
    dsimp only
    rw [Table.get_mapIdx]
    by_cases h : p i = true
    · rw [if_pos h, if_pos ((hp i).1 h), hs i h]; rfl
    · rw [if_neg h, if_neg (fun e => h ((hp i).2 e))]; rfl
  · rw [orderSections_se]
  · rw [orderSections_se]
  · rw [orderSections_se]
    refine List.filter_congr fun f _ => ?_
    rw [Bool.eq_iff_iff, decide_eq_true_iff, ← hits f]
    simp
  · show _ ∈ ((s.discardSlots p).port f.port).responses
    rw [discardSlots_port]
    refine List.mem_append_right _ (List.mem_map.2 ⟨f, ?_, rfl⟩)
    exact List.mem_filter.2 ⟨List.mem_filter.2 ⟨hf, (hits f).2 hi⟩, decide_eq_true rfl⟩

/-- An order that changes no section. -/
theorem orderTaken_idle {k : Cls} (h : ∀ i, SectionState.under k (s.slot i).state = (s.slot i).state) : s.orderTaken s k := by
  refine ⟨fun i => by rw [if_neg (not_not.2 (h i))], rfl, rfl, ?_, fun f _ ⟨i, _, hi⟩ => absurd (h i) hi⟩
  rw [List.filter_eq_self.2]
  exact fun f _ => decide_eq_true fun ⟨i, _, hi⟩ => hi (h i)

theorem sectionActions_taken (s : State) (k : Cls) : s.orderTaken (s.sectionActions k) k := by
  cases k with
  | noClass => exact orderTaken_idle fun i => rfl
  | notify => exact orderTaken_idle fun i => rfl
  | sync => exact orderTaken_idle fun i => rfl
  | quick =>
    refine orderSections_taken (fun i => ?_) fun i h => ?_
    · cases (s.slot i).state <;> decide
    · revert h
      cases (s.slot i).state <;> decide
  | coast =>
    refine orderSections_taken (fun i => ?_) fun i h => ?_
    · cases (s.slot i).state <;> decide
    · revert h
      cases (s.slot i).state <;> decide

/-- An order answers fences and does no more at the ports. -/
theorem sectionActions_port (s : State) (k : Cls) (q : PortNo) :
    ∃ l, (s.sectionActions k).port q = (s.port q).readied l ∧ (s.se.fences = [] → l = []) := by
  have order : ∀ (p : SlotNo → Bool) (st : SectionState), ∃ l, (s.orderSections p st).port q = (s.port q).readied l
      ∧ (s.se.fences = [] → l = []) := fun p st =>
    ⟨_, discardSlots_port s p q, fun h => by rw [h]; rfl⟩
  have none : ∃ l, s.port q = (s.port q).readied l ∧ (s.se.fences = [] → l = []) :=
    ⟨[], (Port.readied_nil _).symm, fun _ => rfl⟩
  cases k with
  | noClass => exact none
  | notify => exact none
  | sync => exact none
  | quick => exact order _ _
  | coast => exact order _ _

/-- What an order leaves of the sections, whatever was on them. -/
theorem orderTaken_state {a : State} {k : Cls} (h : s.orderTaken a k) (i : SlotNo) :
    (a.slot i).state = SectionState.under k (s.slot i).state := by
  rw [h.1 i]
  split
  · rfl
  next e => exact (not_not.1 e).symm

end Sys2Proof.Machine
end

section
/-! SUPPORT. The current record, and what a rise of the class and an entry to CAPTURE leave. -/

namespace Sys2Proof.Machine

variable {s a b : State} {c : CausePair}

/-! ### The current record -/

theorem currentBecomes_same {f : TripRecord → TripRecord} (h : a.tu.records = s.tu.records) (hf : ∀ r, f r = r) :
    s.currentBecomes a f :=
  ⟨fun before r after hc => by rw [h, hf, hc.1], fun _ => h⟩

theorem onCurrent_becomes (s : State) (f : TripRecord → TripRecord) : s.currentBecomes (s.onCurrent f) f := by
  unfold State.onCurrent
  split
  next n hn =>
    refine ⟨fun before r after ⟨hr, hc, ha⟩ => ?_, fun h => ?_⟩
    · rw [hn] at hc
      cases hc
      show onNewest r.number f s.tu.records = _
      rw [hr, onNewest_append _ _ _ _ _ rfl ha]
    · exact onNewest_none n f _ fun q hq e => h q hq (by rw [hn, e])
  next hn =>
    exact ⟨fun before r after ⟨_, hc, _⟩ => (by rw [hn] at hc; cases hc), fun _ => rfl⟩

theorem State.currentBecomes.trans {f g : TripRecord → TripRecord} (h : s.currentBecomes a f) (h' : a.currentBecomes b g)
    (hc : a.tu.current = s.tu.current) (hn : ∀ r, (f r).number = r.number) : s.currentBecomes b (fun r => g (f r)) := by
  refine ⟨fun before r after hr => ?_, fun hr => ?_⟩
  · refine h'.1 before (f r) after ⟨h.1 before r after hr, ?_, ?_⟩
    · rw [hc, hr.2.1, hn]
    · rw [hn]; exact hr.2.2
  · have e := h.2 hr
    rw [h'.2 (by rw [e, hc]; exact hr), e]

theorem State.currentBecomes.congr {f g : TripRecord → TripRecord} (h : s.currentBecomes a f) (e : ∀ r, f r = g r) :
    s.currentBecomes a g := (funext e : f = g) ▸ h

/-- A statement about the current record rests on the Trip Unit alone. -/
theorem State.currentBecomes.of_tu {f : TripRecord → TripRecord} (h : a.currentBecomes b f)
    (hr : a.tu.records = s.tu.records) (hc : a.tu.current = s.tu.current) : s.currentBecomes b f := by
  refine ⟨fun before r after hs => h.1 before r after ?_, fun hs => (h.2 (by rw [hr, hc]; exact hs)).trans hr⟩
  exact ⟨hr.trans hs.1, hc.trans hs.2.1, hs.2.2⟩

theorem onCurrent_tu (s : State) (f : TripRecord → TripRecord) :
    (s.onCurrent f).tu = { s.tu with records := (s.onCurrent f).tu.records } := by
  unfold State.onCurrent
  split <;> rfl

theorem addSecondary_number (r : TripRecord) (c : CausePair) : (r.addSecondary c).number = r.number := by
  unfold TripRecord.addSecondary
  split <;> rfl

theorem Cls.max_noClass (k : Cls) : k.max .noClass = k := if_neg (Nat.not_lt_zero _)

theorem noted_eq (r : TripRecord) (c : CausePair) (k : Cls) :
    r.noted c k = { r.addSecondary c with highest := r.highest.max k } := by
  unfold TripRecord.noted TripRecord.addSecondary
  have h : (¬ r.secondary.contains c = true) ↔ c ∉ r.secondary := by simp
  simp only [h]
  split <;> rfl

theorem noted_noClass (r : TripRecord) (c : CausePair) : r.noted c .noClass = r.addSecondary c := by
  rw [noted_eq, Cls.max_noClass]
  unfold TripRecord.addSecondary
  split <;> rfl

theorem addSecondary_highest (r : TripRecord) (c : CausePair) : (r.addSecondary c).highest = r.highest := by
  unfold TripRecord.addSecondary
  split <;> rfl

/-! ### A pair appended and a rise -/

theorem effectiveClass_tu (hs : a.tu.state = s.tu.state) (hc : a.tu.causes = s.tu.causes) (hm : a.tu.matrix = s.tu.matrix)
    (hk : a.tu.carried = s.tu.carried) : a.effectiveClass = s.effectiveClass := effectiveClass_congr ⟨hs, hc, hm, hk⟩

theorem orderTaken_of_se {k : Cls} (h : a.orderTaken b k) (e : a.se = s.se) : s.orderTaken b k := by
  unfold State.orderTaken State.slot at h ⊢
  rw [e] at h
  exact h

/-- What a rise of the effective class from `before` leaves, where it is one. -/
theorem riseFrom_eq (s : State) (before : Cls) : s.riseFrom before =
    if before.rank < s.effectiveClass.rank then (s.reachClass s.effectiveClass).sectionActions s.effectiveClass else s := rfl

/-- What the append of a pair and a rise of the class leave of the Trip Unit and do to the sections. -/
structure Risen (s a : State) (c : CausePair) (before : Cls) : Prop where
  tu : a.tu = { s.tu with records := a.tu.records }
  record : s.currentBecomes a (fun r => r.noted c (if before.rank < s.effectiveClass.rank then s.effectiveClass else .noClass))
  taken : before.rank < s.effectiveClass.rank → s.orderTaken a s.effectiveClass
  idle : ¬ before.rank < s.effectiveClass.rank → a.se = s.se

theorem appendRise_risen (s : State) (c : CausePair) (before : Cls) :
    Risen s ((s.appendSecondary c).riseFrom before) c before := by
  have tu := onCurrent_tu s (fun r => r.addSecondary c)
  have cls : (s.appendSecondary c).effectiveClass = s.effectiveClass :=
    effectiveClass_tu (by rw [State.appendSecondary, tu]) (by rw [State.appendSecondary, tu])
      (by rw [State.appendSecondary, tu]) (by rw [State.appendSecondary, tu])
  have se : (s.appendSecondary c).se = s.se := (keeps_appendSecondary s c).2.2.2 .se (by decide)
  rw [riseFrom_eq, cls]
  by_cases h : before.rank < s.effectiveClass.rank
  · rw [if_pos h]
    have reach := onCurrent_becomes (s.appendSecondary c) (fun r => { r with highest := r.highest.max s.effectiveClass })
    have record := (onCurrent_becomes s (fun r => r.addSecondary c)).trans reach (by rw [tu])
      (fun r => addSecondary_number r c)
    refine ⟨?_, ?_, fun _ => ?_, fun hn => absurd h hn⟩
    · rw [sectionActions_tu]
      have e := onCurrent_tu (s.appendSecondary c) (fun r => { r with highest := r.highest.max s.effectiveClass })
      exact e.trans (by rw [State.appendSecondary, tu]; rfl)
    · rw [if_pos h]
      refine State.currentBecomes.congr (f := fun r => { r.addSecondary c with
        highest := (r.addSecondary c).highest.max s.effectiveClass }) ?_ fun r => by
          rw [noted_eq, addSecondary_highest]
      unfold State.currentBecomes at record ⊢
      rw [sectionActions_tu]
      exact record
    · exact orderTaken_of_se (sectionActions_taken _ _) (((keeps_reachClass _ _).2.2.2 .se (by decide)).trans se)
  · rw [if_neg h]
    refine ⟨tu, ?_, fun hp => absurd hp h, fun _ => se⟩
    rw [if_neg h]
    exact (onCurrent_becomes s _).congr fun r => (noted_noClass r c).symm

/-! ### Entry to CAPTURE -/

theorem dropOldestRecord_tu (s : State) : s.dropOldestRecord.tu =
    { s.tu with records := if 4 ≤ s.tu.records.length then s.tu.records.tail else s.tu.records } := by
  unfold State.dropOldestRecord
  split
  next r rest h =>
    split
    · rw [h]; rfl
    · rfl
  next h => rw [if_neg (by rw [h]; decide)]

theorem openRecord_tu (s : State) (r : TripRecord) : (s.openRecord r).tu =
    { s.tu with
      records := (if 4 ≤ s.tu.records.length then s.tu.records.tail else s.tu.records) ++ [r]
      recordCount := r.number
      current := some r.number } := by
  have e : (s.openRecord r).tu = (fun t : TU =>
      { t with records := t.records ++ [r], recordCount := r.number, current := some r.number }) s.dropOldestRecord.tu := rfl
  rw [e, dropOldestRecord_tu]

/-- The record that an entry to CAPTURE opens. -/
noncomputable def State.captureRecord (s : State) (c : CausePair) : TripRecord := (s.setTrip .capture).newRecord c

theorem enterCapture_tu (s : State) (c : CausePair) : (s.enterCapture c).tu =
    { s.tu with
      state := .capture
      releaseLevel := none
      records := (if 4 ≤ s.tu.records.length then s.tu.records.tail else s.tu.records) ++ [s.captureRecord c]
      recordCount := s.tu.recordCount + 1
      current := some (s.tu.recordCount + 1) } := by
  have h : (s.enterCapture c).tu = ((s.setTrip .capture).openRecord (s.captureRecord c)).tu := sectionActions_tu _ _
  have n : (s.captureRecord c).number = s.tu.recordCount + 1 := by
    show (s.setTrip .capture).tu.recordCount + 1 = _
    rw [setTrip_tu]
  rw [h, openRecord_tu, setTrip_tu, n]
  rfl

theorem captureRecord_class (s : State) (c : CausePair) :
    (s.captureRecord c).entryClass = (s.enterCapture c).effectiveClass := by
  refine effectiveClass_tu (a := s.setTrip .capture) (s := s.enterCapture c) ?_ ?_ ?_ ?_ <;>
    rw [enterCapture_tu, setTrip_tu]

theorem enterCapture_taken (s : State) (c : CausePair) :
    s.orderTaken (s.enterCapture c) (s.enterCapture c).effectiveClass := by
  have h := sectionActions_taken ((s.setTrip .capture).openRecord (s.captureRecord c)) (s.captureRecord c).entryClass
  have se : ((s.setTrip .capture).openRecord (s.captureRecord c)).se = s.se :=
    ((keeps_openRecord (s.setTrip .capture) (s.captureRecord c)).2.2.2 .se (by decide)).trans (setTrip_se s _)
  rw [← captureRecord_class]
  exact orderTaken_of_se h se

theorem captureRecord_eq (s : State) (c : CausePair) : s.captureRecord c =
    { number := s.tu.recordCount + 1, first := c, entryClass := (s.enterCapture c).effectiveClass
      highest := (s.enterCapture c).effectiveClass, cycle := s.su.tracker.lastCycle, time := s.hubTime
      angle := s.su.tracker.angle, v := s.su.tracker.lastV, mask := s.maskAtEntry (s.enterCapture c)
      snapshots := s.snapshots, secondary := [], frozen := [], capturing := true } := by
  have k := keeps_setTrip s .capture
  have su : (s.setTrip .capture).su = s.su := k.2.2.2 .su (by decide)
  have own : (s.setTrip .capture).ownClass = (s.enterCapture c).ownClass := by
    unfold State.ownClass State.latchedClass
    rw [setTrip_tu, enterCapture_tu]
  have address : (s.setTrip .capture).rc.hubAddress = s.rc.hubAddress := by
    have h := congrArg RC.hubAddress (setTrip_recensused s .capture).core
    exact h
  have mask : (s.setTrip .capture).tripMask = s.maskAtEntry (s.enterCapture c) := by
    unfold State.tripMask State.maskAtEntry Cls.stops hubBit
    rw [address, own, setTrip_tu]
    cases s.rc.hubAddress <;> simp
  have snapshots : (s.setTrip .capture).snapshots = s.snapshots := by
    unfold State.snapshots State.slot
    rw [setTrip_se]
  have cls := captureRecord_class s c
  unfold State.captureRecord State.newRecord at cls ⊢
  dsimp only at cls
  rw [cls, mask, snapshots, su, k.1, setTrip_tu]

/-- An entry to CAPTURE opens a trip, with what its record holds. -/
theorem enterCapture_opened {P : TripRecord → Prop} (hP : P (s.captureRecord c)) :
    s.tripOpened (s.enterCapture c) c P := by
  rw [State.tripOpened, enterCapture_tu]
  exact ⟨rfl, rfl, rfl, _, rfl, by rw [captureRecord_eq], by rw [captureRecord_eq], by rw [captureRecord_eq], hP⟩

end Sys2Proof.Machine
end

section
/-! SUPPORT. Exactly what the raising of a cause does in each trip state. -/

namespace Sys2Proof.Machine

variable {s a b : State} {c : CausePair}

/-- A cause latched, before what its latching does. -/
noncomputable def State.latch (s : State) (c : CausePair) : State := s.onTu (fun t => { t with causes := insertCause c t.causes })

theorem contains_iff (c : CausePair) (l : List CausePair) : l.contains c = true ↔ c ∈ l := List.contains_iff_mem

theorem raise_fresh (h : c ∉ s.tu.causes) : s.raise c = (s.latch c).latched c s.effectiveClass :=
  if_neg (fun e => h ((contains_iff c _).1 e))

theorem raise_latched (h : c ∈ s.tu.causes) (hc : c.cause = .ringLost → s.tu.state ≠ .capture ∧ s.tu.state ≠ .stopping) :
    s.raise c = s := by
  unfold State.raise
  rw [if_pos ((contains_iff c _).2 h), if_neg]
  rintro ⟨h1, h2 | h2⟩
  · exact (hc h1).1 h2
  · exact (hc h1).2 h2

/-- A cause of SYNC or above outside a trip enters CAPTURE. -/
theorem raise_enters (h : c ∉ s.tu.causes) (hs : s.tu.state = .normal ∨ s.tu.state = .releasing)
    (hk : 2 ≤ (s.tu.matrix.get c.cause).rank) : s.raise c = (s.latch c).enterCapture c := by
  have stops : (s.tu.matrix.get c.cause).stops = true := decide_eq_true hk
  have quiet : ¬ (s.latch c).tu.matrix.get c.cause = .notify := fun e => by
    have : (s.tu.matrix.get c.cause).rank = 1 := by rw [show s.tu.matrix.get c.cause = .notify from e]; rfl
    omega
  rw [raise_fresh h, latched_idle (s := s.latch c) c _ hs]
  unfold State.noticed
  rw [if_neg quiet]
  exact if_pos stops

/-- A cause below SYNC outside a trip is latched, and no more but its notice. -/
theorem raise_notifies (h : c ∉ s.tu.causes) (hs : s.tu.state = .normal ∨ s.tu.state = .releasing)
    (hk : (s.tu.matrix.get c.cause).rank < 2) : s.raise c = (s.latch c).noticed c := by
  rw [raise_fresh h, latched_idle (s := s.latch c) c _ hs]
  exact if_neg fun e => absurd (of_decide_eq_true e) (Nat.not_le_of_lt hk)

/-- A cause raised during a trip, but for the second failure. -/
theorem raise_escalates (h : c ∉ s.tu.causes) (hs : ¬ (s.tu.state = .normal ∨ s.tu.state = .releasing))
    (hc : c.cause = .ringLost → s.tu.state = .stopped ∨ s.tu.state = .lockout) :
    s.raise c = (((s.latch c).noticed c).appendSecondary c).riseFrom s.effectiveClass := by
  rw [raise_fresh h]
  rcases tripState_groups s.tu.state with hn | hn | hn
  · exact absurd hn hs
  · rw [latched_stopping (s := s.latch c) c _ hn]
    refine if_neg fun e => ?_
    rcases hc e with h' | h' <;> rcases hn with hn | hn <;> rw [hn] at h' <;> cases h'
  · exact latched_stopped (s := s.latch c) c _ hn

theorem noticed_keeps (s : State) (c : CausePair) : Keeps [.cp] s (s.noticed c) :=
  .ite (keeps_notify s .notify) (.refl _ s)

/-! ### What a raise leaves of the Trip Unit -/

theorem enterLockout_tu (s : State) : s.enterLockout.tu =
    { s.tu with state := .lockout, releaseLevel := none, records := s.enterLockout.tu.records } := by
  have h : s.enterLockout.tu = (((s.appendSecondary ⟨.ringLost, none⟩).reachClass s.effectiveClass).setTrip .lockout).tu :=
    (keeps_orderSections _ _ _).2.2.2 .tu (by decide)
  have e1 := onCurrent_tu s (fun r => r.addSecondary ⟨.ringLost, none⟩)
  have e2 := onCurrent_tu (s.appendSecondary ⟨.ringLost, none⟩) (fun r => { r with highest := r.highest.max s.effectiveClass })
  rw [h, setTrip_tu]
  rw [State.reachClass, e2, State.appendSecondary, e1]
  rfl

/-- A raised cause is latched, and the other causes stay. -/
theorem raise_causes (s : State) (c : CausePair) :
    (s.raise c).tu.causes = if c ∈ s.tu.causes then s.tu.causes else insertCause c s.tu.causes := by
  by_cases h : c ∈ s.tu.causes
  · rw [if_pos h]
    unfold State.raise
    rw [if_pos ((contains_iff c _).2 h)]
    split
    · rw [enterLockout_tu]
    · rfl
  · rw [if_neg h]
    have rise : ∀ k, ((((s.latch c).noticed c).appendSecondary c).riseFrom k).tu.causes = insertCause c s.tu.causes :=
      fun k => by rw [(appendRise_risen _ c k).tu, noticed_tu]; rfl
    have noticed : ((s.latch c).noticed c).tu.causes = insertCause c s.tu.causes := by rw [noticed_tu]; rfl
    rw [raise_fresh h]
    rcases tripState_groups s.tu.state with hn | hn | hn
    · rw [latched_idle (s := s.latch c) c _ hn]
      split
      · rw [enterCapture_tu]; exact noticed
      · exact noticed
    · rw [latched_stopping (s := s.latch c) c _ hn]
      split
      · rw [enterLockout_tu]; exact noticed
      · exact rise _
    · rw [latched_stopped (s := s.latch c) c _ hn]
      exact rise _

theorem raise_mem (s : State) (c : CausePair) : c ∈ (s.raise c).tu.causes := by
  rw [raise_causes]
  split
  · assumption
  · exact (mem_insertCause c c _).2 (.inl rfl)

theorem raise_mono (s : State) (c : CausePair) {d : CausePair} (h : d ∈ s.tu.causes) : d ∈ (s.raise c).tu.causes := by
  rw [raise_causes]
  split
  · exact h
  · exact (mem_insertCause c d _).2 (.inr h)

/-! ### What a raise leaves of a section -/

/-- Only the state of a section, its posted changes and its correction sum may be other than they were. -/
def Section.restOf (x y : Section) : Prop :=
  y = { x with state := y.state, posted := y.posted, corrSum := y.corrSum, corrHeld := y.corrHeld }

theorem Section.restOf.refl (x : Section) : x.restOf x := rfl

theorem Section.restOf.trans {x y z : Section} (h : x.restOf y) (h' : y.restOf z) : x.restOf z := by
  unfold Section.restOf at *
  rw [h', h]

theorem orderTaken_rest {k : Cls} (h : s.orderTaken a k) (i : SlotNo) : (s.slot i).restOf (a.slot i) := by
  rw [h.1 i]
  split
  · rfl
  · rfl

theorem enterLockout_rest (s : State) (i : SlotNo) : (s.slot i).restOf (s.enterLockout.slot i) := by
  have se : (((s.appendSecondary ⟨.ringLost, none⟩).reachClass s.effectiveClass).setTrip .lockout).se = s.se :=
    (setTrip_se _ _).trans (((keeps_reachClass _ _).2.2.2 .se (by decide)).trans
      ((keeps_appendSecondary _ _).2.2.2 .se (by decide)))
  have t := orderTaken_of_se (sectionActions_taken _ .coast) se
  exact orderTaken_rest t i

/-- A raised cause may order the sections, and does no more to them. -/
theorem raise_rest (s : State) (c : CausePair) (i : SlotNo) : (s.slot i).restOf ((s.raise c).slot i) := by
  have noticed : ((s.latch c).noticed c).se = s.se := noticed_se _ _
  have rise : ∀ k, (s.slot i).restOf (((((s.latch c).noticed c).appendSecondary c).riseFrom k).slot i) := by
    intro k
    have r := appendRise_risen ((s.latch c).noticed c) c k
    by_cases h : k.rank < ((s.latch c).noticed c).effectiveClass.rank
    · exact orderTaken_rest (orderTaken_of_se (r.taken h) noticed) i
    · rw [State.slot, State.slot, r.idle h, noticed]; rfl
  have lockout : (s.slot i).restOf (((s.latch c).noticed c).enterLockout.slot i) := by
    have := enterLockout_rest ((s.latch c).noticed c) i
    rwa [State.slot, noticed] at this
  by_cases h : c ∈ s.tu.causes
  · unfold State.raise
    rw [if_pos ((contains_iff c _).2 h)]
    split
    · exact enterLockout_rest s i
    · exact .refl _
  · rw [raise_fresh h]
    rcases tripState_groups s.tu.state with hn | hn | hn
    · rw [latched_idle (s := s.latch c) c _ hn]
      split
      · exact orderTaken_rest (orderTaken_of_se (enterCapture_taken _ c) noticed) i
      · rw [State.slot, State.slot, noticed]; rfl
    · rw [latched_stopping (s := s.latch c) c _ hn]
      split
      · exact lockout
      · exact rise _
    · rw [latched_stopped (s := s.latch c) c _ hn]
      exact rise _

end Sys2Proof.Machine
end

section
/-! SUPPORT. The publication of a setpoint record, its pickup and the drive's report. -/

namespace Sys2Proof.Machine

variable {s : State} {i : SlotNo}

/-! ### Publication -/

/-- The section when its armed record has been published. -/
noncomputable def Section.publishing (x : Section) (rec : SetpointRecord) : Section := { x with armed := none, published := some ⟨rec, false⟩ }

theorem publishRecord_se (s : State) (i : SlotNo) (rec : SetpointRecord) :
    (s.publishRecord i rec).se = { s.se with slots := s.se.slots.set i ((s.slot i).publishing rec) } := rfl

theorem publishRecord_slot (s : State) (i : SlotNo) (rec : SetpointRecord) :
    (s.publishRecord i rec).slot i = (s.slot i).publishing rec := by
  rw [State.slot, publishRecord_se]
  exact Table.get_set_self _ _ _

theorem publishRecord_notice (s : State) (i : SlotNo) (rec : SetpointRecord) :
    ((s.publishRecord i rec).port (s.slot i).port).pending.getLsbD 0 = true := by
  rw [State.publishRecord, port_notifyPort, if_pos rfl]
  simp [Port.addNotice, Notice.mask, Notice.index]

theorem keeps_publishRecord (s : State) (i : SlotNo) (rec : SetpointRecord) :
    Keeps [.se, .cp] s (s.publishRecord i rec) :=
  ((keeps_onSlot s i _).mono (by decide)).trans ((keeps_notifyPort _ _ _).mono (by decide))

/-- The miss count after a supervised publication. -/
noncomputable def Section.nextMiss (x : Section) : Nat :=
  match x.published with
  | none => 0
  | some old => if old.record.state = .released ∨ old.picked then 0 else if x.miss < 255 then x.miss + 1 else 255

/-- The publication of a record is supervised. -/
def Section.watches (x : Section) (rec : SetpointRecord) : Prop :=
  ¬ (rec.state = .vacant ∨ rec.state = .released ∨ x.tol = 0)

theorem publish_unwatched {a : Armed} (h : ¬ (s.slot i).watches a.record) : s.publish i a = s.publishRecord i a.record := by
  unfold State.publish Section.supervise
  rw [if_pos (not_not.1 h)]

theorem publish_watched {a : Armed} (h : (s.slot i).watches a.record) : s.publish i a =
    ((if (s.slot i).tol < (s.slot i).nextMiss then
        (s.onSlot i (fun x => { x with miss := (s.slot i).nextMiss })).raiseSlot .driveSilent i
      else s.onSlot i (fun x => { x with miss := (s.slot i).nextMiss })).publishRecord i a.record) := by
  unfold State.publish Section.supervise
  rw [if_neg h]
  show State.publishRecord (if decide _ = true then _ else _) _ _ = _
  simp only [decide_eq_true_eq]
  rfl

theorem publishDue_due {a : Armed} (h : (s.slot i).armed = some a) (hd : isDue a.due s.hubTime = true) :
    s.publishDue i = s.publish i a := by
  unfold State.publishDue
  rw [h]
  exact if_pos hd

theorem publishDue_idle (h : ∀ a, (s.slot i).armed = some a → isDue a.due s.hubTime = false) : s.publishDue i = s := by
  unfold State.publishDue
  split
  next a ha => rw [h a ha]; rfl
  next => rfl

/-- The miss count that the next supervision of section `i` gives. -/
noncomputable def State.missCounted (s : State) (i : SlotNo) : State := s.onSlot i (fun x => { x with miss := (s.slot i).nextMiss })

theorem missCounted_slot (s : State) (i : SlotNo) : (s.missCounted i).slot i = { s.slot i with miss := (s.slot i).nextMiss } :=
  Table.get_set_self _ _ _

theorem publish_within {a : Armed} (h : (s.slot i).watches a.record) (hm : (s.slot i).nextMiss ≤ (s.slot i).tol) :
    s.publish i a = (s.missCounted i).publishRecord i a.record := by
  rw [publish_watched h, if_neg (Nat.not_lt_of_le hm)]
  rfl

theorem publish_silent {a : Armed} (h : (s.slot i).watches a.record) (hm : ¬ (s.slot i).nextMiss ≤ (s.slot i).tol) :
    s.publish i a = ((s.missCounted i).raiseSlot .driveSilent i).publishRecord i a.record := by
  rw [publish_watched h, if_pos (Nat.lt_of_not_le hm)]
  rfl

theorem nextMiss_eq (x : Section) : x.nextMiss = (match x.published with
    | none => 0
    | some old => if old.picked = true ∨ old.record.state = .released then 0 else min 255 (x.miss + 1)) := by
  unfold Section.nextMiss
  split
  next => rfl
  next old _ =>
    by_cases e : old.record.state = .released ∨ old.picked = true
    · rw [if_pos e, if_pos e.symm]
    · rw [if_neg e, if_neg (mt Or.symm e)]
      split
      · omega
      · omega

/-- What publishes, whatever came before it at the section and at its port. -/
theorem published (s : State) (i : SlotNo) (rec : SetpointRecord) :
    ((s.publishRecord i rec).slot i).armed = none ∧ ((s.publishRecord i rec).slot i).published = some ⟨rec, false⟩
      ∧ ((s.publishRecord i rec).slot i).miss = (s.slot i).miss := by
  rw [publishRecord_slot]
  exact ⟨rfl, rfl, rfl⟩

/-- A publication that raises nothing: what it leaves of the Section Engine. -/
theorem missCounted_published_se (s : State) (i : SlotNo) (rec : SetpointRecord) :
    ((s.missCounted i).publishRecord i rec).se = { s.se with
      slots := s.se.slots.set i
        { s.slot i with armed := none, published := some ⟨rec, false⟩, miss := (s.slot i).nextMiss } } := by
  rw [publishRecord_se, missCounted_slot]
  show ({ s.se with slots := (s.se.slots.set i _).set i _ } : SE) = _
  rw [Table.set_set]
  rfl

end Sys2Proof.Machine

open Sys2Proof Sys2Proof.Machine

/-- Settles O27: a publication that is not supervised, one within the tolerance, and one beyond it. -/
theorem setpointPublication : Obligations.SetpointPublication := by
  intro s t i
  refine ⟨_, rfl, ?_⟩
  split
  next h =>
    rw [publishDue_idle (s := s.advance t) (fun a ha => by rw [show (s.slot i).armed = some a from ha] at h; cases h)]
    exact finish_idle s t
  next a h =>
    split
    next hd =>
      rw [publishDue_idle (s := s.advance t) (fun b hb => by
        rw [show (s.slot i).armed = some b from hb] at h
        cases h
        exact hd)]
      exact finish_idle s t
    next hd =>
      rw [publishDue_due (s := s.advance t) h (Bool.not_eq_false _ |>.mp hd)]
      by_cases hw : (s.slot i).watches a.record
      · by_cases hm : (s.slot i).nextMiss ≤ (s.slot i).tol
        · rw [publish_within (s := s.advance t) hw hm]
          obtain ⟨h1, h2, h3⟩ := published ((s.advance t).missCounted i) i a.record
          rw [missCounted_slot] at h3
          have notice := publishRecord_notice ((s.advance t).missCounted i) i a.record
          rw [missCounted_slot] at notice
          have frame := frame_finish (((keeps_onSlot (s.advance t) i
            (fun x => { x with miss := ((s.advance t).slot i).nextMiss })).mono (by decide)).trans
              (keeps_publishRecord ((s.advance t).missCounted i) i a.record))
          refine ⟨h1, h2, notice, ?_, ?_⟩
          · rw [if_neg hw]
            exact h3.trans (nextMiss_eq _)
          · rw [if_pos (.inl (h3.trans_le hm))]
            refine ⟨frame, ?_⟩
            refine (missCounted_published_se (s.advance t) i a.record).trans ?_
            exact congrArg (fun m => ({ s.se with slots := (s.se.slots.set i
              { s.slot i with armed := none, published := some ⟨a.record, false⟩, miss := m }) } : SE)) h3.symm
        · rw [publish_silent (s := s.advance t) hw hm]
          obtain ⟨h1, h2, h3⟩ := published (((s.advance t).missCounted i).raiseSlot .driveSilent i) i a.record
          have rest := raise_rest ((s.advance t).missCounted i) ⟨.driveSilent, some i⟩ i
          have miss := (congrArg Section.miss rest).trans (by rw [missCounted_slot])
          have port := (congrArg Section.port rest).trans (by rw [missCounted_slot])
          have notice := publishRecord_notice (((s.advance t).missCounted i).raiseSlot .driveSilent i) i a.record
          rw [show ((((s.advance t).missCounted i).raiseSlot .driveSilent i).slot i).port = (s.slot i).port from port] at notice
          have count := h3.trans miss
          refine ⟨h1, h2, notice, ?_, ?_⟩
          · rw [if_neg hw]
            exact count.trans (nextMiss_eq _)
          · rw [if_neg]
            · have tu := (keeps_publishRecord (((s.advance t).missCounted i).raiseSlot .driveSilent i) i a.record).2.2.2 .tu (by decide)
              exact (congrArg TU.causes tu).symm ▸ raise_mem ((s.advance t).missCounted i) ⟨.driveSilent, some i⟩
            · rintro (e | e)
              · exact hm (count.symm.trans_le e)
              · exact hw e
      · rw [publish_unwatched (s := s.advance t) hw]
        obtain ⟨h1, h2, h3⟩ := published (s.advance t) i a.record
        have frame := frame_finish (keeps_publishRecord (s.advance t) i a.record)
        refine ⟨h1, h2, publishRecord_notice (s.advance t) i a.record, ?_, ?_⟩
        · rw [if_pos (not_not.1 hw)]
          exact h3
        · rw [if_pos (.inr (not_not.1 hw))]
          refine ⟨frame, (publishRecord_se (s.advance t) i a.record).trans ?_⟩
          exact congrArg (fun m => ({ s.se with slots := (s.se.slots.set i
            { s.slot i with armed := none, published := some ⟨a.record, false⟩, miss := m }) } : SE)) h3.symm

end

section
/-! SUPPORT. The pickup of a setpoint record, and a drive's report. -/

namespace Sys2Proof.Machine

variable {s : State} {t : HubTime} {i : SlotNo} {p : PortNo} {g : Tag}

/-- A request from a port of another role, once it is finished. -/
theorem request_forbidden {roles : List Role} {block : State → State × Reply}
    (h : s.takes p g [(s.port p).role]) (hr : (s.port p).role ∉ roles) :
    ∃ s', finishRequest s t p g roles block = .next s' ∧ s.frame s' t [.cp]
      ∧ s'.cp = s.cp.answered p g .notPermitted [] := by
  have e : (s.advance t).request p g roles block = (s.advance t).onPort p (fun q => (q.taken g).ready g .notPermitted []) :=
    request_not_permitted (s.advance t) p g h hr
  refine ⟨_, congrArg (finish s) e, frame_finish (keeps_onPort _ _ _), ?_⟩
  simp only [CP.answered]
  rfl

theorem reqSetpointPickup_unpublished (p : PortNo) (h : (s.slot i).published = none) :
    reqSetpointPickup p (some i.val) s = (s, status .badState) := by
  unfold reqSetpointPickup
  rw [argFin_val]
  dsimp only
  rw [h]
  cases (s.slot i).state <;> rfl

theorem reqSetpointPickup_published {p : PortNo} {r : Published} (h : (s.slot i).published = some r) :
    reqSetpointPickup p (some i.val) s =
      if (s.slot i).state = .vacant then (s, status .badState)
      else if p ≠ (s.slot i).port then (s, status .notYours)
      else (s.onSlot i (fun y => { y with published := some { r with picked := true } }), some (.done, r.record.bytes)) := by
  unfold reqSetpointPickup
  rw [argFin_val]
  dsimp only
  rw [h]
  cases (s.slot i).state <;> rfl

theorem reqDriveStatus_eq (p : PortNo) (i : SlotNo) (ready fault following : Bool) (a : Angle) (s : State) :
    reqDriveStatus p (some i.val) (some ready) (some fault) (some following) (some a.toNat) s =
      if (s.slot i).state = .vacant then (s, status .badState)
      else if p ≠ (s.slot i).port then (s, status .notYours)
      else (s.takeReport i ⟨ready, fault, following, a⟩, status .done) := by
  have ha : argFin 16777216 (some a.toNat) = some ⟨a.toNat, a.isLt⟩ := argFin_val ⟨a.toNat, a.isLt⟩
  unfold reqDriveStatus
  rw [argFin_val, ha]
  dsimp only
  rw [BitVec.ofNat_toNat, BitVec.setWidth_eq]

/-! ### A report that passed -/

theorem takeReport_quiet {r : DriveReport} (h : r.fault = false) (h' : r.following = false) :
    s.takeReport i r = s.onSlot i (fun x => { x with report := some r }) := by
  unfold State.takeReport
  rw [h, h']
  rfl

/-- The causes of a report are raised one after the other, each where its flag is up. -/
noncomputable def State.raiseIf (s : State) (b : Bool) (c : CausePair) : State := if b then s.raise c else s

theorem takeReport_eq (s : State) (i : SlotNo) (r : DriveReport) : s.takeReport i r =
    ((s.onSlot i (fun x => { x with report := some r })).raiseIf r.fault ⟨.driveFault, some i⟩).raiseIf r.following
      ⟨.followingError, some i⟩ := rfl

theorem raiseIf_rest (s : State) (b : Bool) (c : CausePair) (j : SlotNo) : (s.slot j).restOf ((s.raiseIf b c).slot j) := by
  cases b
  · exact .refl _
  · exact raise_rest s c j

theorem raiseIf_mem (s : State) {b : Bool} (c : CausePair) (h : b = true) : c ∈ (s.raiseIf b c).tu.causes := by
  subst h
  exact raise_mem s c

theorem raiseIf_mono (s : State) (b : Bool) (c : CausePair) {d : CausePair} (h : d ∈ s.tu.causes) :
    d ∈ (s.raiseIf b c).tu.causes := by
  cases b
  · exact h
  · exact raise_mono s c h

theorem takeReport_report (s : State) (i : SlotNo) (r : DriveReport) : ((s.takeReport i r).slot i).report = some r := by
  have rest := (raiseIf_rest (s.onSlot i (fun x => { x with report := some r })) r.fault ⟨.driveFault, some i⟩ i).trans
    (raiseIf_rest _ r.following ⟨.followingError, some i⟩ i)
  rw [← takeReport_eq] at rest
  exact (congrArg Section.report rest).trans (by rw [slot_onSlot, if_pos rfl])

end Sys2Proof.Machine

open Sys2Proof Sys2Proof.Machine

/-- Settles O28, check by check of the two requests. -/
theorem pickupAndDriveStatus : Obligations.PickupAndDriveStatus := by
  intro s t p g i ready fault following a n role
  refine ⟨fun h hr => ?_, fun h hn => ?_, fun h => ⟨?_, ?_⟩⟩
  · have e : (s.port p).role = role := List.mem_singleton.1 h.2.2
    exact request_forbidden (by rwa [e]) (by rw [e]; exact fun m => hr (List.mem_singleton.1 m))
  · have e : reqSetpointPickup p (some n) (s.handed t p g) = (s.handed t p g, status .badArgument) := by
      rw [reqSetpointPickup, argFin_beyond hn]
    exact (request_refused h e (List.mem_singleton_self _)).imp fun s' a =>
      ⟨a.1, a.2.1, a.2.2.cp⟩
  · cases hp : (s.slot i).published with
    | none =>
      obtain ⟨s', h1, h2, h3⟩ := request_refused (l := [.se, .cp]) h
        (reqSetpointPickup_unpublished (s := s.handed t p g) p hp) (by decide)
      exact ⟨s', h1, h2, h3.se, h3.cp⟩
    | some r =>
      have e := reqSetpointPickup_published (s := s.handed t p g) (p := p) hp
      dsimp only
      by_cases hv : (s.slot i).state = .vacant
      · exact (request_refused (l := [.se, .cp]) h (e.trans (if_pos hv)) (by decide)).imp fun s' a =>
          ⟨a.1, a.2.1, by rw [if_pos hv]; exact ⟨a.2.2.se, a.2.2.cp⟩⟩
      rw [if_neg (c := (State.slot (s.handed t p g) i).state = .vacant) hv] at e
      by_cases ho : p ≠ (s.slot i).port
      · exact (request_refused (l := [.se, .cp]) h (e.trans (if_pos ho)) (by decide)).imp fun s' a =>
          ⟨a.1, a.2.1, by rw [if_neg hv, if_pos ho]; exact ⟨a.2.2.se, a.2.2.cp⟩⟩
      · exact (request_answered (l' := [.se, .cp]) h (e.trans (if_neg ho)) (keeps_onSlot _ _ _)
          (by decide) (by decide)).imp fun s' a =>
          ⟨a.1, a.2.1, by rw [if_neg hv, if_neg ho]; exact ⟨a.2.2.se, a.2.2.cp⟩⟩
  · have e := reqDriveStatus_eq p i ready fault following a (s.handed t p g)
    by_cases hv : (s.slot i).state = .vacant
    · exact (request_refused (l := [.cp]) h (e.trans (if_pos hv)) (by decide)).imp fun s' a =>
        ⟨a.1, by rw [if_pos hv]; exact ⟨a.2.1, a.2.2.cp⟩⟩
    rw [if_neg (c := (State.slot (s.handed t p g) i).state = .vacant) hv] at e
    by_cases ho : p ≠ (s.slot i).port
    · exact (request_refused (l := [.cp]) h (e.trans (if_pos ho)) (by decide)).imp fun s' a =>
        ⟨a.1, by rw [if_neg hv, if_pos ho]; exact ⟨a.2.1, a.2.2.cp⟩⟩
    rw [if_neg (c := p ≠ (State.slot (s.handed t p g) i).port) ho] at e
    have fin : finishRequest s t p g driveOnly (reqDriveStatus p (some i.val) (some ready) (some fault) (some following)
        (some a.toNat)) = .next (markDirty s (State.answer ((s.handed t p g).takeReport i ⟨ready, fault, following, a⟩,
          status .done) p g)) := by
      exact (finishRequest_taken (roles := driveOnly) h).trans (by rw [e])
    refine ⟨_, fin, ?_⟩
    rw [if_neg hv, if_neg ho]
    refine ⟨takeReport_report (s.handed t p g) i ⟨ready, fault, following, a⟩, ?_, fun hf => ?_, fun hf => ?_,
      fun hf hf' => ?_⟩
    · show ((State.respond _ p g .done []).port p).responses.getLast? = _
      rw [State.respond, port_onPort, if_pos rfl]
      exact List.getLast?_concat
    · exact raiseIf_mono _ following _ (raiseIf_mem _ ⟨.driveFault, some i⟩ hf)
    · exact raiseIf_mem _ ⟨.followingError, some i⟩ hf
    · subst hf hf'
      obtain ⟨s', h1, h2, h3⟩ := request_answered (l' := [.se, .cp]) h
        (e.trans (by rw [takeReport_quiet rfl rfl]; rfl)) (keeps_onSlot _ i
          (fun x => { x with report := some ⟨ready, false, false, a⟩ })) (by decide) (by decide)
      cases fin.symm.trans h1
      exact ⟨h2, h3.se, h3.cp⟩

end

section
/-! SUPPORT. The order in which a freeze walk takes its candidates, and what an entry to CAPTURE leaves beside the record. -/

namespace Sys2Proof.Machine

variable {s a b x : State} {c : CausePair}

/-! ### The stable sort of the walk -/

section
variable {α β : Type} {key : α → Nat}

theorem insertByKey_perm (key : α → Nat) (x : α) (l : List α) : (insertByKey key x l).Perm (x :: l) := by
  induction l with
  | nil => exact .refl _
  | cons y l ih =>
    unfold insertByKey
    split
    · exact .refl _
    · exact (ih.cons y).trans (.swap x y l)

theorem sortByKey_perm (key : α → Nat) (l : List α) : (sortByKey key l).Perm l := by
  induction l with
  | nil => exact .refl _
  | cons x l ih => exact (insertByKey_perm key x _).trans (ih.cons x)

theorem insertByKey_sorted (x : α) (l : List α) (h : l.Pairwise (fun a b => key a ≤ key b)) :
    (insertByKey key x l).Pairwise (fun a b => key a ≤ key b) := by
  induction l with
  | nil => exact List.pairwise_singleton _ _
  | cons y l ih =>
    obtain ⟨hy, hl⟩ := List.pairwise_cons.1 h
    unfold insertByKey
    split
    next hle =>
      refine List.pairwise_cons.2 ⟨fun z hz => ?_, h⟩
      rcases List.mem_cons.1 hz with rfl | hz
      · exact hle
      · exact hle.trans (hy z hz)
    next hle =>
      refine List.pairwise_cons.2 ⟨fun z hz => ?_, ih hl⟩
      rcases List.mem_cons.1 ((insertByKey_perm key x l).mem_iff.1 hz) with rfl | hz
      · omega
      · exact hy z hz

theorem sortByKey_sorted (key : α → Nat) (l : List α) : (sortByKey key l).Pairwise (fun a b => key a ≤ key b) := by
  induction l with
  | nil => exact .nil
  | cons x l ih => exact insertByKey_sorted x _ ih

/-- Entries of one key keep their order. -/
theorem insertByKey_filter {p : α → Bool} (hp : ∀ a b, p a = true → p b = true → key a = key b) (x : α) (l : List α) :
    (insertByKey key x l).filter p = (x :: l).filter p := by
  induction l with
  | nil => rfl
  | cons y l ih =>
    unfold insertByKey
    split
    · rfl
    next hle =>
      rw [List.filter_cons, ih]
      by_cases hx : p x = true
      · by_cases hy : p y = true
        · exact absurd (hp x y hx hy).le hle
        · simp [hx, hy]
      · simp [List.filter_cons, hx]

theorem sortByKey_filter {p : α → Bool} (hp : ∀ a b, p a = true → p b = true → key a = key b) (l : List α) :
    (sortByKey key l).filter p = l.filter p := by
  induction l with
  | nil => rfl
  | cons x l ih =>
    rw [show sortByKey key (x :: l) = insertByKey key x (sortByKey key l) from rfl, insertByKey_filter hp,
      List.filter_cons, List.filter_cons, ih]

theorem insertByKey_map (f : β → α) (x : β) (l : List β) :
    insertByKey key (f x) (l.map f) = (insertByKey (fun y => key (f y)) x l).map f := by
  induction l with
  | nil => rfl
  | cons y l ih =>
    simp only [List.map_cons, insertByKey]
    split
    · rfl
    · rw [ih]; rfl

theorem sortByKey_map (f : β → α) (l : List β) : sortByKey key (l.map f) = (sortByKey (fun y => key (f y)) l).map f := by
  induction l with
  | nil => rfl
  | cons x l ih =>
    show insertByKey key (f x) (sortByKey key (l.map f)) = _
    rw [ih, insertByKey_map]
    rfl

end

/-- The strips that a walk examines, in its order. -/
noncomputable def State.walkStrips (s : State) (trip : BitVec 16) : List Strip :=
  sortByKey (fun x => (x.freezeAge trip s.is.span).getD 0)
    (s.is.strips.reverse.filter (fun x => (x.freezeAge trip s.is.span).isSome))

theorem filterMap_aged (age : Strip → Option Nat) (l : List Strip) :
    l.filterMap (fun x => (age x).map (fun d => (d, x.id))) =
      (l.filter (fun x => (age x).isSome)).map (fun x => ((age x).getD 0, x.id)) := by
  induction l with
  | nil => rfl
  | cons x l ih =>
    rw [List.filterMap_cons, List.filter_cons]
    cases h : age x with
    | none => simpa [h] using ih
    | some d => simpa [h] using ih

theorem freezeCandidates_eq (s : State) (trip : BitVec 16) :
    s.freezeCandidates trip = (s.walkStrips trip).map (fun x => x.id) := by
  unfold State.freezeCandidates State.walkStrips
  rw [filterMap_aged (fun x => x.freezeAge trip s.is.span), sortByKey_map, List.map_map]
  rfl

theorem exposedBefore_age (y : Strip) (trip : BitVec 16) (span : Nat) :
    y.exposedBefore trip span = Option.map Int.ofNat (y.freezeAge trip span) := by
  rw [Strip.exposedBefore_eq]
  cases y.freezeAge trip span <;> rfl

theorem freezeCandidates_order (s : State) (trip : BitVec 16) : s.walkOrder trip ((s.freezeCandidates trip).map some) := by
  have mem : ∀ y ∈ s.walkStrips trip, (y.freezeAge trip s.is.span).isSome = true := fun y hy =>
    (List.mem_filter.1 ((sortByKey_perm _ _).mem_iff.1 hy)).2
  refine ⟨s.walkStrips trip, by rw [freezeCandidates_eq, List.map_map]; rfl, fun y hy => ?_, ?_, fun d => ?_⟩
  · rw [exposedBefore_age, Option.isSome_map]
    exact mem y hy
  · refine (sortByKey_sorted (fun y : Strip => (y.freezeAge trip s.is.span).getD 0) _).imp fun {y z} h => ?_
    rw [exposedBefore_age, exposedBefore_age]
    cases hy : y.freezeAge trip s.is.span <;> cases hz : z.freezeAge trip s.is.span <;> simp [hy, hz] at h ⊢ <;> omega
  · have same : ∀ y z : Strip, decide (y.exposedBefore trip s.is.span = some d) = true →
        decide (z.exposedBefore trip s.is.span = some d) = true →
        (y.freezeAge trip s.is.span).getD 0 = (z.freezeAge trip s.is.span).getD 0 := by
      intro y z hy hz
      rw [decide_eq_true_iff, exposedBefore_age, Option.map_eq_some_iff] at hy hz
      obtain ⟨n, hn, en⟩ := hy
      obtain ⟨m, hm, em⟩ := hz
      rw [hn, hm]
      exact Int.ofNat.inj (en.trans em.symm)
    rw [State.walkStrips, sortByKey_filter same, List.filter_filter, ← List.filter_reverse]
    refine List.filter_congr fun y _ => ?_
    rw [exposedBefore_age]
    cases y.freezeAge trip s.is.span <;> simp

/-! ### The walk that an entry to CAPTURE starts -/

/-- Candidates are taken by identity, stamp and reception: a mark more or less on a strip is nothing to them. -/
theorem freezeCandidates_map {f : Strip → Strip} (hs : b.is.strips = a.is.strips.map f) (hp : b.is.span = a.is.span)
    (hf : ∀ x, (f x).id = x.id ∧ (f x).stamp = x.stamp ∧ (f x).receiving = x.receiving) (trip : BitVec 16) :
    b.freezeCandidates trip = a.freezeCandidates trip := by
  have age : ∀ x, (f x).freezeAge trip a.is.span = x.freezeAge trip a.is.span := fun x => by
    unfold Strip.freezeAge
    rw [(hf x).2.1, (hf x).2.2]
  unfold State.freezeCandidates
  rw [hs, hp, ← List.map_reverse, List.filterMap_map]
  refine congrArg (fun l => (sortByKey _ l).map _) (congrArg (fun g => List.filterMap g _) (funext fun x => ?_))
  show ((f x).freezeAge trip a.is.span).map (fun d => (d, (f x).id)) = _
  rw [age, (hf x).1]

theorem dropOldestRecord_candidates (s : State) (trip : BitVec 16) :
    s.dropOldestRecord.freezeCandidates trip = s.freezeCandidates trip := by
  unfold State.dropOldestRecord
  split
  next r rest _ =>
    split
    · refine freezeCandidates_map (a := s) (b := (s.onTu (fun t => { t with records := rest })).unfreeze r.number r.frozen) (f := fun x =>
        if r.frozen.contains x.id then { x with freezeSet := x.freezeSet.erase r.number } else x) rfl rfl (fun x => ?_) trip
      split
      · exact ⟨rfl, rfl, rfl⟩
      · exact ⟨rfl, rfl, rfl⟩
    · rfl
  next => rfl

theorem freezeCandidates_congr (h : a.is = s.is) (trip : BitVec 16) : a.freezeCandidates trip = s.freezeCandidates trip := by
  unfold State.freezeCandidates
  rw [h]

/-- An entry to CAPTURE starts a walk for its record, with every candidate in order. -/
theorem enterCapture_walk (s : State) (c : CausePair) : (s.enterCapture c).is.walk =
    some ⟨s.tu.recordCount + 1, (s.freezeCandidates s.su.tracker.lastCycle).map some, []⟩ := by
  have number : (s.captureRecord c).number = s.tu.recordCount + 1 := by rw [captureRecord_eq]
  have cycle : (s.captureRecord c).cycle = s.su.tracker.lastCycle := by rw [captureRecord_eq]
  have walk : (s.enterCapture c).is.walk = some ⟨(s.captureRecord c).number,
    (State.freezeCandidates (((s.setTrip .capture).openRecord (s.captureRecord c)).sectionActions
      (s.captureRecord c).entryClass) (s.captureRecord c).cycle).map some, []⟩ := rfl
  have act := (keeps_sectionActions ((s.setTrip .capture).openRecord (s.captureRecord c))
    (s.captureRecord c).entryClass).2.2.2 .is (by decide)
  have set := (keeps_setTrip s .capture).2.2.2 .is (by decide)
  rw [walk, number, cycle, freezeCandidates_congr act]
  have opened : ((s.setTrip .capture).openRecord (s.captureRecord c)).freezeCandidates s.su.tracker.lastCycle =
      (s.setTrip .capture).freezeCandidates s.su.tracker.lastCycle := dropOldestRecord_candidates _ _
  rw [opened, freezeCandidates_congr set]

theorem walkOrder_congr (h : a.is.strips = s.is.strips) (hp : a.is.span = s.is.span) {trip : BitVec 16}
    {l : List (Option Nat)} (w : a.walkOrder trip l) : s.walkOrder trip l := by
  unfold State.walkOrder at w ⊢
  rw [h, hp] at w
  exact w

end Sys2Proof.Machine
end

section
/-! SUPPORT. A cause of the whole hub that a line or the operator raises: where it starts, and what the hub shows after it. -/

namespace Sys2Proof.Machine

variable {s a b x : State} {t : HubTime} {c : CausePair}

/-- `x` is the hub as a trip line or STOP PRESS finds it: as it was, but for the time, the level of a line and the tag
taken at a port. -/
structure Stands (s : State) (t : HubTime) (x : State) : Prop where
  time : x.hubTime = t
  rc : x.rc.hubAddress = s.rc.hubAddress
  su : x.su = s.su
  se : x.se = s.se
  ru : x.ru = s.ru
  tu : x.tu = { s.tu with tripInLow := x.tu.tripInLow, webBrk := x.tu.webBrk }
  is : x.is = s.is
  im : x.im = s.im
  routes : x.cp.routes = s.cp.routes

/-- `b` shows all that `a` does of these blocks, and has at its ports what is there in `a`. -/
structure Shows (a b : State) : Prop where
  su : b.su = a.su
  se : b.se = a.se
  ru : b.ru = a.ru
  tu : b.tu = a.tu
  is : b.is = a.is
  im : b.im = a.im
  responses : ∀ q, ∀ r ∈ (a.port q).responses, r ∈ (b.port q).responses
  pending : ∀ q, (b.port q).pending = (a.port q).pending

theorem Shows.markDirty (s a : State) : Shows a (markDirty s a) :=
  ⟨rfl, rfl, rfl, rfl, rfl, rfl, fun _ _ h => h, fun _ => rfl⟩

theorem Shows.respond (s a : State) (p : PortNo) (g : Tag) (st : Status) (l : List Byte) :
    Shows a (Machine.markDirty s (a.respond p g st l)) := by
  refine ⟨rfl, rfl, rfl, rfl, rfl, rfl, fun q r h => ?_, fun q => ?_⟩
  · show r ∈ ((a.respond p g st l).port q).responses
    rw [State.respond, port_onPort]
    split
    next e => subst e; exact List.mem_append_left _ h
    next => exact h
  · show ((a.respond p g st l).port q).pending = _
    rw [State.respond, port_onPort]
    split
    next e => subst e; rfl
    next => rfl

theorem Shows.effectiveClass (h : Shows a b) : b.effectiveClass = a.effectiveClass :=
  effectiveClass_tu (by rw [h.tu]) (by rw [h.tu]) (by rw [h.tu]) (by rw [h.tu])

theorem Shows.orderTaken {k : Cls} (h : Shows a b) (o : s.orderTaken a k) : s.orderTaken b k := by
  obtain ⟨h1, h2, h3, h4, h5⟩ := o
  refine ⟨fun i => ?_, ?_, ?_, ?_, fun f hf hi => h.responses _ _ (h5 f hf hi)⟩
  · rw [State.slot, h.se]
    exact h1 i
  · rw [h.se]; exact h2
  · rw [h.se]; exact h3
  · rw [h.se]; exact h4

theorem Shows.currentBecomes {f : TripRecord → TripRecord} (h : Shows a b) (o : s.currentBecomes a f) :
    s.currentBecomes b f := by
  unfold State.currentBecomes at o ⊢
  rw [h.tu]
  exact o

/-- The three that raise a cause of the whole hub: each finds the hub standing, and shows what the raise has made of it. -/
theorem raised_row {s : State} {t : HubTime} {p : PortNo} {g : Tag} {c : Instr × Cause}
    (hc : c ∈ [(Instr.tripIn t, Cause.tripIn), (Instr.webBrk t, Cause.webBreak), (Instr.stopPress t p g, Cause.operatorStop)])
    (h1 : c.2 = .tripIn → s.tu.tripInLow = false) (h2 : c.2 = .webBreak → s.tu.webBrk = false)
    (h3 : c.2 = .operatorStop → s.takes p g [.desk, .panel]) :
    ∃ x s', Stands s t x ∧ exec c.1 s = .next s' ∧ Shows (x.raise ⟨c.2, none⟩) s'
      ∧ (c.2 = .operatorStop → (s'.port p).responses.getLast? = some ⟨g, .done, []⟩) := by
  rcases List.mem_cons.1 hc with rfl | hc
  · have e : (s.advance t).tripInFalls = ((s.advance t).onTu (fun u => { u with tripInLow := true })).raise ⟨.tripIn, none⟩ :=
      if_neg (by rw [show (s.advance t).tu.tripInLow = false from h1 rfl]; exact Bool.false_ne_true)
    exact ⟨(s.advance t).onTu (fun u => { u with tripInLow := true }), _, ⟨rfl, rfl, rfl, rfl, rfl, rfl, rfl, rfl, rfl⟩,
      congrArg (finish s) e, Shows.markDirty _ _, fun h => nomatch h⟩
  rcases List.mem_cons.1 hc with rfl | hc
  · have e : (s.advance t).webBrkRises = ((s.advance t).onTu (fun u => { u with webBrk := true })).raise ⟨.webBreak, none⟩ :=
      if_neg (by rw [show (s.advance t).tu.webBrk = false from h2 rfl]; exact Bool.false_ne_true)
    exact ⟨(s.advance t).onTu (fun u => { u with webBrk := true }), _, ⟨rfl, rfl, rfl, rfl, rfl, rfl, rfl, rfl, rfl⟩,
      congrArg (finish s) e, Shows.markDirty _ _, fun h => nomatch h⟩
  · cases List.mem_singleton.1 hc
    refine ⟨s.handed t p g, _, ⟨rfl, rfl, rfl, rfl, rfl, rfl, rfl, rfl, rfl⟩, finishRequest_taken (roles := deskPanel) (h3 rfl),
      Shows.respond _ _ p g .done [], fun _ => ?_⟩
    show ((State.respond _ p g .done []).port p).responses.getLast? = _
    rw [State.respond, port_onPort, if_pos rfl]
    exact List.getLast?_concat

section
variable {s x : State} {t : HubTime} (st : Stands s t x)
include st

theorem Stands.state : x.tu.state = s.tu.state := by rw [st.tu]
theorem Stands.matrix : x.tu.matrix = s.tu.matrix := by rw [st.tu]
theorem Stands.causes : x.tu.causes = s.tu.causes := by rw [st.tu]
theorem Stands.carried : x.tu.carried = s.tu.carried := by rw [st.tu]
theorem Stands.carriedMask : x.tu.carriedMask = s.tu.carriedMask := by rw [st.tu]
theorem Stands.records : x.tu.records = s.tu.records := by rw [st.tu]
theorem Stands.recordCount : x.tu.recordCount = s.tu.recordCount := by rw [st.tu]
theorem Stands.current : x.tu.current = s.tu.current := by rw [st.tu]

theorem Stands.effectiveClass : x.effectiveClass = s.effectiveClass :=
  effectiveClass_tu st.state st.causes st.matrix st.carried

/-- The mask of the record opened after a latching, as the hub before it and the hub after it give it. -/
theorem Stands.maskAtEntry {a b : State} (c : CausePair) (h : b.tu = a.tu) :
    (x.latch c).maskAtEntry a = s.maskAtEntry b := by
  have own : a.ownClass = b.ownClass := by
    unfold State.ownClass State.latchedClass
    rw [h]
  unfold State.maskAtEntry
  rw [own, show (x.latch c).rc = x.rc from rfl, st.rc, show (x.latch c).tu.carriedMask = x.tu.carriedMask from rfl,
    st.carriedMask]

theorem Stands.snapshots (c : CausePair) : (x.latch c).snapshots = s.snapshots := by
  unfold State.snapshots State.slot
  rw [show (x.latch c).se = x.se from rfl, st.se]

end

/-- The effective class of a trip whose one latched cause is `c`, with nothing carried. -/
theorem effectiveClass_alone (hs : a.tu.state = .capture) (hc : a.tu.causes = [c]) (hk : a.tu.carried = .noClass) :
    a.effectiveClass = a.tu.matrix.get c.cause := by
  unfold State.effectiveClass State.ownClass State.latchedClass classOfCauses
  rw [hs, hc, hk, Cls.max_noClass]
  show Cls.noClass.max _ = _
  cases a.tu.matrix.get c.cause <;> rfl

/-- A cause of class NOTIFY gives notice NOTIFY. -/
theorem noticed_pending (hk : a.tu.matrix.get c.cause = .notify) {q : PortNo} (hq : a.cp.routes.notify.getLsbD q = true) :
    ((a.noticed c).port q).pending.getLsbD 4 = true := by
  rw [State.noticed, if_pos hk, port_notify, if_pos (show (a.cp.routes.of .notify).getLsbD q = true from hq)]
  simp [Port.addNotice, Notice.mask, Notice.index]

/-- A pair appended and a rise of the class set no notice and take none. -/
theorem appendRise_pending (a : State) (c : CausePair) (k : Cls) (q : PortNo) :
    (((a.appendSecondary c).riseFrom k).port q).pending = (a.port q).pending := by
  have append : ∀ q, (a.appendSecondary c).port q = a.port q := fun q => by
    rw [State.port, (keeps_appendSecondary a c).2.2.2 .cp (by decide)]
    rfl
  rw [riseFrom_eq]
  split
  · obtain ⟨l, hl, -⟩ := sectionActions_port ((a.appendSecondary c).reachClass (a.appendSecondary c).effectiveClass)
      (a.appendSecondary c).effectiveClass q
    have reach : ((a.appendSecondary c).reachClass (a.appendSecondary c).effectiveClass).cp = (a.appendSecondary c).cp :=
      (keeps_reachClass _ _).2.2.2 .cp (by decide)
    rw [hl]
    show (State.port _ q).pending = _
    rw [State.port, reach]
    exact congrArg Port.pending (append q)
  · rw [append]

end Sys2Proof.Machine

open Sys2Proof Sys2Proof.Machine

/-- Settles O33: the entry to CAPTURE, and the latching that enters none. -/
theorem tripEntry : Obligations.TripEntry := by
  intro s t p g calm c hc h1 h2 h3 fresh
  obtain ⟨x, s', st, run, sh, answered⟩ := raised_row hc h1 h2 h3
  have fresh' : (⟨c.2, none⟩ : CausePair) ∉ x.tu.causes := by rwa [st.causes]
  have member : ⟨c.2, none⟩ ∈ s'.tu.causes := by rw [sh.tu]; exact raise_mem x _
  have stay : ∀ d ∈ s.tu.causes, d ∈ s'.tu.causes := fun d hd => by rw [sh.tu]; exact raise_mono x _ (by rwa [st.causes])
  have kept := keeps_raise x ⟨c.2, none⟩
  have su : s'.su = s.su := sh.su.trans ((kept.2.2.2 .su (by decide)).trans st.su)
  have ru : s'.ru = s.ru := sh.ru.trans ((kept.2.2.2 .ru (by decide)).trans st.ru)
  have im : s'.im = s.im := sh.im.trans ((kept.2.2.2 .im (by decide)).trans st.im)
  have notRing : c.2 ≠ .ringLost := by
    rcases List.mem_cons.1 hc with rfl | hc
    · exact fun h => nomatch h
    rcases List.mem_cons.1 hc with rfl | hc
    · exact fun h => nomatch h
    · cases List.mem_singleton.1 hc
      exact fun h => nomatch h
  refine ⟨fun hcalm hk => ?_, fun hk => ?_⟩
  · rw [raise_enters (s := x) fresh' (by rwa [st.state]) (by rwa [st.matrix])] at sh
    have tu := sh.tu.trans (enterCapture_tu (x.latch ⟨c.2, none⟩) ⟨c.2, none⟩)
    have opened := captureRecord_eq (x.latch ⟨c.2, none⟩) ⟨c.2, none⟩
    have cls := sh.effectiveClass
    have taken : s.orderTaken s' s'.effectiveClass := by
      refine sh.orderTaken (orderTaken_of_se (a := x.latch ⟨c.2, none⟩) ?_ st.se)
      rw [cls]
      exact enterCapture_taken _ _
    have number : ((x.latch ⟨c.2, none⟩).captureRecord ⟨c.2, none⟩).number = s.tu.recordCount + 1 := by
      rw [opened]
      exact congrArg (· + 1) st.recordCount
    have cycle : ((x.latch ⟨c.2, none⟩).captureRecord ⟨c.2, none⟩).cycle = s.su.tracker.lastCycle := by
      rw [opened]
      exact congrArg (fun u : SU => u.tracker.lastCycle) st.su
    refine ⟨s', (x.latch ⟨c.2, none⟩).captureRecord ⟨c.2, none⟩, run, su, ru, im, member, stay, by rw [tu], ?_, ?_, ?_, number,
      by rw [opened], by rw [cls, opened], by rw [cls, opened], cycle, ?_, ?_, ?_, by rw [opened], by rw [opened],
      by rw [opened], ?_, ?_, ?_, fun hn hz i => ?_, taken, answered⟩
    · rw [tu]
      exact congrArg (· + 1) st.recordCount
    · rw [tu]
      exact congrArg (fun n => some (n + 1)) st.recordCount
    · rw [tu]
      show (if 4 ≤ x.tu.records.length then x.tu.records.tail else x.tu.records) ++ _ = _
      rw [st.records]
    · rw [opened]
      exact st.time
    · rw [opened]
      exact congrArg (fun u : SU => u.tracker.angle) st.su
    · rw [opened]
      exact congrArg (fun u : SU => u.tracker.lastV) st.su
    · rw [opened]
      exact st.snapshots _
    · rw [opened]
      exact st.maskAtEntry _ sh.tu
    · refine ⟨_, sh.is ▸ enterCapture_walk _ _, ?_, rfl, ?_⟩
      · rw [number]
        exact congrArg (· + 1) st.recordCount
      · rw [cycle]
        have order := freezeCandidates_order (x.latch ⟨c.2, none⟩) (x.latch ⟨c.2, none⟩).su.tracker.lastCycle
        rw [show (x.latch ⟨c.2, none⟩).su = s.su from st.su] at order ⊢
        exact walkOrder_congr (congrArg IS.strips st.is) (congrArg IS.span st.is) order
    · have alone : s'.effectiveClass = s.tu.matrix.get c.2 := by
        refine (effectiveClass_alone (c := ⟨c.2, none⟩) (by rw [tu]) ?_ ?_).trans ?_
        · rw [tu]
          show insertCause _ x.tu.causes = _
          rw [st.causes, hn]
          rfl
        · rw [tu]
          exact st.carried.trans hz
        · rw [tu]
          exact congrArg (fun m : Matrix => m.get c.2) st.matrix
      rw [alone] at taken
      refine ⟨?_, (congrArg Section.position (orderTaken_rest taken i)).trans rfl⟩
      rw [orderTaken_state taken i]
      cases s.tu.matrix.get c.2 <;> cases (s.slot i).state <;> rfl
  · by_cases hcalm : calm
    · rw [raise_notifies (s := x) fresh' (by rwa [st.state]) (by rw [st.matrix]; exact hk hcalm)] at sh
      have tu := sh.tu.trans (noticed_tu (x.latch ⟨c.2, none⟩) ⟨c.2, none⟩)
      have is := sh.is.trans ((noticed_keeps (x.latch ⟨c.2, none⟩) ⟨c.2, none⟩).2.2.2 .is (by decide))
      have se := sh.se.trans (noticed_se (x.latch ⟨c.2, none⟩) ⟨c.2, none⟩)
      refine ⟨s', run, su, ru, im, is.trans st.is, member, stay, ?_, ?_, ?_, fun hn q hq => ?_, ?_, answered⟩
      · rw [tu]; exact st.state
      · rw [tu]; exact st.recordCount
      · rw [tu]; exact st.current
      · rw [sh.pending]
        exact noticed_pending (show x.tu.matrix.get c.2 = _ by rw [st.matrix]; exact hn)
          (show x.cp.routes.notify.getLsbD q = _ by rw [st.routes]; exact hq)
      · rw [if_pos hcalm]
        exact ⟨by rw [tu]; exact st.records, se.trans st.se⟩
    · rw [raise_escalates (s := x) fresh' (by rwa [st.state]) (fun h => absurd h notRing), st.effectiveClass] at sh
      have risen := appendRise_risen ((x.latch ⟨c.2, none⟩).noticed ⟨c.2, none⟩) ⟨c.2, none⟩ s.effectiveClass
      have tu := sh.tu.trans risen.tu
      have latched := noticed_tu (x.latch ⟨c.2, none⟩) ⟨c.2, none⟩
      have cls : s'.effectiveClass = ((x.latch ⟨c.2, none⟩).noticed ⟨c.2, none⟩).effectiveClass :=
        effectiveClass_tu (by rw [tu]) (by rw [tu]) (by rw [tu]) (by rw [tu])
      have rise : Keeps [.se, .tu, .cp] (x.latch ⟨c.2, none⟩)
          ((((x.latch ⟨c.2, none⟩).noticed ⟨c.2, none⟩).appendSecondary ⟨c.2, none⟩).riseFrom s.effectiveClass) :=
        ((noticed_keeps _ _).mono (by decide)).trans
          (((keeps_appendSecondary _ _).mono (by decide)).trans (keeps_riseFrom _ _))
      refine ⟨s', run, su, ru, im, ?_, member, stay, ?_, ?_, ?_, fun hn q hq => ?_, ?_, answered⟩
      · exact sh.is.trans ((rise.2.2.2 .is (by decide)).trans st.is)
      · rw [tu, latched]; exact st.state
      · rw [tu, latched]; exact st.recordCount
      · rw [tu, latched]; exact st.current
      · rw [sh.pending, appendRise_pending]
        exact noticed_pending (show x.tu.matrix.get c.2 = _ by rw [st.matrix]; exact hn)
          (show x.cp.routes.notify.getLsbD q = _ by rw [st.routes]; exact hq)
      · rw [if_neg hcalm]
        refine ⟨?_, ?_⟩
        · rw [cls]
          refine sh.currentBecomes (risen.record.of_tu ?_ ?_)
          · rw [latched]; exact st.records
          · rw [latched]; exact st.current
        · rw [cls]
          have se := (noticed_se (x.latch ⟨c.2, none⟩) ⟨c.2, none⟩).trans st.se
          split
          next h => exact sh.orderTaken (orderTaken_of_se (risen.taken h) se)
          next h => exact sh.se.trans ((risen.idle h).trans se)

end

section
/-! SUPPORT. The trip matrix as MATRIX SET leaves it, and what the new classes do to the causes latched. -/

namespace Sys2Proof.Machine

variable {s a x : State} {t : HubTime} {p : PortNo} {g : Tag} {c : CausePair}

/-! ### The classes named -/

theorem get_put (m : Matrix) {c d : Cause} (k : Cls) (h : c ≠ .remote) :
    (m.put c k).get d = if c = d then k else m.get d := by
  cases c
  case remote => exact absurd rfl h
  all_goals cases d <;> rfl

/-- The cause and the class that a pair of MATRIX SET names. -/
noncomputable def causeAt (q : Nat × Nat) : Cause := (Cause.ofNumber q.1).getD .remote
noncomputable def classAt (q : Nat × Nat) : Cls := (Cls.ofCode q.2).getD .noClass

/-- A pair of MATRIX SET is in range. -/
def pairInRange (q : Nat × Nat) : Prop := q.1 ≤ 8 ∧ q.2 ≤ 3

theorem ofNumber_some {n : Nat} (h : n ≤ 8) : ∃ c, Cause.ofNumber n = some c ∧ c.number = n ∧ c ≠ .remote := by
  interval_cases n <;> exact ⟨_, rfl, rfl, fun e => nomatch e⟩

theorem ofCode_some {n : Nat} (h : n ≤ 3) :
    Cls.ofCode n = some (if n = 0 then .notify else if n = 1 then .sync else if n = 2 then .quick else .coast) := by
  interval_cases n <;> rfl

theorem causeAt_number {q : Nat × Nat} (h : pairInRange q) : (causeAt q).number = q.1 ∧ causeAt q ≠ .remote := by
  obtain ⟨c, h1, h2, h3⟩ := ofNumber_some h.1
  rw [causeAt, h1]
  exact ⟨h2, h3⟩

theorem number_inj {c d : Cause} (h : c.number = d.number) : c = d :=
  congrArg CausePair.cause (CausePair.key_inj (a := ⟨c, none⟩) (b := ⟨d, none⟩) (by simp only [CausePair.key, h]))

theorem matrixPairs_eq {pairs : List (Nat × Nat)} (h : ∀ q ∈ pairs, pairInRange q) :
    matrixPairs pairs = some (pairs.map (fun q => (causeAt q, classAt q))) := by
  induction pairs with
  | nil => rfl
  | cons q l ih =>
    obtain ⟨c, h1, -, -⟩ := ofNumber_some (h q List.mem_cons_self).1
    have h2 := ofCode_some (h q List.mem_cons_self).2
    rw [matrixPairs, h1, h2, ih fun q hq => h q (List.mem_cons_of_mem _ hq)]
    simp only [List.map_cons, causeAt, classAt, h1, h2, Option.getD_some]

/-- The class that a pair gives its cause. -/
noncomputable def givenClass (q : Nat × Nat) : Cls := (classAt q).max (causeAt q).minimum

theorem minimum_eq (c : Cause) : c.minimum = if c = .tripIn ∨ c = .ringLost then .quick else .notify := by cases c <;> rfl

theorem givenClass_eq {q : Nat × Nat} (h : q.2 ≤ 3) : givenClass q =
    if (causeAt q = .tripIn ∨ causeAt q = .ringLost) ∧ q.2 < 2 then .quick
    else if q.2 = 0 then .notify else if q.2 = 1 then .sync else if q.2 = 2 then .quick else .coast := by
  rw [givenClass, classAt, ofCode_some h, minimum_eq]
  obtain ⟨n, k⟩ := q
  dsimp only at h ⊢
  by_cases hc : causeAt (n, k) = .tripIn ∨ causeAt (n, k) = .ringLost
  · simp only [hc, true_and, if_true]
    interval_cases k <;> rfl
  · simp only [hc, false_and, if_false]
    interval_cases k <;> rfl

/-- A matrix with the classes of a list of pairs put into it. -/
noncomputable def Matrix.putAll (m : Matrix) (pairs : List (Nat × Nat)) : Matrix :=
  pairs.foldl (fun m q => m.put (causeAt q) (givenClass q)) m

theorem putAll_get (m : Matrix) (pairs : List (Nat × Nat)) (c : Cause) (h : ∀ q ∈ pairs, pairInRange q)
    (hd : (pairs.map (fun q => q.1)).Nodup) :
    (m.putAll pairs).get c = ((pairs.find? (fun q => q.1 == c.number)).map givenClass).getD (m.get c) := by
  induction pairs generalizing m with
  | nil => rfl
  | cons q l ih =>
    obtain ⟨hn, hr⟩ := causeAt_number (h q List.mem_cons_self)
    obtain ⟨hq, hl⟩ := List.nodup_cons.1 hd
    have rest := ih (m.put (causeAt q) (givenClass q)) (fun q hq => h q (List.mem_cons_of_mem _ hq)) hl
    rw [get_put _ _ hr] at rest
    refine rest.trans ?_
    rw [List.find?_cons]
    by_cases e : causeAt q = c
    · have none : l.find? (fun q => q.1 == c.number) = none := by
        refine List.find?_eq_none.2 fun q' hq' he => hq ?_
        show q.1 ∈ _
        rw [← hn, e, ← beq_iff_eq.1 he]
        exact List.mem_map_of_mem hq'
      rw [none, if_pos e, show (q.1 == c.number) = true from beq_iff_eq.2 (by rw [← e, hn])]
      rfl
    · rw [if_neg e, show (q.1 == c.number) = false from beq_eq_false_iff_ne.2 fun he => e (number_inj (hn.trans he))]

/-- The matrix that MATRIX SET stores, from the pairs as it reads them. -/
theorem raised_putAll (m : Matrix) (pairs : List (Nat × Nat)) :
    ((pairs.map (fun q => (causeAt q, classAt q))).map raiseToMinimum).foldl (fun m p => m.put p.1 p.2) m =
      m.putAll pairs := by
  rw [List.map_map, List.foldl_map]
  rfl

/-- A class was raised exactly when one of the two causes with a least class was given less. -/
theorem raised_iff {pairs : List (Nat × Nat)} (h : ∀ q ∈ pairs, pairInRange q) :
    (pairs.map (fun q => (causeAt q, classAt q))).map raiseToMinimum = pairs.map (fun q => (causeAt q, classAt q)) ↔
      ¬ ∃ q ∈ pairs, (q.1 = 0 ∨ q.1 = 2) ∧ q.2 < 2 := by
  have one : ∀ q, pairInRange q →
      (raiseToMinimum (causeAt q, classAt q) = (causeAt q, classAt q) ↔ ¬ ((q.1 = 0 ∨ q.1 = 2) ∧ q.2 < 2)) := by
    have all : ∀ (n : Fin 9) (k : Fin 4), raiseToMinimum (causeAt (n.val, k.val), classAt (n.val, k.val))
        = (causeAt (n.val, k.val), classAt (n.val, k.val)) ↔ ¬ ((n.val = 0 ∨ n.val = 2) ∧ k.val < 2) := by decide
    exact fun q hq => all ⟨q.1, Nat.lt_succ_of_le hq.1⟩ ⟨q.2, Nat.lt_succ_of_le hq.2⟩
  rw [List.map_map, List.map_inj_left]
  constructor
  · rintro e ⟨q, hq, hb⟩
    exact (one q (h q hq)).1 (e q hq) hb
  · intro e q hq
    exact (one q (h q hq)).2 fun hb => e ⟨q, hq, hb⟩

/-! ### The causes of SYNC or above -/

theorem stopping_eq (s : State) : s.tu.causes.filter (fun c => (s.tu.matrix.get c.cause).stops) = s.stopping := rfl

theorem matrixChanged_quiet (hs : s.tu.state = .normal ∨ s.tu.state = .releasing) (k : Cls) (h : s.stopping = []) :
    s.matrixChanged k = s := by
  unfold State.matrixChanged
  rw [stopping_eq, h]
  rcases hs with hs | hs <;> rw [hs]

theorem matrixChanged_enters (hs : s.tu.state = .normal ∨ s.tu.state = .releasing) (k : Cls) {rest : List CausePair}
    (h : s.stopping = c :: rest) :
    s.matrixChanged k = rest.foldl (fun s c => s.appendSecondary c) (s.enterCapture c) := by
  unfold State.matrixChanged
  rw [stopping_eq, h]
  rcases hs with hs | hs <;> rw [hs]

theorem matrixChanged_rise (hs : ¬ (s.tu.state = .normal ∨ s.tu.state = .releasing)) (k : Cls) :
    s.matrixChanged k = s.riseFrom k := by
  unfold State.matrixChanged
  cases h : s.tu.state
  case normal => exact absurd (.inl h) hs
  case releasing => exact absurd (.inr h) hs
  all_goals rfl

theorem causesLaw_nodup (h : s.causesLaw = true) : s.tu.causes.Nodup := by
  refine (of_decide_eq_true h).imp fun {a b} hab e => ?_
  subst e
  exact absurd ((CausePair.before_iff _ _).1 hab) (lt_irrefl _)

/-- The pairs appended one after the other to the newest record, which is the current one. -/
theorem appendAll_tu {init : List TripRecord} {r : TripRecord} (l : List CausePair) (a : State)
    (hr : a.tu.records = init ++ [r]) (hc : a.tu.current = some r.number) :
    (l.foldl (fun s c => s.appendSecondary c) a).tu = { a.tu with records := init ++ [l.foldl TripRecord.addSecondary r] } := by
  induction l generalizing a r with
  | nil => rw [List.foldl_nil, List.foldl_nil, ← hr]
  | cons c l ih =>
    have tu := onCurrent_tu a (fun r => r.addSecondary c)
    have named := (onCurrent_becomes a (fun r => r.addSecondary c)).1 init r [] ⟨hr, hc, fun q hq => nomatch hq⟩
    rw [List.foldl_cons, List.foldl_cons, ih (a.appendSecondary c) named, State.appendSecondary, tu]
    rw [State.appendSecondary, tu, addSecondary_number]
    exact hc

theorem appendAll_keeps (l : List CausePair) (a : State) : Keeps [.tu] a (l.foldl (fun s c => s.appendSecondary c) a) :=
  Keeps.foldl keeps_appendSecondary l a

/-- Distinct pairs other than the first cause fill the secondary list up to its 8 places. -/
theorem addSecondary_all (l : List CausePair) (r : TripRecord) (h : (r.secondary ++ l).Nodup) (hf : r.first ∉ l)
    (h8 : r.secondary.length ≤ 8) :
    l.foldl TripRecord.addSecondary r = { r with secondary := r.secondary ++ l.take (8 - r.secondary.length) } := by
  induction l generalizing r with
  | nil => simp
  | cons c l ih =>
    have fresh : ¬ r.secondary.contains c = true := fun e =>
      (List.nodup_append.1 h).2.2 c (List.contains_iff_mem.1 e) c List.mem_cons_self rfl
    have other : c ≠ r.first := fun e => hf (e ▸ List.mem_cons_self)
    have rest : r.first ∉ l := fun e => hf (List.mem_cons_of_mem _ e)
    rw [List.foldl_cons]
    by_cases full : r.secondary.length < 8
    · have e : r.addSecondary c = { r with secondary := r.secondary ++ [c] } := if_pos ⟨full, fresh, other⟩
      have room : 8 - r.secondary.length = (8 - (r.secondary.length + 1)) + 1 := by
        rw [Nat.sub_add_eq, Nat.sub_add_cancel (Nat.sub_pos_of_lt full)]
      rw [e, ih { r with secondary := r.secondary ++ [c] } (by simpa using h) rest (by simpa using full), room, List.take_succ_cons]
      simp
    · have e : r.addSecondary c = r := if_neg fun hh => full hh.1
      have nodup : (r.secondary ++ l).Nodup := by
        refine h.sublist (List.Sublist.append_left (List.sublist_cons_self c l) _)
      have none : 8 - r.secondary.length = 0 := Nat.sub_eq_zero_of_le (Nat.le_of_not_lt full)
      rw [e, ih r nodup rest h8, none]
      rfl

/-! ### What an entry to CAPTURE does at the ports -/

theorem sectionActions_cp (h : s.se.fences = []) (k : Cls) : (s.sectionActions k).cp = s.cp := by
  have order : ∀ p st, (s.orderSections p st).cp = s.cp := fun p st => by
    have e : (s.orderSections p st).cp = (s.discardSlots p).cp := rfl
    rw [e, State.discardSlots, h]
    rfl
  cases k with
  | quick => exact order _ _
  | coast => exact order _ _
  | noClass => rfl
  | notify => rfl
  | sync => rfl

/-- With no FENCE waiting an entry to CAPTURE gives notice TRIP, and does no more at the ports. -/
theorem enterCapture_cp (h : s.se.fences = []) (c : CausePair) :
    (s.enterCapture c).cp = s.cp.notified s.cp.routes.trip 8#11 := by
  have act : (s.enterCapture c).cp = (((s.setTrip .capture).openRecord (s.captureRecord c)).sectionActions
    (s.captureRecord c).entryClass).cp := rfl
  have fences : ((s.setTrip .capture).openRecord (s.captureRecord c)).se.fences = [] := by
    rw [(keeps_openRecord (s.setTrip .capture) (s.captureRecord c)).2.2.2 .se (by decide)]
    exact (congrArg SE.fences (setTrip_se s .capture)).trans h
  rw [act, sectionActions_cp fences, (keeps_openRecord (s.setTrip .capture) (s.captureRecord c)).2.2.2 .cp (by decide)]
  rw [State.setTrip, (keeps_checkReformation _).2.2.2 .cp (by decide), notify_cp]
  rfl

/-- The notice and the taking of a request are at different fields of a port. -/
theorem notified_answered (c : CP) (p : PortNo) (g : Tag) (st : Status) (l : List Byte) (route : BitVec 4) (k : BitVec 11) :
    ((c.waiting p g).notified route k).withPort p ((((c.waiting p g).notified route k).ports.get p).ready g st l) =
      (c.notified route k).answered p g st l := by
  unfold CP.answered CP.withPort
  have ports : ((c.waiting p g).notified route k).ports.set p ((((c.waiting p g).notified route k).ports.get p).ready g st l) =
      (c.notified route k).ports.set p ((((c.notified route k).ports.get p).taken g).ready g st l) := by
    refine Table.ext_get fun q => ?_
    rw [Table.get_set, Table.get_set]
    by_cases e : p = q
    · subst e
      rw [if_pos rfl, if_pos rfl]
      simp only [CP.notified, CP.waiting, Table.get_mapIdx, Table.get_set_self]
      split <;> rfl
    · rw [if_neg e, if_neg e]
      simp only [CP.notified, CP.waiting, Table.get_mapIdx, Table.get_set_other _ _ e]
  rw [ports]
  rfl

/-! ### MATRIX SET -/

/-- The hub with the classes of `pairs` in its matrix, before what they do. -/
noncomputable def State.reclassed (s : State) (pairs : List (Nat × Nat)) : State :=
  s.onTu (fun u => { u with matrix := u.matrix.putAll pairs })

/-- The form of the request that passes. -/
theorem pairs_wellFormed {pairs : List (Nat × Nat)} (h1 : 1 ≤ pairs.length) (h9 : pairs.length ≤ 9)
    (hd : (pairs.map (fun q => q.1)).Nodup) : ¬ (pairs.length = 0 ∨ 9 < pairs.length ∨ ¬ keysDistinct pairs = true) := by
  rintro (h | h | h)
  · omega
  · omega
  · exact h ((keysDistinct_iff pairs).2 hd)

theorem reqMatrixSet_moving {pairs : List (Nat × Nat)} (h : ∀ q ∈ pairs, pairInRange q) (h1 : 1 ≤ pairs.length)
    (h9 : pairs.length ≤ 9) (hd : (pairs.map (fun q => q.1)).Nodup) (hr : s.su.tracker.flags.atRest = false) :
    reqMatrixSet pairs s = (s, status .notAtRest) := by
  simp only [reqMatrixSet, matrixPairs_eq h, List.length_map]
  rw [if_neg (pairs_wellFormed h1 h9 hd), if_pos hr]

theorem reqMatrixSet_still {pairs : List (Nat × Nat)} (h : ∀ q ∈ pairs, pairInRange q) (h1 : 1 ≤ pairs.length)
    (h9 : pairs.length ≤ 9) (hd : (pairs.map (fun q => q.1)).Nodup) (hr : ¬ s.su.tracker.flags.atRest = false) :
    reqMatrixSet pairs s = ((s.reclassed pairs).matrixChanged s.effectiveClass,
      status (if ∃ q ∈ pairs, (q.1 = 0 ∨ q.1 = 2) ∧ q.2 < 2 then .clamped else .done)) := by
  have clamped : (if (pairs.map (fun q => (causeAt q, classAt q))).map raiseToMinimum =
      pairs.map (fun q => (causeAt q, classAt q)) then Status.done else .clamped) =
      if ∃ q ∈ pairs, (q.1 = 0 ∨ q.1 = 2) ∧ q.2 < 2 then .clamped else .done := by
    by_cases e : ∃ q ∈ pairs, (q.1 = 0 ∨ q.1 = 2) ∧ q.2 < 2
    · rw [if_pos e, if_neg fun hh => (raised_iff h).1 hh e]
    · rw [if_neg e, if_pos ((raised_iff h).2 e)]
  simp only [reqMatrixSet, matrixPairs_eq h, List.length_map]
  rw [if_neg (pairs_wellFormed h1 h9 hd), if_neg hr, clamped]
  simp only [raised_putAll]
  rfl

theorem riseFrom_tu (s : State) (k : Cls) : (s.riseFrom k).tu = { s.tu with records := (s.riseFrom k).tu.records } := by
  rw [riseFrom_eq]
  split
  · rw [sectionActions_tu]
    exact onCurrent_tu s _
  · rfl

/-- An entry to CAPTURE whose record takes the further causes at once. -/
theorem enterAll_tu (s : State) (c : CausePair) (rest : List CausePair) :
    (rest.foldl (fun s c => s.appendSecondary c) (s.enterCapture c)).tu = { s.tu with
      state := .capture
      releaseLevel := none
      records := (if 4 ≤ s.tu.records.length then s.tu.records.tail else s.tu.records) ++
        [rest.foldl TripRecord.addSecondary (s.captureRecord c)]
      recordCount := s.tu.recordCount + 1
      current := some (s.tu.recordCount + 1) } := by
  rw [appendAll_tu (r := s.captureRecord c) rest (s.enterCapture c) (by rw [enterCapture_tu])
    (by rw [enterCapture_tu, captureRecord_eq]), enterCapture_tu]

theorem matrixChanged_set (s : State) (k : Cls) :
    (s.matrixChanged k).tu.matrix = s.tu.matrix ∧ (s.matrixChanged k).tu.causes = s.tu.causes := by
  by_cases hs : s.tu.state = .normal ∨ s.tu.state = .releasing
  · cases h : s.stopping with
    | nil => rw [matrixChanged_quiet hs k h]; exact ⟨rfl, rfl⟩
    | cons c rest => rw [matrixChanged_enters hs k h, enterAll_tu]; exact ⟨rfl, rfl⟩
  · rw [matrixChanged_rise hs, riseFrom_tu]
    exact ⟨rfl, rfl⟩

/-- What the new classes make of a hub outside a trip that has causes of SYNC or above. -/
theorem matrixChanged_opens (hs : s.tu.state = .normal ∨ s.tu.state = .releasing) (k : Cls) {rest : List CausePair}
    (h : s.stopping = c :: rest) (hl : s.causesLaw = true) :
    s.tripOpened (s.matrixChanged k) c (fun r => r.secondary = rest.take 8
      ∧ r.entryClass = (s.matrixChanged k).effectiveClass ∧ r.highest = (s.matrixChanged k).effectiveClass)
    ∧ s.orderTaken (s.enterCapture c) (s.matrixChanged k).effectiveClass := by
  have nodup : (c :: rest).Nodup := h ▸ (causesLaw_nodup hl).sublist List.filter_sublist
  obtain ⟨first, others⟩ := List.nodup_cons.1 nodup
  have all := addSecondary_all rest (s.captureRecord c) (by rw [captureRecord_eq]; exact others)
    (by rw [captureRecord_eq]; exact first) (by rw [captureRecord_eq]; exact Nat.zero_le _)
  have tu := enterAll_tu s c rest
  have cls : (s.matrixChanged k).effectiveClass = (s.enterCapture c).effectiveClass := by
    rw [matrixChanged_enters hs k h]
    exact effectiveClass_tu (by rw [tu, enterCapture_tu]) (by rw [tu, enterCapture_tu]) (by rw [tu, enterCapture_tu])
      (by rw [tu, enterCapture_tu])
  rw [cls]
  refine ⟨?_, enterCapture_taken s c⟩
  rw [State.tripOpened, matrixChanged_enters hs k h, tu]
  refine ⟨rfl, rfl, rfl, _, rfl, ?_⟩
  rw [all, captureRecord_eq]
  exact ⟨rfl, rfl, rfl, rfl, rfl, rfl⟩

/-- What a rise under the new classes makes of a hub in a trip. -/
theorem matrixChanged_rises (hs : ¬ (s.tu.state = .normal ∨ s.tu.state = .releasing)) {k : Cls}
    (h : k.rank < s.effectiveClass.rank) :
    (s.matrixChanged k).effectiveClass = s.effectiveClass
    ∧ (s.matrixChanged k).tu.state = s.tu.state
    ∧ s.currentBecomes (s.matrixChanged k) (fun r => { r with highest := r.highest.max s.effectiveClass })
    ∧ s.orderTaken (s.matrixChanged k) s.effectiveClass := by
  have tu := riseFrom_tu s k
  rw [matrixChanged_rise hs]
  refine ⟨effectiveClass_tu (by rw [tu]) (by rw [tu]) (by rw [tu]) (by rw [tu]), by rw [tu], ?_, ?_⟩
  · rw [riseFrom_eq, if_pos h]
    have reach := onCurrent_becomes s (fun r => { r with highest := r.highest.max s.effectiveClass })
    unfold State.currentBecomes at reach ⊢
    rw [sectionActions_tu]
    exact reach
  · rw [riseFrom_eq, if_pos h]
    exact orderTaken_of_se (sectionActions_taken _ _) ((keeps_reachClass _ _).2.2.2 .se (by decide))

theorem matrixChanged_still (hs : ¬ (s.tu.state = .normal ∨ s.tu.state = .releasing)) {k : Cls}
    (h : ¬ k.rank < s.effectiveClass.rank) : s.matrixChanged k = s := by
  rw [matrixChanged_rise hs, riseFrom_eq, if_neg h]

/-- What the new classes do at the ports, with no FENCE waiting. -/
theorem matrixChanged_cp (hf : s.se.fences = []) (k : Cls) : (s.matrixChanged k).cp =
    if (s.tu.state = .normal ∨ s.tu.state = .releasing) ∧ s.stopping ≠ [] then s.cp.notified s.cp.routes.trip 8#11
    else s.cp := by
  by_cases hs : s.tu.state = .normal ∨ s.tu.state = .releasing
  · cases h : s.stopping with
    | nil => rw [matrixChanged_quiet hs k h, if_neg fun e => e.2 rfl]
    | cons c rest =>
      rw [matrixChanged_enters hs k h, if_pos ⟨hs, List.cons_ne_nil _ _⟩,
        (appendAll_keeps rest _).2.2.2 .cp (by decide)]
      exact enterCapture_cp hf c
  · rw [if_neg fun e => hs e.1, matrixChanged_rise hs, riseFrom_eq]
    split
    · rw [sectionActions_cp]
      · exact (keeps_reachClass _ _).2.2.2 .cp (by decide)
      · rw [(keeps_reachClass _ _).2.2.2 .se (by decide)]
        exact hf
    · rfl

end Sys2Proof.Machine

open Sys2Proof Sys2Proof.Machine

/-- Settles O34: the lines that raise nothing, STOP PRESS already latched, and MATRIX SET by what the new classes find. -/
theorem linesAndMatrix : Obligations.LinesAndMatrix := by
  intro s t p g pairs
  refine ⟨⟨_, rfl, frame_finish (keeps_onTu _ _), rfl⟩, ⟨_, rfl, frame_finish (keeps_onTu _ _), rfl⟩, fun h => ?_, fun h => ?_,
    fun h hc => ?_, fun h h1 h9 hr hd => ?_⟩
  · have e : (s.advance t).tripInFalls = s.advance t := if_pos h
    exact ⟨_, congrArg (finish s) e, finish_idle s t⟩
  · have e : (s.advance t).webBrkRises = s.advance t := if_pos h
    exact ⟨_, congrArg (finish s) e, finish_idle s t⟩
  · have e : reqStopPress (s.handed t p g) = (s.handed t p g, status .done) := by
      unfold reqStopPress State.raiseHub
      rw [raise_latched (s := s.handed t p g) hc fun e => nomatch e]
    exact (request_refused (l := [.cp]) h e (by decide)).imp fun s' a =>
      ⟨a.1, a.2.1, a.2.2.cp⟩
  · by_cases rest : s.su.tracker.flags.atRest = false
    · exact (request_refused (l := [.cp]) h
        (reqMatrixSet_moving (s := s.handed t p g) hr h1 h9 hd rest) (by decide)).imp fun s' a =>
        ⟨a.1, by rw [if_pos rest]; exact ⟨a.2.1, a.2.2.cp⟩⟩
    have run : exec (.matrixSet t p g pairs) s = .next (markDirty s (State.respond
        (((s.handed t p g).reclassed pairs).matrixChanged s.effectiveClass) p g
        (if ∃ q ∈ pairs, (q.1 = 0 ∨ q.1 = 2) ∧ q.2 < 2 then .clamped else .done) [])) := by
      refine (finishRequest_taken (roles := deskOnly) h).trans ?_
      rw [reqMatrixSet_still (s := s.handed t p g) hr h1 h9 hd rest]
      rfl
    obtain ⟨matrix, causes⟩ := matrixChanged_set ((s.handed t p g).reclassed pairs) s.effectiveClass
    refine ⟨_, run, ?_⟩
    rw [if_neg rest]
    generalize hst : (if ∃ q ∈ pairs, (q.1 = 0 ∨ q.1 = 2) ∧ q.2 < 2 then Status.clamped else .done) = st
    have stop_iff : (∃ c ∈ s.tu.causes, 2 ≤ ((((s.handed t p g).reclassed pairs).matrixChanged s.effectiveClass).tu.matrix.get
        c.cause).rank) ↔ ((s.handed t p g).reclassed pairs).stopping ≠ [] := by
      rw [matrix]
      exact ⟨fun ⟨c, hc, hk⟩ => List.ne_nil_of_mem (List.mem_filter.2 ⟨hc, decide_eq_true hk⟩), fun hn => by
        obtain ⟨c, hc⟩ := List.exists_mem_of_ne_nil _ hn
        obtain ⟨hc, hk⟩ := List.mem_filter.1 hc
        exact ⟨c, hc, of_decide_eq_true hk⟩⟩
    have stopping : (markDirty s (State.respond (((s.handed t p g).reclassed pairs).matrixChanged s.effectiveClass)
        p g st [])).stopping = ((s.handed t p g).reclassed pairs).stopping := by
      unfold State.stopping
      show (((s.handed t p g).reclassed pairs).matrixChanged s.effectiveClass).tu.causes.filter (fun c => decide (2 ≤
        ((((s.handed t p g).reclassed pairs).matrixChanged s.effectiveClass).tu.matrix.get c.cause).rank)) = _
      rw [matrix, causes]
    have quiet : (if s.tu.state = .normal ∨ s.tu.state = .releasing then
        ¬ (∃ c ∈ s.tu.causes, 2 ≤ ((((s.handed t p g).reclassed pairs).matrixChanged s.effectiveClass).tu.matrix.get
          c.cause).rank)
        else ({ s with tu := { s.tu with matrix := (((s.handed t p g).reclassed pairs).matrixChanged
          s.effectiveClass).tu.matrix } } : State).effectiveClass.rank ≤ s.effectiveClass.rank) →
        ((s.handed t p g).reclassed pairs).matrixChanged s.effectiveClass = (s.handed t p g).reclassed pairs := by
      intro calm
      by_cases hs : s.tu.state = .normal ∨ s.tu.state = .releasing
      · rw [if_pos hs, stop_iff, not_not] at calm
        exact matrixChanged_quiet (s := (s.handed t p g).reclassed pairs) hs _ calm
      · rw [if_neg hs, matrix] at calm
        exact matrixChanged_still (s := (s.handed t p g).reclassed pairs) hs (Nat.not_lt.2 calm)
    refine ⟨fun c hc => ?_, ?_, fun calm => ?_, fun stop hs law => ?_, fun calm hs => ?_, fun hf => ?_⟩
    · show (((s.handed t p g).reclassed pairs).matrixChanged s.effectiveClass).tu.matrix.get c = _
      rw [matrix]
      refine (putAll_get s.tu.matrix pairs c hr hd).trans ?_
      cases hq : pairs.find? (fun q => q.1 == c.number) with
      | none => rfl
      | some q =>
        have range := hr q (List.mem_of_find?_eq_some hq)
        have named : causeAt q = c :=
          number_inj ((causeAt_number range).1.trans (beq_iff_eq.1 (List.find?_some (p := fun q : Nat × Nat => q.1 == c.number) hq)))
        exact (givenClass_eq range.2).trans (by rw [named])
    · show ((State.respond _ p g st []).port p).responses.getLast? = _
      rw [State.respond, port_onPort, if_pos rfl]
      exact List.getLast?_concat
    · rw [quiet calm]
      exact ⟨frame_finish (((keeps_onPort _ _ _).mono (by decide)).trans (((keeps_onTu _ _).mono (by decide)).trans
        ((keeps_respond _ p g st []).mono (by decide)))), rfl, answered_cp s p g rfl⟩
    · obtain ⟨c, others, e⟩ := List.exists_cons_of_ne_nil (stop_iff.1 stop)
      obtain ⟨⟨o1, o2, o3, r, o4, o5, o6, o7, o8, o9, o10⟩, taken⟩ :=
        matrixChanged_opens (s := (s.handed t p g).reclassed pairs) hs s.effectiveClass e law
      rw [stopping, e]
      refine ⟨⟨o1, o2, o3, r, o4, o5, o6, o7, o8, o9, o10⟩, causes, fun i => ?_⟩
      have se : (((s.handed t p g).reclassed pairs).matrixChanged s.effectiveClass).se =
          (((s.handed t p g).reclassed pairs).enterCapture c).se := by
        rw [matrixChanged_enters (s := (s.handed t p g).reclassed pairs) hs _ e]
        exact (appendAll_keeps others _).2.2.2 .se (by decide)
      exact (congrArg (fun u : SE => (u.slots.get i).state) se).trans (orderTaken_state taken i)
    · rw [if_neg hs] at calm
      have higher : s.effectiveClass.rank < ((s.handed t p g).reclassed pairs).effectiveClass.rank := by
        refine Nat.not_le.1 fun e => calm ?_
        show (State.effectiveClass { s with tu := { s.tu with matrix := (((s.handed t p g).reclassed pairs).matrixChanged
          s.effectiveClass).tu.matrix } }).rank ≤ s.effectiveClass.rank
        rw [matrix]
        exact e
      obtain ⟨o1, o2, o3, o4⟩ := matrixChanged_rises (s := (s.handed t p g).reclassed pairs) hs higher
      rw [← o1] at o3 o4
      exact ⟨o2, causes, o3, fun i => orderTaken_state o4 i⟩
    · have cp : (((s.handed t p g).reclassed pairs).matrixChanged s.effectiveClass).cp =
          if (s.tu.state = .normal ∨ s.tu.state = .releasing) ∧ ((s.handed t p g).reclassed pairs).stopping ≠ [] then
            (s.cp.waiting p g).notified s.cp.routes.trip 8#11 else s.cp.waiting p g :=
        matrixChanged_cp (s := (s.handed t p g).reclassed pairs) hf s.effectiveClass
      show (State.onPort _ p _).cp = _
      rw [onPort_cp]
      by_cases hb : (s.tu.state = .normal ∨ s.tu.state = .releasing) ∧ ((s.handed t p g).reclassed pairs).stopping ≠ []
      · rw [if_pos hb] at cp
        rw [if_pos ⟨hb.1, stop_iff.2 hb.2⟩, State.port, cp]
        exact notified_answered s.cp p g st [] s.cp.routes.trip 8#11
      · rw [if_neg hb] at cp
        rw [if_neg fun e => hb ⟨e.1, stop_iff.1 e.2⟩, State.port, cp]
        exact answered_cp (b := (s.handed t p g).reclassed pairs) s p g rfl

end

section
/-! SUPPORT. The reset of a trip in each trip state, and the release of a record. -/

namespace Sys2Proof.Machine

variable {s a : State} {t : HubTime} {p : PortNo} {g : Tag}

/-! ### The causes that a reset leaves -/

/-- The causes whose condition is not gone. -/
noncomputable def State.lasting (s : State) : List CausePair := s.tu.causes.filter (fun c => !s.conditionGone c)

theorem foldl_stops (m : Matrix) (l : List CausePair) (k : Cls) :
    (l.foldl (fun acc c => acc.max (m.get c.cause)) k).stops = true ↔
      k.stops = true ∨ ∃ c ∈ l, 2 ≤ (m.get c.cause).rank := by
  induction l generalizing k with
  | nil => simp
  | cons c l ih =>
    have max : (k.max (m.get c.cause)).stops = true ↔ k.stops = true ∨ 2 ≤ (m.get c.cause).rank := by
      unfold Cls.stops
      rw [decide_eq_true_iff, decide_eq_true_iff, rank_max]
      exact le_max_iff
    rw [List.foldl_cons, ih, max]
    simp only [List.mem_cons, exists_eq_or_imp, or_assoc]

theorem classOfCauses_stops (m : Matrix) (l : List CausePair) :
    (classOfCauses m l).stops = true ↔ ∃ c ∈ l, 2 ≤ (m.get c.cause).rank := by
  refine (foldl_stops m l .noClass).trans ⟨fun h => h.resolve_left (by decide), .inr⟩

/-- The request of a reset of the whole press, where this hub is a master in the ring. -/
noncomputable def State.asksPress (s : State) : Bool :=
  s.isMaster && (decide (s.rc.ringState = .running) || decide (s.rc.ringState = .lost))

theorem requestPressReset_taken {k : TripState} (h : k = .normal ∨ k = .stopped ∨ k = .releasing) (s : State) :
    s.requestPressReset k = s.onTu (fun u => { u with resetRequest := u.resetRequest || s.asksPress }) := by
  unfold State.requestPressReset State.asksPress
  by_cases e : s.isMaster = true ∧ (s.rc.ringState = .running ∨ s.rc.ringState = .lost)
  · rw [if_pos ⟨e.1, e.2, h⟩]
    refine congrArg s.onTu (funext fun u => ?_)
    rw [show (s.isMaster && (decide (s.rc.ringState = .running) || decide (s.rc.ringState = .lost))) = true by
      simpa using e, Bool.or_true]
  · rw [if_neg fun hh => e ⟨hh.1, hh.2.1⟩]
    have no : (s.isMaster && (decide (s.rc.ringState = .running) || decide (s.rc.ringState = .lost))) = false := by
      rw [Bool.eq_false_iff]
      exact fun hh => e (by simpa using hh)
    rw [no]
    show s = s.onTu _
    simp only [Bool.or_false]
    rfl

theorem requestPressReset_refused {k : TripState} (h : k = .capture ∨ k = .stopping ∨ k = .lockout) (s : State) :
    s.requestPressReset k = s := by
  refine if_neg fun hh => ?_
  rcases h with rfl | rfl | rfl <;> simp at hh

/-- The response that lists what is still latched. -/
theorem stillActive_eq (l : List CausePair) : stillActive l = (.stillActive, valuesBytes [vlist (l.map (fun c =>
    valuesBytes [val 1 c.cause.number, c.slot.map (fun i => beBytes 1 i.val)]))]) := by
  unfold stillActive
  refine congrArg (fun f => (Status.stillActive, valuesBytes [vlist (l.map f)])) (funext fun c => ?_)
  rfl

/-! ### TRIP RESET -/

theorem reqTripReset_moving (h : s.tu.state = .capture ∨ s.tu.state = .stopping) :
    reqTripReset s = (s, status .badState) := by
  unfold reqTripReset State.resetTrip
  rcases h with h | h <;> rw [h] <;> dsimp only <;> rw [requestPressReset_refused (by decide)] <;> rfl

theorem reqTripReset_lockout (h : s.tu.state = .lockout) : reqTripReset s = (s, status .lockedOut) := by
  unfold reqTripReset State.resetTrip
  rw [h]
  dsimp only
  rw [requestPressReset_refused (by decide)]
  rfl

/-- A reset that clears causes and changes no trip state. -/
noncomputable def State.cleared (s : State) : State :=
  s.onTu (fun u => { u with causes := s.lasting, resetRequest := u.resetRequest || s.asksPress })

theorem ite_isEmpty {α β γ : Type} (l : List γ) (x : α) (y z : β) :
    (if l.isEmpty = true then (x, y) else (x, z)) = (x, if l = [] then y else z) := by cases l <;> rfl

theorem reqTripReset_calm (h : s.tu.state = .normal ∨ s.tu.state = .releasing) : reqTripReset s =
    (s.cleared, some (if s.lasting = [] then (.done, []) else stillActive s.lasting)) := by
  unfold reqTripReset State.resetTrip
  have calm : s.tu.state = .normal ∨ s.tu.state = .stopped ∨ s.tu.state = .releasing := h.imp_right .inr
  rw [show s.tu.causes.filter (fun c => !s.conditionGone c) = s.lasting from rfl]
  rcases h with h | h <;> rw [h] at calm ⊢ <;> dsimp only <;> rw [ite_isEmpty, requestPressReset_taken calm] <;> rfl

theorem reqTripReset_stays (h : s.tu.state = .stopped) (hk : ∃ c ∈ s.lasting, 2 ≤ (s.tu.matrix.get c.cause).rank) :
    reqTripReset s = (s.cleared, some (stillActive s.lasting)) := by
  unfold reqTripReset State.resetTrip
  rw [show s.tu.causes.filter (fun c => !s.conditionGone c) = s.lasting from rfl, h]
  dsimp only
  rw [if_pos ((classOfCauses_stops _ _).2 hk), requestPressReset_taken (by decide)]
  rfl

/-- A reset from STOPPED that leaves it. -/
noncomputable def State.leavesStopped (s : State) : State :=
  (s.onTu (fun u => { u with causes := s.lasting, releaseLevel := some (s.levelAtReset (s.tu.causes.filter s.conditionGone)) })).setTrip
    .releasing

theorem reqTripReset_releases (h : s.tu.state = .stopped) (hk : ¬ ∃ c ∈ s.lasting, 2 ≤ (s.tu.matrix.get c.cause).rank) :
    reqTripReset s = (s.leavesStopped.onTu (fun u => { u with resetRequest := u.resetRequest || s.leavesStopped.asksPress }),
      status .done) := by
  unfold reqTripReset State.resetTrip
  rw [show s.tu.causes.filter (fun c => !s.conditionGone c) = s.lasting from rfl, h]
  dsimp only
  rw [if_neg fun e => hk ((classOfCauses_stops _ _).1 e), requestPressReset_taken (by decide)]
  rfl

/-! ### RECORD RELEASE -/

theorem eraseP_number {n : BitVec 16} {l : List TripRecord} {r : TripRecord}
    (h : l.find? (fun x => x.number == n) = some r) : l.eraseP (fun x => x.number == n) = l.erase r := by
  induction l with
  | nil => cases h
  | cons x l ih =>
    rw [List.find?_cons] at h
    by_cases e : (x.number == n) = true
    · rw [e] at h
      cases h
      rw [List.eraseP_cons_of_pos (p := fun x : TripRecord => x.number == n) e, List.erase_cons_head]
    · rw [Bool.not_eq_true] at e
      rw [e] at h
      have ne : ¬ (x == r) = true := fun hx => by
        rw [beq_iff_eq.1 hx] at e
        exact Bool.false_ne_true (e.symm.trans (List.find?_some (p := fun x : TripRecord => x.number == n) h))
      rw [List.eraseP_cons_of_neg (by rw [e]; decide), List.erase_cons_tail ne, ih h]

theorem all_numbers (n : BitVec 16) (l : List TripRecord) :
    l.all (fun x => x.number != n) = true ↔ ∀ x ∈ l, x.number ≠ n := by simp

theorem reqRecordRelease_none {n : BitVec 16} (h : s.tu.records.find? (fun r => r.number == n) = none) :
    reqRecordRelease (some n) s = (s, status .gone) := by
  simp only [reqRecordRelease, State.record, h]

theorem reqRecordRelease_some {n : BitVec 16} {r : TripRecord} (h : s.tu.records.find? (fun r => r.number == n) = some r) :
    reqRecordRelease (some n) s =
      if r.capturing then (s, status .busy)
      else ((s.onTu (fun u => { u with
        records := s.tu.records.erase r
        current := if s.tu.current = some n ∧ ∀ x ∈ s.tu.records.erase r, x.number ≠ n then none else s.tu.current })).unfreeze
          n r.frozen, status .done) := by
  simp only [reqRecordRelease, State.record, h, eraseP_number h, all_numbers]
  rfl

theorem notified_waiting (c : CP) (p : PortNo) (g : Tag) (st : Status) (l : List Byte) {b : State} {route : BitVec 4}
    {k : BitVec 11} (h : b.cp = (c.waiting p g).notified route k) :
    (State.respond b p g st l).cp = (c.notified route k).answered p g st l := by
  rw [State.respond, onPort_cp, State.port, h]
  exact notified_answered c p g st l route k

theorem setTrip_cp (s : State) (st : TripState) : (s.setTrip st).cp = s.cp.notified s.cp.routes.trip 8#11 := by
  rw [State.setTrip, (keeps_checkReformation _).2.2.2 .cp (by decide), notify_cp]
  rfl

/-- The choice of a trip state looks at no re-formation that moves the ring state or the role. -/
theorem leavesStopped_asks (s : State) : s.leavesStopped.asksPress = s.asksPress := by
  have core := (setTrip_recensused (s.onTu (fun u => { u with
    causes := s.lasting, releaseLevel := some (s.levelAtReset (s.tu.causes.filter s.conditionGone)) })) .releasing).core
  have state : s.leavesStopped.rc.ringState = s.rc.ringState := by
    have h := congrArg RC.ringState core
    exact h
  have straps : s.leavesStopped.straps = s.straps := (keeps_setTrip _ .releasing).2.1
  unfold State.asksPress State.isMaster
  rw [state, straps]

theorem leavesStopped_tu (s : State) : s.leavesStopped.tu = { s.tu with
    causes := s.lasting, state := .releasing, current := none
    releaseLevel := some (s.levelAtReset (s.tu.causes.filter s.conditionGone)) } := by
  rw [State.leavesStopped, setTrip_tu]
  rfl

theorem keeps_leavesStopped (s : State) : Keeps [.rc, .tu, .cp] s s.leavesStopped :=
  ((keeps_onTu _ _).mono (by decide)).trans (keeps_setTrip _ _)

theorem leavesStopped_cp (s : State) : s.leavesStopped.cp = s.cp.notified s.cp.routes.trip 8#11 := setTrip_cp _ _

theorem levelAtReset_current {l : List CausePair} {r : TripRecord}
    (h : s.tu.records.reverse.find? (fun r => decide (s.tu.current = some r.number)) = some r) :
    s.levelAtReset l = r.highest := by
  unfold State.levelAtReset State.currentHighest
  rw [h]
  rfl

theorem finishRequest_block {roles : List Role} {block : State → State × Reply} {r : State × Reply} (h : s.takes p g roles)
    (e : block (s.handed t p g) = r) : finishRequest s t p g roles block = .next (markDirty s (State.answer r p g)) :=
  e ▸ finishRequest_taken h

/-- A permitted TRIP RESET that leaves STOPPED, as the hub shows it. -/
theorem tripReset_releases (h : s.takes p g [.desk]) (hs : s.tu.state = .stopped)
    (hk : ¬ ∃ c ∈ s.lasting, 2 ≤ (s.tu.matrix.get c.cause).rank) :
    ∃ s', exec (.tripReset t p g) s = .next s'
      ∧ s'.tu = { s.tu with
          causes := s.lasting, state := .releasing, current := none
          releaseLevel := some (s.levelAtReset (s.tu.causes.filter s.conditionGone))
          resetRequest := s.tu.resetRequest || s.asksPress }
      ∧ s'.se = s.se ∧ s'.is = s.is ∧ s'.su = s.su
      ∧ s'.cp = (s.cp.notified s.cp.routes.trip 8#11).answered p g .done [] := by
  have keep := keeps_leavesStopped (s.handed t p g)
  refine ⟨_, finishRequest_block (roles := deskOnly) h (reqTripReset_releases (s := s.handed t p g) hs hk), ?_, keep.2.2.2 .se (by decide),
    keep.2.2.2 .is (by decide), keep.2.2.2 .su (by decide), ?_⟩
  · show ({ (s.handed t p g).leavesStopped.tu with
      resetRequest := (s.handed t p g).leavesStopped.tu.resetRequest || (s.handed t p g).leavesStopped.asksPress } : TU) = _
    rw [leavesStopped_asks, leavesStopped_tu]
    rfl
  · exact notified_waiting s.cp p g .done [] (b := (s.handed t p g).leavesStopped.onTu _)
      (leavesStopped_cp (s.handed t p g))

end Sys2Proof.Machine

open Sys2Proof Sys2Proof.Machine

/-- Settles O35, by the trip state that the reset finds and by the record that the release names. -/
theorem tripResetAndRecordRelease : Obligations.TripResetAndRecordRelease := by
  intro s t p g n h rest
  refine ⟨fun i o => ⟨rfl, rfl, rfl, rfl, rfl, fun c hc => ?_⟩, ?_, ?_⟩
  · simp only [List.mem_cons, List.not_mem_nil, or_false] at hc
    rcases hc with rfl | rfl | rfl | rfl <;> rfl
  · have calm : s.tu.state = .normal ∨ s.tu.state = .releasing → ∃ s', exec (.tripReset t p g) s = .next s'
        ∧ s.frame s' t [.tu, .cp]
        ∧ s'.tu = { s.tu with
            causes := s.tu.causes.filter (fun c => !s.conditionGone c)
            resetRequest := s.tu.resetRequest
              || (s.isMaster && (decide (s.rc.ringState = .running) || decide (s.rc.ringState = .lost))) }
        ∧ s'.cp = (if s'.tu.causes = [] then s.cp.answered p g .done []
          else s.cp.answered p g .stillActive (rest s'.tu.causes)) := by
      intro hs
      have e := reqTripReset_calm (s := s.handed t p g) hs
      by_cases hl : s.lasting = []
      · rw [if_pos (c := State.lasting (s.handed t p g) = []) hl] at e
        obtain ⟨s', h1, h2, h3⟩ := request_answered (l' := [.tu, .cp]) h e (keeps_onTu _ _) (by decide) (by decide)
        have causes : s'.tu.causes = s.lasting := congrArg TU.causes h3.tu
        refine ⟨s', h1, h2, h3.tu, ?_⟩
        rw [causes, if_pos hl]
        exact h3.cp
      · rw [if_neg (c := State.lasting (s.handed t p g) = []) hl, stillActive_eq] at e
        obtain ⟨s', h1, h2, h3⟩ := request_answered (l' := [.tu, .cp]) h e (keeps_onTu _ _) (by decide) (by decide)
        have causes : s'.tu.causes = s.lasting := congrArg TU.causes h3.tu
        refine ⟨s', h1, h2, h3.tu, ?_⟩
        rw [causes, if_neg hl]
        exact h3.cp
    have moving : s.tu.state = .capture ∨ s.tu.state = .stopping → ∃ s', exec (.tripReset t p g) s = .next s'
        ∧ s.frame s' t [.cp] ∧ s'.cp = s.cp.answered p g .badState [] := by
      intro hs
      exact (request_refused (l := [.cp]) h (reqTripReset_moving (s := s.handed t p g) hs) (by decide)).imp fun s' a =>
        ⟨a.1, a.2.1, a.2.2.cp⟩
    cases hs : s.tu.state with
    | normal => exact calm (.inl hs)
    | releasing => exact calm (.inr hs)
    | capture => exact moving (.inl hs)
    | stopping => exact moving (.inr hs)
    | lockout =>
      exact (request_refused (l := [.cp]) h (reqTripReset_lockout (s := s.handed t p g) hs) (by decide)).imp fun s' a =>
        ⟨a.1, a.2.1, a.2.2.cp⟩
    | stopped =>
      by_cases hk : ∃ c ∈ s.lasting, 2 ≤ (s.tu.matrix.get c.cause).rank
      · have e := reqTripReset_stays (s := s.handed t p g) hs hk
        rw [stillActive_eq] at e
        obtain ⟨s', h1, h2, h3⟩ := request_answered (l' := [.tu, .cp]) h e (keeps_onTu _ _) (by decide) (by decide)
        have causes : s'.tu.causes = s.lasting := congrArg TU.causes h3.tu
        refine ⟨s', h1, causes, by rw [h3.tu]; rfl, by rw [h3.tu]; rfl, h3.se, h3.is, h3.su, ?_⟩
        rw [causes, if_pos hk]
        exact ⟨(congrArg TU.state h3.tu).trans hs, h3.cp⟩
      · obtain ⟨s', h1, tu, se, is, su, cp⟩ := tripReset_releases h hs hk
        have causes : s'.tu.causes = s.lasting := by rw [tu]
        refine ⟨s', h1, causes, by rw [tu]; rfl, by rw [tu], se, is, su, ?_⟩
        rw [causes, if_neg hk]
        refine ⟨by rw [tu], by rw [tu], cp, fun r hr => ?_⟩
        rw [tu]
        exact congrArg some (levelAtReset_current (Option.mem_def.1 hr))
  · cases hr : s.tu.records.find? (fun r => r.number == n) with
    | none =>
      exact (request_refused (l := [.cp]) h (reqRecordRelease_none (s := s.handed t p g) hr) (by decide)).imp fun s' a =>
        ⟨a.1, a.2.1, a.2.2.cp⟩
    | some r =>
      have e := reqRecordRelease_some (s := s.handed t p g) hr
      by_cases hc : r.capturing = true
      · exact (request_refused (l := [.cp]) h (e.trans (if_pos hc)) (by decide)).imp fun s' a =>
          ⟨a.1, by dsimp only; rw [if_pos hc]; exact ⟨a.2.1, a.2.2.cp⟩⟩
      · exact (request_answered (l := [.tu, .is]) (l' := [.tu, .is, .cp]) h (e.trans (if_neg hc))
          (((keeps_onTu _ _).mono (by decide)).trans ((keeps_onIs _ _).mono (by decide))) (by decide) (by decide)).imp fun s' a =>
          ⟨a.1, by dsimp only; rw [if_neg hc]; exact ⟨a.2.1, a.2.2.cp, a.2.2.tu, a.2.2.is⟩⟩

end

section
/-! SUPPORT. The hub after hardware reset, with the trip lines inactive and with one or both of them active. -/

namespace Sys2Proof.Machine

variable {st : Straps} {low brk : Bool} {l : List Instr} {p : PortNo}

/-- A set of ports by role holds the ports of that role. -/
theorem portsWith_bit (st : Straps) (f : Role → Bool) (p : PortNo) : (st.portsWith f).getLsbD p = f (st.roleOf p) := by
  have bits : ∀ (a b c d : Bool) (p : PortNo), (((if a then 1#4 else 0#4) ||| (if b then 2#4 else 0#4)
      ||| (if c then 4#4 else 0#4) ||| (if d then 8#4 else 0#4) : BitVec 4)).getLsbD p =
      (match p with | 0 => a | 1 => b | 2 => c | 3 => d) := by decide
  refine (bits _ _ _ _ p).trans ?_
  match p with
  | 0 => rfl
  | 1 => rfl
  | 2 => rfl
  | 3 => rfl

theorem half_period (k : Fin 4) : periodTicks k / 2 = 6250 * 2 ^ k.val := by
  match k with
  | 0 => rfl
  | 1 => rfl
  | 2 => rfl
  | 3 => rfl

/-- The routes at reset, by role. -/
theorem defaultRoutes_held (st : Straps) (p : PortNo) :
    (Routes.default st).trip.getLsbD p = decide (st.roleOf p ∈ [Role.desk, .panel])
    ∧ (Routes.default st).trigger.getLsbD p = decide (st.roleOf p ∈ [Role.vision])
    ∧ (Routes.default st).register.getLsbD p = decide (st.roleOf p ∈ [Role.desk]) := by
  have role : ∀ r : Role, (r == .desk || r == .panel) = decide (r ∈ [Role.desk, .panel])
      ∧ (r == .vision) = decide (r ∈ [Role.vision]) ∧ (r == .desk) = decide (r ∈ [Role.desk]) := by
    intro r
    cases r <;> decide
  obtain ⟨h1, h2, h3⟩ := role (st.roleOf p)
  refine ⟨?_, ?_, ?_⟩
  · rw [show (Routes.default st).trip = st.portsWith (fun r => r == .desk || r == .panel) from rfl, portsWith_bit, h1]
  · rw [show (Routes.default st).trigger = st.portsWith (· == .vision) from rfl, portsWith_bit, h2]
  · rw [show (Routes.default st).register = st.portsWith (· == .desk) from rfl, portsWith_bit, h3]

/-- What a notice with the default trip route leaves of a port fresh from reset. -/
theorem reset_notified (st : Straps) (low brk : Bool) (l : List Instr) (p : PortNo) :
    (((State.resetWith st low brk l).cp.notified (State.resetWith st low brk l).cp.routes.trip 8#11).ports.get p) =
      { Port.reset (st.roleOf p) with pending := if st.roleOf p = .desk ∨ st.roleOf p = .panel then 8#11 else 0#11 } := by
  have port : (State.resetWith st low brk l).cp.ports.get p = .reset (st.roleOf p) := resetWith_port st low brk l p
  have route : (State.resetWith st low brk l).cp.routes.trip.getLsbD p = decide (st.roleOf p ∈ [Role.desk, .panel]) :=
    (defaultRoutes_held st p).1
  simp only [CP.notified, Table.get_mapIdx, port]
  by_cases e : st.roleOf p = .desk ∨ st.roleOf p = .panel
  · rw [if_pos (route.trans (by simpa using e)), if_pos e]
    exact congrArg (fun k => ({ Port.reset (st.roleOf p) with pending := k } : Port)) (by decide : (0#11 ||| 8#11) = 8#11)
  · rw [if_neg (fun h => e (by simpa using route.symm.trans h)), if_neg e]
    rfl

/-- A line raises its cause on a hub fresh from reset: the entry to CAPTURE with QUICK, record 1 and notice TRIP. -/
structure LineTripped (st : Straps) (low brk : Bool) (l : List Instr) (c : CausePair) (a : State) : Prop where
  tu : a.tu = { (State.resetWith st low brk l).tu with
    causes := [c], state := .capture, releaseLevel := none, recordCount := 1, current := some 1, records := a.tu.records }
  record : ∃ r, a.tu.records = [r] ∧ r.number = 1 ∧ r.first = c ∧ r.entryClass = .quick ∧ r.highest = .quick
    ∧ r.secondary = []
  cp : a.cp = (State.resetWith st low brk l).cp.notified (State.resetWith st low brk l).cp.routes.trip 8#11
  keeps : Keeps [.rc, .se, .tu, .is, .cp] (State.resetWith st low brk l) a
  ring : a.rc.ringState = .down

theorem raise_lineTripped {c : CausePair} (hc : c.cause = .tripIn ∨ c.cause = .webBreak) :
    LineTripped st low brk l c ((State.resetWith st low brk l).raise c) := by
  have quick : (State.resetWith st low brk l).tu.matrix.get c.cause = .quick := by rcases hc with e | e <;> rw [e] <;> rfl
  have enters := raise_enters (s := State.resetWith st low brk l) (c := c) List.not_mem_nil (.inl rfl)
    (by rw [quick]; decide)
  have tu := enterCapture_tu ((State.resetWith st low brk l).latch c) c
  have opened := captureRecord_eq ((State.resetWith st low brk l).latch c) c
  have cls : (((State.resetWith st low brk l).latch c).enterCapture c).effectiveClass = .quick := by
    refine (effectiveClass_alone (c := c) ?_ ?_ ?_).trans ?_
    · rw [tu]
    · rw [tu]; rfl
    · rw [tu]; rfl
    · rw [tu]; exact quick
  refine ⟨?_, ?_, ?_, keeps_raise _ _, ?_⟩
  · rw [enters, tu]; rfl
  · rw [enters, tu, opened, cls]
    exact ⟨_, rfl, rfl, rfl, rfl, rfl, rfl⟩
  · rw [enters]
    exact enterCapture_cp rfl c
  · exact congrArg RC.ringState (ringKept_raise (State.resetWith st low brk l) c).recensused.core

/-- WEB BREAK after TRIP IN: secondary in the record, with no rise of the class. -/
theorem raise_second {a : State} (h : LineTripped st true true l ⟨.tripIn, none⟩ a) :
    ∃ r, (a.raise ⟨.webBreak, none⟩).tu = { a.tu with causes := [⟨.tripIn, none⟩, ⟨.webBreak, none⟩], records := [r] }
      ∧ r.number = 1 ∧ r.first = ⟨.tripIn, none⟩ ∧ r.entryClass = .quick ∧ r.highest = .quick
      ∧ r.secondary = [⟨.webBreak, none⟩] ∧ (a.raise ⟨.webBreak, none⟩).cp = a.cp := by
  obtain ⟨r, hr, number, first, entry, highest, secondary⟩ := h.record
  have state : a.tu.state = .capture := by rw [h.tu]
  have before : a.effectiveClass = .quick := by
    rw [effectiveClass_alone (c := ⟨.tripIn, none⟩) state (by rw [h.tu]) (by rw [h.tu]; rfl), h.tu]
    rfl
  have quick : (a.latch ⟨.webBreak, none⟩).tu.matrix.get .webBreak = .quick := by
    show a.tu.matrix.get .webBreak = _
    rw [h.tu]; rfl
  have quiet : (a.latch ⟨.webBreak, none⟩).noticed ⟨.webBreak, none⟩ = a.latch ⟨.webBreak, none⟩ :=
    if_neg (by rw [quick]; exact fun e => nomatch e)
  have e := raise_escalates (s := a) (c := ⟨.webBreak, none⟩) (by rw [h.tu]; exact fun m => nomatch List.mem_singleton.1 m)
    (by rw [state]; decide)
    (fun e => nomatch e)
  have causes : (a.latch ⟨.webBreak, none⟩).tu.causes = [⟨.tripIn, none⟩, ⟨.webBreak, none⟩] := by
    show insertCause _ a.tu.causes = _
    rw [h.tu]; rfl
  have append : ((a.latch ⟨.webBreak, none⟩).appendSecondary ⟨.webBreak, none⟩).tu = { a.tu with
      causes := [⟨.tripIn, none⟩, ⟨.webBreak, none⟩], records := [r.addSecondary ⟨.webBreak, none⟩] } := by
    have one := appendAll_tu (init := []) (r := r) [⟨.webBreak, none⟩] (a.latch ⟨.webBreak, none⟩) hr
      (by show a.tu.current = _; rw [h.tu, number])
    refine one.trans ?_
    show ({ (a.latch ⟨.webBreak, none⟩).tu with records := _ } : TU) = _
    rw [← causes]
    rfl
  have level : ((a.latch ⟨.webBreak, none⟩).appendSecondary ⟨.webBreak, none⟩).effectiveClass = .quick := by
    unfold State.effectiveClass State.ownClass State.latchedClass
    rw [append, h.tu]
    rfl
  rw [quiet, riseFrom_eq, level, before, if_neg (by decide)] at e
  rw [e, append]
  have added : r.addSecondary ⟨.webBreak, none⟩ = { r with secondary := [⟨.webBreak, none⟩] } := by
    unfold TripRecord.addSecondary
    rw [secondary, first, if_pos (by decide)]
    rfl
  refine ⟨_, rfl, ?_, ?_, ?_, ?_, ?_, (keeps_appendSecondary _ _).2.2.2 .cp (by decide)⟩
  all_goals rw [added]
  · exact number
  · exact first
  · exact entry
  · exact highest

theorem tripOut_quick {a : State} (hs : a.tu.state = .capture) (hm : a.tu.matrix = .default)
    (hc : a.tu.causes = [⟨.tripIn, none⟩] ∨ a.tu.causes = [⟨.webBreak, none⟩]
      ∨ a.tu.causes = [⟨.tripIn, none⟩, ⟨.webBreak, none⟩]) (hk : a.tu.carried = .noClass) : a.tripOut = true := by
  unfold State.tripOut State.effectiveClass State.ownClass State.latchedClass
  rw [hs, hm, hk]
  rcases hc with hc | hc | hc <;> rw [hc] <;> rfl

/-- Which causes the lines raise at reset. -/
theorem raiseLines_first {a : State} (h : a.tu.tripInLow = true) (hb : (a.raise ⟨.tripIn, none⟩).tu.webBrk = false) :
    a.raiseLines = a.raise ⟨.tripIn, none⟩ := by
  unfold State.raiseLines State.raiseHub
  rw [if_pos h]
  exact if_neg (by rw [hb]; exact Bool.false_ne_true)

theorem raiseLines_second {a : State} (h : a.tu.tripInLow = false) (hb : a.tu.webBrk = true) :
    a.raiseLines = a.raise ⟨.webBreak, none⟩ := by
  simp only [State.raiseLines, State.raiseHub, h, hb, if_true, Bool.false_eq_true, if_false]

theorem raiseLines_both {a : State} (h : a.tu.tripInLow = true) (hb : (a.raise ⟨.tripIn, none⟩).tu.webBrk = true) :
    a.raiseLines = (a.raise ⟨.tripIn, none⟩).raise ⟨.webBreak, none⟩ := by
  unfold State.raiseLines State.raiseHub
  rw [if_pos h]
  exact if_pos hb

end Sys2Proof.Machine

open Sys2Proof Sys2Proof.Machine

/-- Settles O3: every block's reset value, and the raising of the causes of the active lines. -/
theorem hardwareReset : Obligations.HardwareReset := by
  refine ⟨fun st s => ⟨_, rfl, ?_⟩, fun st low brk s h => ?_⟩
  · refine ⟨rfl, rfl, rfl, rfl, rfl, rfl, rfl, ?_, rfl, rfl, rfl, rfl, rfl, rfl, rfl, rfl, rfl, rfl, rfl, rfl, rfl, rfl, rfl, rfl, rfl, rfl, rfl, rfl, rfl, rfl, rfl, rfl, rfl, rfl, rfl, rfl, rfl, rfl, fun i => ?_, rfl, rfl, rfl, rfl, rfl,
      fun c => ?_, ?_, rfl, rfl, rfl, rfl, rfl, ?_, rfl, rfl, rfl, rfl, fun c => ?_, rfl, rfl, rfl, fun i => ?_, rfl, fun p => ?_⟩
    · show (if st.master then some (periodTicks st.period / 2) else none) = _
      rw [half_period]
    · exact ⟨by rw [State.slot, show (s.hardwareReset st false false).se.slots = .const 16 .reset from rfl, Table.get_const]; rfl,
        by rw [State.slot, show (s.hardwareReset st false false).se.slots = .const 16 .reset from rfl, Table.get_const]; rfl,
        by rw [State.loop, show (s.hardwareReset st false false).ru.loops = .const 16 .reset from rfl, Table.get_const]; rfl⟩
    · rw [show (s.hardwareReset st false false).is.cameras = .const 4 .reset from rfl, Table.get_const]
      rfl
    · exact ⟨fun p => (defaultRoutes_held st p).1, fun p => (defaultRoutes_held st p).1, fun p => (defaultRoutes_held st p).1,
        fun p => (defaultRoutes_held st p).2.1, fun p => (defaultRoutes_held st p).2.1,
        fun p => (defaultRoutes_held st p).2.2, fun p => (defaultRoutes_held st p).2.2⟩
    · show IS.reset.free = _
      simp only [IS.reset]
    · rw [show (s.hardwareReset st false false).im.contexts = .const 2 none from rfl, Table.get_const]
    · rw [show (s.hardwareReset st false false).vu.views = .const 16 none from rfl,
        show (s.hardwareReset st false false).vu.exports = .const 16 none from rfl, Table.get_const, Table.get_const]
      exact ⟨rfl, rfl⟩
    · exact (resetWith_port st false false s.pending p).trans rfl
  · have down := ringKept_raiseLines (State.resetWith st low brk s.pending)
    have ring : (s.hardwareReset st low brk).rc.ringState = .down := congrArg RC.ringState down.recensused.core
    have whole : Keeps [.rc, .se, .tu, .is, .cp] (State.resetWith st low brk s.pending) (s.hardwareReset st low brk) := by
      have one : ∀ (a : State) (b : Bool) (c : Cause), Keeps [.rc, .se, .tu, .is, .cp] a (if b then a.raiseHub c else a) :=
        fun a b c => .ite (keeps_raise a _) (.refl _ a)
      exact (one _ _ _).trans (one _ _ _)
    cases low <;> cases brk
    case false.false => cases h
    case false.true =>
      have one : LineTripped st false true s.pending ⟨.webBreak, none⟩ (s.hardwareReset st false true) := by
        rw [State.hardwareReset, raiseLines_second rfl rfl]
        exact raise_lineTripped (.inr rfl)
      obtain ⟨r, hr, number, first, entry, highest, secondary⟩ := one.record
      refine ⟨_, r, rfl, whole.2.2.1, whole.2.1, whole.1, ring, by rw [one.tu]; rfl, by rw [one.tu]; rfl, by rw [one.tu],
        by rw [one.tu]; rfl, hr, number, by rw [one.tu], entry, highest, first, secondary, ?_, fun p => ?_⟩
      · exact tripOut_quick (by rw [one.tu]) (by rw [one.tu]; rfl) (.inr (.inl (by rw [one.tu]))) (by rw [one.tu]; rfl)
      · rw [State.port, one.cp, reset_notified]
    case true.false =>
      have tripped := raise_lineTripped (st := st) (low := true) (brk := false) (l := s.pending) (c := ⟨.tripIn, none⟩) (.inl rfl)
      have one : LineTripped st true false s.pending ⟨.tripIn, none⟩ (s.hardwareReset st true false) := by
        rw [State.hardwareReset, raiseLines_first rfl (by rw [tripped.tu]; rfl)]
        exact tripped
      obtain ⟨r, hr, number, first, entry, highest, secondary⟩ := one.record
      refine ⟨_, r, rfl, whole.2.2.1, whole.2.1, whole.1, ring, by rw [one.tu]; rfl, by rw [one.tu]; rfl, by rw [one.tu],
        by rw [one.tu]; rfl, hr, number, by rw [one.tu], entry, highest, first, secondary, ?_, fun p => ?_⟩
      · exact tripOut_quick (by rw [one.tu]) (by rw [one.tu]; rfl) (.inl (by rw [one.tu])) (by rw [one.tu]; rfl)
      · rw [State.port, one.cp, reset_notified]
    case true.true =>
      have one := raise_lineTripped (st := st) (low := true) (brk := true) (l := s.pending) (c := ⟨.tripIn, none⟩) (.inl rfl)
      obtain ⟨r, tu, number, first, entry, highest, secondary, cp⟩ := raise_second one
      have e : s.hardwareReset st true true =
          ((State.resetWith st true true s.pending).raise ⟨.tripIn, none⟩).raise ⟨.webBreak, none⟩ := by
        rw [State.hardwareReset, raiseLines_both rfl (by rw [one.tu]; rfl)]
      rw [one.tu, ← e] at tu
      rw [one.cp, ← e] at cp
      refine ⟨_, r, rfl, whole.2.2.1, whole.2.1, whole.1, ring, by rw [tu]; rfl, by rw [tu]; rfl, by rw [tu],
        by rw [tu]; rfl, by rw [tu], number, by rw [tu], entry, highest, first, secondary, ?_, fun p => ?_⟩
      · exact tripOut_quick (by rw [tu]) (by rw [tu]; rfl) (.inr (.inr (by rw [tu]))) (by rw [tu]; rfl)
      · rw [State.port, cp, reset_notified]

end

section
/-! SUPPORT. The examination and the completion of a freeze walk. -/

namespace Sys2Proof.Machine

variable {s a : State} {t : HubTime} {p : PortNo} {g : Tag} {id : Nat} {w : Walk}

/-! ### The freeze walk -/

/-- A strip not RECEIVING that is frozen already, or that fits, keeps the law of the frozen tiles when it is frozen. -/
theorem freezeLaw_freeze {x : Strip} (n : BitVec 16) (ids : (s.is.strips.map (fun x => x.id)).Nodup)
    (hx : s.strip id = some x) (hr : x.receiving = false) (hf : x.freezeSet ≠ [] ∨ s.frozenTiles + x.tiles.length ≤ 256)
    (h : s.freezeLaw = true) : (s.onStrip id (fun y => { y with freezeSet := y.freezeSet ++ [n] })).freezeLaw = true := by
  rw [freezeLaw_good] at h ⊢
  refine FreezeGood.perm ?_ (strips_perm ids hx (fun y => { y with freezeSet := y.freezeSet ++ [n] })).symm
  obtain ⟨h1, -, h3⟩ := (freezeGood_cons _ _).1 (h.perm (strips_perm_self ids hx))
  refine (freezeGood_cons _ _).2 ⟨?_, fun e => absurd (hr.symm.trans e) Bool.false_ne_true, h3⟩
  rw [if_neg (by simp)]
  by_cases e : x.freezeSet = []
  · have fits := hf.resolve_left (not_not.2 e)
    rw [frozenTiles_eq, frozenSum_perm (strips_perm_self ids hx), frozenSum_cons, if_pos e] at fits
    dsimp only
    omega
  · rw [if_neg e] at h1
    exact h1

/-- The strip with an id may be frozen for a record. -/
def State.freezable (s : State) (id : Nat) : Prop :=
  ∃ x ∈ s.strip id, x.receiving = false ∧ (x.freezeSet ≠ [] ∨ s.frozenTiles + x.tiles.length ≤ 256)

theorem examine_freezes (h : s.freezable id) : s.examine w id =
    (s.onStrip id (fun y => { y with freezeSet := y.freezeSet ++ [w.record] })).onIs (fun st =>
      { st with walk := st.walk.map (fun w => { w with frozen := w.frozen ++ [id] }) }) := by
  obtain ⟨x, hx, hr, hf⟩ := h
  unfold State.examine
  rw [Option.mem_def.1 hx]
  refine if_neg ?_
  rintro (e | ⟨e, e'⟩)
  · exact Bool.false_ne_true (hr.symm.trans e)
  · rcases hf with hf | hf
    · exact hf (List.isEmpty_iff.1 e)
    · omega

theorem examine_leaves (h : ¬ s.freezable id) : s.examine w id = s := by
  unfold State.examine
  split
  · rfl
  next x hx =>
    refine if_pos ?_
    by_contra hn
    rw [not_or, not_and] at hn
    refine h ⟨x, hx, Bool.eq_false_iff.2 hn.1, ?_⟩
    by_cases e : x.freezeSet = []
    · exact .inr (Nat.not_lt.1 (hn.2 (List.isEmpty_iff.2 e)))
    · exact .inl e

/-- The candidate that a walk takes has left its list. -/
noncomputable def State.walkOn (s : State) (w : Walk) : State := s.onIs (fun st => { st with walk := some w })

theorem walkExamination_strip {rest : List (Option Nat)} {n : BitVec 16} {frozen : List Nat}
    (h : s.is.walk = some ⟨n, some id :: rest, frozen⟩) (hf : frozen.length < 16) : s.walkExamination =
      (s.walkOn ⟨n, rest, frozen⟩).examine ⟨n, some id :: rest, frozen⟩ id := by
  simp only [State.walkExamination, h, if_pos hf]
  rfl

theorem walkExamination_gone {rest : List (Option Nat)} {n : BitVec 16} {frozen : List Nat}
    (h : s.is.walk = some ⟨n, none :: rest, frozen⟩) (hf : frozen.length < 16) :
    s.walkExamination = s.walkOn ⟨n, rest, frozen⟩ := by
  simp only [State.walkExamination, h, if_pos hf]
  rfl

theorem walkExamination_idle (h : ∀ n c rest frozen, s.is.walk = some ⟨n, c :: rest, frozen⟩ → ¬ frozen.length < 16) :
    s.walkExamination = s := by
  unfold State.walkExamination
  split
  next w hw =>
    split
    next c rest hc =>
      obtain ⟨n, l, frozen⟩ := w
      dsimp only at hc ⊢
      subst hc
      exact if_neg (h n c rest frozen hw)
    · rfl
  · rfl

theorem keeps_examine (s : State) (w : Walk) (id : Nat) : Keeps [.is] s (s.examine w id) := by
  by_cases h : s.freezable id
  · rw [examine_freezes h]
    exact (keeps_onIs _ _).trans (keeps_onIs _ _)
  · rw [examine_leaves h]
    exact .refl _ s

theorem walkOn_freezable (s : State) (w : Walk) (id : Nat) : (s.walkOn w).freezable id ↔ s.freezable id := Iff.rfl

theorem walkExamination_freezeLaw (ids : (s.is.strips.map (fun x => x.id)).Nodup) (h : s.freezeLaw = true) :
    s.walkExamination.freezeLaw = true := by
  unfold State.walkExamination
  split
  next w hw =>
    split
    next c rest hc =>
      split
      · cases c with
        | none => exact h
        | some id =>
          show (State.examine (s.walkOn _) w id).freezeLaw = true
          by_cases hf : s.freezable id
          · rw [examine_freezes ((walkOn_freezable s _ id).2 hf)]
            obtain ⟨x, hx, hr, hf⟩ := hf
            exact freezeLaw_freeze w.record ids hx hr hf h
          · rw [examine_leaves (fun e => hf ((walkOn_freezable s _ id).1 e))]
            exact h
      · exact h
    · exact h
  · exact h

theorem keeps_captured (s : State) : Keeps [.rc, .tu, .cp] s s.captured := by
  unfold State.captured
  split
  · exact .ite (keeps_setTrip s _) (keeps_setTrip s _)
  all_goals exact (keeps_notify s _).mono (by decide)

theorem captured_ends (h : s.tu.state = .capture) : s.captured =
    s.setTrip (if s.su.tracker.flags.atRest = true ∨ s.rc.ringState = .lost then .stopped else .stopping) := by
  unfold State.captured
  rw [h]
  dsimp only
  split
  · rfl
  · rfl

theorem captured_stays (h : s.tu.state ≠ .capture) : s.captured = s.notify .trip := by
  unfold State.captured
  split
  next e => exact absurd e h
  all_goals rfl

theorem captured_tu (s : State) : s.captured.tu = { s.tu with
    state := if s.tu.state ≠ .capture then s.tu.state
      else if s.su.tracker.flags.atRest = true ∨ s.rc.ringState = .lost then .stopped else .stopping
    releaseLevel := s.captured.tu.releaseLevel } := by
  by_cases h : s.tu.state = .capture
  · rw [captured_ends h, setTrip_tu, if_neg (not_not.2 h)]
    split <;> rfl
  · rw [captured_stays h, if_pos h]
    rfl

/-- Notice TRIP at a walk's completion. -/
theorem captured_cp (s : State) : s.captured.cp = s.cp.notified s.cp.routes.trip 8#11 := by
  unfold State.captured
  split
  · split <;> exact setTrip_cp s _
  all_goals exact notify_cp s .trip

theorem walkCompletion_done (h : s.is.walk = some w) (hd : w.candidates = [] ∨ 16 ≤ w.frozen.length) :
    s.walkCompletion = (s.storeFrozen w).captured := by
  unfold State.walkCompletion
  rw [h]
  exact if_pos hd

theorem walkCompletion_idle (h : ∀ w, s.is.walk = some w → ¬ (w.candidates = [] ∨ 16 ≤ w.frozen.length)) :
    s.walkCompletion = s := by
  unfold State.walkCompletion
  split
  next w hw => exact if_neg (h w hw)
  · rfl

end Sys2Proof.Machine

open Sys2Proof Sys2Proof.Machine

/-- Settles O36: the examination by what the candidate is, the completion by what is left of the walk. -/
theorem freezeWalk : Obligations.FreezeWalk := by
  intro s t
  refine ⟨⟨_, rfl, fun ids law => walkExamination_freezeLaw (s := s.advance t) ids law, ?_⟩, _, rfl, ?_⟩
  · split
    next n c rest frozen hw =>
      by_cases hf : frozen.length < 16
      · rw [if_pos hf]
        cases c with
        | none =>
          rw [walkExamination_gone (s := s.advance t) hw hf]
          exact ⟨frame_finish (keeps_onIs _ _), rfl⟩
        | some id =>
          rw [walkExamination_strip (s := s.advance t) hw hf]
          refine ⟨frame_finish ((keeps_onIs _ _).trans (keeps_examine _ _ _)), ?_⟩
          dsimp only
          split
          next hz => rw [examine_freezes (s := (s.advance t).walkOn _) hz]; rfl
          next hz => rw [examine_leaves (s := (s.advance t).walkOn _) hz]; rfl
      · rw [if_neg hf, walkExamination_idle (s := s.advance t) fun n' c' rest' frozen' e => by
          cases hw.symm.trans e; exact hf]
        exact finish_idle s t
    next n frozen hw =>
      rw [walkExamination_idle (s := s.advance t) fun n' c' rest' frozen' e => nomatch hw.symm.trans e]
      exact finish_idle s t
    next hw =>
      rw [walkExamination_idle (s := s.advance t) fun n' c' rest' frozen' e => nomatch hw.symm.trans e]
      exact finish_idle s t
  · cases hw : s.is.walk with
    | none =>
      rw [walkCompletion_idle (s := s.advance t) fun w e => nomatch hw.symm.trans e]
      exact finish_idle s t
    | some w =>
      dsimp only
      by_cases hd : w.candidates = [] ∨ 16 ≤ w.frozen.length
      · rw [if_pos hd, walkCompletion_done (s := s.advance t) hw hd]
        have keep := keeps_captured ((s.advance t).storeFrozen w)
        have tu := captured_tu ((s.advance t).storeFrozen w)
        have records : ((s.advance t).storeFrozen w).captured.tu.records =
            onNewest w.record (fun r => { r with frozen := w.frozen, capturing := false }) s.tu.records := by rw [tu]; rfl
        have causes : ((s.advance t).storeFrozen w).captured.tu.causes = s.tu.causes := by rw [tu]; rfl
        have current : ((s.advance t).storeFrozen w).captured.tu.current = s.tu.current := by rw [tu]; rfl
        have state : ((s.advance t).storeFrozen w).captured.tu.state = (if s.tu.state ≠ .capture then s.tu.state
            else if s.su.tracker.flags.atRest = true ∨ s.rc.ringState = .lost then .stopped else .stopping) := by
          rw [tu]; rfl
        refine ⟨keep.2.2.2 .is (by decide), keep.2.2.2 .su (by decide), keep.2.2.2 .se (by decide),
          keep.2.2.2 .ru (by decide), keep.2.2.2 .im (by decide), keep.2.2.2 .ms (by decide),
          fun before r after hr hn ha => records.trans ?_, fun hn => records.trans (onNewest_none _ _ _ hn),
          causes, current, state, fun q hq => ?_⟩
        · rw [hr]
          exact onNewest_append _ _ _ _ _ hn ha
        · show ((State.captured _).cp.ports.get q).pending = _
          rw [captured_cp]
          simp only [CP.notified, Table.get_mapIdx]
          rw [if_pos (show ((s.advance t).storeFrozen w).cp.routes.trip.getLsbD q = true from hq)]
          rfl
      · rw [if_neg hd, walkCompletion_idle (s := s.advance t) fun w' e => by cases hw.symm.trans e; exact hd]
        exact finish_idle s t

end

section
/-! SUPPORT. The storing, the discarding and the holding of strips. -/

namespace Sys2Proof.Machine

variable {s a : State} {t : HubTime} {p : PortNo} {g : Tag} {id off : Nat} {x : Strip} {bytes : List Byte}

theorem ownedBy_iff (x : Strip) (p : PortNo) : x.ownedBy p = true ↔ x.origin = .here p := by
  unfold Strip.ownedBy
  cases x.origin with
  | here q => simp
  | remote h i => simp

/-! ### The bytes stored -/

/-- Bytes stored at addresses of their own read back in order. -/
theorem tileStore_reads {m : Memory} (tiles : List Nat) (off : Nat) (bytes : List Byte) (h : Memory.wf m = true)
    (hd : ((List.range bytes.length).map (fun j => tileAddr tiles (off + j))).Nodup) :
    (List.range bytes.length).map (fun j => memRead (tileStore m tiles off bytes) (tileAddr tiles (off + j))) = bytes := by
  induction bytes generalizing m off with
  | nil => rfl
  | cons b bs ih =>
    have shift : ∀ j, off + 1 + j = off + (j + 1) := fun j => by omega
    rw [List.length_cons, List.range_succ_eq_map, List.map_cons, List.map_map] at hd ⊢
    obtain ⟨first, rest⟩ := List.nodup_cons.1 hd
    rw [Nat.add_zero] at first ⊢
    have tail := ih (m := memWrite m (tileAddr tiles off) b) (off + 1) (memWrite_wf _ _ h) (by
      refine (List.map_congr_left fun j _ => ?_) ▸ rest
      exact congrArg (tileAddr tiles) (shift j).symm)
    refine List.cons_eq_cons.2 ⟨?_, ?_⟩
    · refine memRead_tileStore_head tiles off b bs h fun j hj e => first (List.mem_map.2 ⟨j, List.mem_range.2 hj, ?_⟩)
      show tileAddr tiles (off + (j + 1)) = _
      rw [← shift]
      exact e
    · refine Eq.trans (List.map_congr_left fun j _ => ?_) tail
      show memRead (tileStore m tiles off (b :: bs)) (tileAddr tiles (off + (j + 1))) = _
      rw [shift]
      rfl

/-! ### The requests, check by check -/

/-- STRIP DATA of a strip that is in the directory, and of a size in range. -/
theorem reqStripData_eq (h : s.strip id = some x) (h1 : 1 ≤ bytes.length) (h2 : bytes.length ≤ 1024) :
    reqStripData p (some id) (some off) bytes s =
      if x.origin ≠ .here p then (s, status .notYours)
      else if x.complete then (s, status .badState)
      else if off ≠ x.fill then (s, status .outOfOrder)
      else if x.byteSize < off + bytes.length then (s, status .badArgument)
      else ((s.onIs (fun st => { st with mem := tileStore st.mem x.tiles off bytes })).onStrip id
        (fun y => { y with fill := y.fill + bytes.length }), status .done) := by
  unfold reqStripData
  dsimp only
  rw [if_neg (show ¬ (bytes.length < 1 ∨ 1024 < bytes.length) by omega), h]
  simp only [ownedBy_iff, ne_eq]

theorem reqStripData_gone (h : s.strip id = none) (h1 : 1 ≤ bytes.length) (h2 : bytes.length ≤ 1024) :
    reqStripData p (some id) (some off) bytes s = (s, status .gone) := by
  unfold reqStripData
  dsimp only
  rw [if_neg (show ¬ (bytes.length < 1 ∨ 1024 < bytes.length) by omega), h]

theorem reqStripDiscard_eq (h : s.strip id = some x) : reqStripDiscard p (some id) s =
    if x.receiving = true ∨ (x.complete = false ∧ x.origin ≠ .here p) then (s, status .notYours)
    else if x.pinned then (s, status .busy) else (s.removeStrip id, status .done) := by
  have order : ((¬ x.complete = true ∧ ¬ x.ownedBy p = true) ∨ x.receiving = true) ↔
      (x.receiving = true ∨ (x.complete = false ∧ x.origin ≠ .here p)) := by
    rw [ownedBy_iff, Bool.not_eq_true, or_comm]
  simp only [reqStripDiscard, h, order]

theorem reqStripDiscard_gone (h : s.strip id = none) : reqStripDiscard p (some id) s = (s, status .gone) := by
  simp only [reqStripDiscard, h]

theorem reqStripHold_eq (h : s.strip id = some x) : reqStripHold p (some id) s =
    if x.complete = false then (s, status .badState)
    else if 4 ≤ s.holdsOf p then (s, status .full)
    else (s.onStrip id (fun y => { y with holds := y.holds.set p (y.holds.get p + 1) }), status .done) := by
  simp only [reqStripHold, h, Bool.not_eq_true, Table.modify]

theorem reqStripHold_gone (h : s.strip id = none) : reqStripHold p (some id) s = (s, status .gone) := by
  simp only [reqStripHold, h]

theorem reqStripUnhold_eq (h : s.strip id = some x) : reqStripUnhold p (some id) s =
    if x.holds.get p = 0 then (s, status .badState)
    else (s.onStrip id (fun y => { y with holds := y.holds.set p (y.holds.get p - 1) }), status .done) := by
  simp only [reqStripUnhold, h, Table.modify]

theorem reqStripUnhold_gone (h : s.strip id = none) : reqStripUnhold p (some id) s = (s, status .gone) := by
  simp only [reqStripUnhold, h]

/-- A strip that is in the directory leaves it: all that changes. -/
theorem removeStrip_changes (h : s.strip id = some x) : (s.removeStrip id).is = { s.is with
    strips := s.is.strips.filter (fun y => y.id != id)
    age := s.is.age.filter (fun a => a != id)
    free := s.is.free ++ x.tiles
    walk := s.is.walk.map (fun w => { w with
      candidates := w.candidates.map (fun c => if c = some id then none else c) }) } := by
  rw [removeStrip_is, h]
  rfl

end Sys2Proof.Machine

open Sys2Proof Sys2Proof.Machine

/-- Settles O40: the refusals in their order, then the bytes stored. -/
theorem stripDataIsStored : Obligations.StripDataIsStored := by
  intro s t p g id off bytes h h1 h2 wf
  have refused : ∀ {st : Status}, reqStripData p (some id) (some off) bytes (s.handed t p g) = (s.handed t p g, status st) →
      ∃ s', exec (.stripData t p g (some id) (some off) bytes) s = .next s' ∧ s.frame s' t [.cp]
        ∧ s'.cp = s.cp.answered p g st [] := by
    intro st e
    exact (request_refused (l := [.cp]) h e (by decide)).imp fun s' a =>
      ⟨a.1, a.2.1, a.2.2.cp⟩
  cases hx : s.is.strips.find? (fun x => x.id == id) with
  | none => exact refused (reqStripData_gone (s := s.handed t p g) hx h1 h2)
  | some x =>
    have e := reqStripData_eq (s := s.handed t p g) (p := p) (off := off) hx h1 h2
    dsimp only
    by_cases c1 : x.origin ≠ .here p
    · simp only [if_pos c1] at e ⊢
      exact refused e
    by_cases c2 : x.complete = true
    · simp only [if_neg c1, if_pos c2] at e ⊢
      exact refused e
    by_cases c3 : off ≠ x.fill
    · simp only [if_neg c1, if_neg c2, if_pos c3] at e ⊢
      exact refused e
    by_cases c4 : x.byteSize < off + bytes.length
    · simp only [if_neg c1, if_neg c2, if_neg c3, if_pos c4] at e ⊢
      exact refused e
    simp only [if_neg c1, if_neg c2, if_neg c3, if_neg c4] at e ⊢
    obtain ⟨s', a1, a2, a3⟩ := request_answered (l' := [.is, .cp]) h e ((keeps_onIs _ _).trans (keeps_onIs _ _)) (by decide)
      (by decide)
    have mem : s'.is.mem = tileStore s.is.mem x.tiles off bytes := congrArg IS.mem a3.is
    refine ⟨s', a1, a2, a3.cp, ?_, fun k hk => ?_, fun hd => ?_⟩
    · rw [a3.is]; rfl
    · rw [mem]
      exact memRead_tileStore_other x.tiles off bytes wf hk
    · rw [mem]
      exact tileStore_reads x.tiles off bytes wf hd

/-- Settles O42: of each request the refusals in their order, then what it does. -/
theorem stripDiscardAndHolds : Obligations.StripDiscardAndHolds := by
  intro s t p g id
  refine ⟨fun h => ?_, fun h => ?_, fun h => ?_⟩
  · have refused : ∀ {st : Status}, reqStripDiscard p (some id) (s.handed t p g) = (s.handed t p g, status st) →
        ∃ s', exec (.stripDiscard t p g (some id)) s = .next s' ∧ s.frame s' t [.is, .ms, .cp]
          ∧ s'.is = s.is ∧ s'.ms = s.ms ∧ s'.cp = s.cp.answered p g st [] := by
      intro st e
      exact (request_refused (l := [.is, .ms, .cp]) h e (by decide)).imp fun s' a =>
        ⟨a.1, a.2.1, a.2.2.is, a.2.2.ms, a.2.2.cp⟩
    cases hx : s.is.strips.find? (fun x => x.id == id) with
    | none => exact refused (reqStripDiscard_gone (s := s.handed t p g) hx)
    | some x =>
      have e := reqStripDiscard_eq (s := s.handed t p g) (p := p) hx
      dsimp only
      by_cases c1 : x.receiving = true ∨ (x.complete = false ∧ x.origin ≠ .here p)
      · simp only [if_pos c1] at e ⊢
        exact refused e
      by_cases c2 : x.pinned = true
      · simp only [if_neg c1, if_pos c2] at e ⊢
        exact refused e
      simp only [if_neg c1, if_neg c2] at e ⊢
      obtain ⟨s', a1, a2, a3⟩ := request_answered (l := [.is, .ms]) (l' := [.is, .ms, .cp]) h e
        (((keeps_onIs _ _).mono (by decide)).trans ((keeps_onMs _ _).mono (by decide))) (by decide) (by decide)
      exact ⟨s', a1, a2, a3.cp, a3.is.trans (removeStrip_changes (s := s.handed t p g) hx), a3.ms⟩
  · have refused : ∀ {st : Status}, reqStripHold p (some id) (s.handed t p g) = (s.handed t p g, status st) →
        ∃ s', exec (.stripHold t p g (some id)) s = .next s' ∧ s.frame s' t [.is, .cp]
          ∧ s'.is = s.is ∧ s'.cp = s.cp.answered p g st [] := by
      intro st e
      exact (request_refused (l := [.is, .cp]) h e (by decide)).imp fun s' a =>
        ⟨a.1, a.2.1, a.2.2.is, a.2.2.cp⟩
    cases hx : s.is.strips.find? (fun x => x.id == id) with
    | none => exact refused (reqStripHold_gone (s := s.handed t p g) hx)
    | some x =>
      have e := reqStripHold_eq (s := s.handed t p g) (p := p) hx
      dsimp only
      by_cases c1 : x.complete = false
      · simp only [if_pos c1] at e ⊢
        exact refused e
      by_cases c2 : 4 ≤ (s.is.strips.map (fun y => y.holds.get p)).sum
      · rw [if_neg c1, if_pos (show 4 ≤ State.holdsOf (s.handed t p g) p from c2)] at e
        simp only [if_neg c1, if_pos c2]
        exact refused e
      rw [if_neg c1, if_neg (show ¬ 4 ≤ State.holdsOf (s.handed t p g) p from c2)] at e
      simp only [if_neg c1, if_neg c2]
      exact (request_answered (l' := [.is, .cp]) h e (keeps_onIs _ _) (by decide) (by decide)).imp fun s' a =>
        ⟨a.1, a.2.1, a.2.2.cp, a.2.2.is⟩
  · have refused : ∀ {st : Status}, reqStripUnhold p (some id) (s.handed t p g) = (s.handed t p g, status st) →
        ∃ s', exec (.stripUnhold t p g (some id)) s = .next s' ∧ s.frame s' t [.is, .cp]
          ∧ s'.is = s.is ∧ s'.cp = s.cp.answered p g st [] := by
      intro st e
      exact (request_refused (l := [.is, .cp]) h e (by decide)).imp fun s' a =>
        ⟨a.1, a.2.1, a.2.2.is, a.2.2.cp⟩
    cases hx : s.is.strips.find? (fun x => x.id == id) with
    | none => exact refused (reqStripUnhold_gone (s := s.handed t p g) hx)
    | some x =>
      have e := reqStripUnhold_eq (s := s.handed t p g) (p := p) hx
      dsimp only
      by_cases c1 : x.holds.get p = 0
      · simp only [if_pos c1] at e ⊢
        exact refused e
      simp only [if_neg c1] at e ⊢
      exact (request_answered (l' := [.is, .cp]) h e (keeps_onIs _ _) (by decide) (by decide)).imp fun s' a =>
        ⟨a.1, a.2.1, a.2.2.cp, a.2.2.is⟩

end

section
/-! SUPPORT. How a mark is judged, and what a REGISTER SET stores. -/

namespace Sys2Proof.Machine

variable {s a : State} {t : HubTime} {p : PortNo} {g : Tag} {i : SlotNo} {mark : Angle}

/-! ### A mark within the window -/

/-- The correction of a mark within the window: 0 up to the deadband. -/
noncomputable def Loop.correction (l : Loop) (es : Int) : Int := if l.deadband < es.natAbs then correctionOf es l.gain else 0

/-- The error of a mark in section increments. -/
noncomputable def State.markError (s : State) (i : SlotNo) (mark : Angle) : Int :=
  sectionError (sdiff mark (s.loop i).mexp) (s.slot i).n (s.slot i).d

/-- A section that is given a correction, delivered where it is beyond the deadband. -/
noncomputable def Section.corrected (x : Section) (c : Int) (beyond : Bool) : Section :=
  { x with corrSum := x.corrSum + c, corrHeld := x.corrHeld || beyond }

theorem setLoopState_changed {st : LoopState} (h : (s.loop i).state ≠ st) :
    s.setLoopState i st = (s.onLoop i (fun l => { l with state := st })).notify .register := if_neg h

theorem onLoop_onLoop (s : State) (i : SlotNo) (f h : Loop → Loop) :
    (s.onLoop i f).onLoop i h = s.onLoop i (fun l => h (f l)) := by
  simp [State.onLoop, State.onRu, Table.modify]

theorem setLoopState_same {st : LoopState} (h : (s.loop i).state = st) :
    s.setLoopState i st = s.onLoop i (fun l => { l with state := st }) := by
  have same : ({ s.loop i with state := st } : Loop) = s.loop i := by rw [← h]
  have loops : s.ru.loops.modify i (fun l => { l with state := st }) = s.ru.loops := by
    rw [Table.modify_eq_set]
    exact (congrArg (s.ru.loops.set i) same).trans (Table.set_get _ _)
  refine (if_pos h).trans ?_
  show s = { s with ru := { s.ru with loops := s.ru.loops.modify i (fun l => { l with state := st }) } }
  rw [loops]

/-- Both kinds of acceptance leave the section as this says: nothing is delivered within the deadband. -/
theorem deliver_eq (s : State) (i : SlotNo) {c : Int} {beyond : Bool} (h : beyond = false → c = 0) :
    (if beyond then s.deliver i c else s) = s.onSlot i (fun x => x.corrected c beyond) := by
  cases beyond with
  | true =>
    rw [if_pos rfl]
    refine congrArg (s.onSlot i) (funext fun x => ?_)
    rw [Section.corrected, Bool.or_true]
  | false =>
    rw [h rfl]
    have same : (s.slot i).corrected 0 false = s.slot i := by
      rw [Section.corrected, Bool.or_false, Int.add_zero]
    have slots : s.se.slots.modify i (fun x => x.corrected 0 false) = s.se.slots := by
      rw [Table.modify_eq_set]
      exact (congrArg (s.se.slots.set i) same).trans (Table.set_get _ _)
    show s = { s with se := { s.se with slots := s.se.slots.modify i (fun x => x.corrected 0 false) } }
    rw [slots]

theorem judgeMark_stray (h : (s.loop i).window < (sdiff mark (s.loop i).mexp).natAbs) :
    s.judgeMark i mark = s.onLoop i (fun l => l.stray (sdiff mark (s.loop i).mexp)) := if_pos h

/-- A mark within the window, up to the state of the loop. -/
theorem judgeMark_accepts (h : ¬ (s.loop i).window < (sdiff mark (s.loop i).mexp).natAbs) :
    s.judgeMark i mark = ((s.onSlot i (fun x => x.corrected ((s.loop i).correction (s.markError i mark))
      (decide ((s.loop i).deadband < (s.markError i mark).natAbs)))).onLoop i (fun l =>
        l.accept (sdiff mark (s.loop i).mexp) (s.markError i mark)
          ((s.loop i).correction (s.markError i mark)))).setLoopState i .locked := by
  have c : (if decide ((s.loop i).deadband < (s.markError i mark).natAbs) = true
      then correctionOf (s.markError i mark) (s.loop i).gain else 0) = (s.loop i).correction (s.markError i mark) := by
    unfold Loop.correction
    simp only [decide_eq_true_eq]
  have unfolded : s.judgeMark i mark = if (s.loop i).window < (sdiff mark (s.loop i).mexp).natAbs then
      s.onLoop i (fun l => l.stray (sdiff mark (s.loop i).mexp)) else
      ((if decide ((s.loop i).deadband < (s.markError i mark).natAbs) = true then
          s.deliver i (if decide ((s.loop i).deadband < (s.markError i mark).natAbs) = true
            then correctionOf (s.markError i mark) (s.loop i).gain else 0) else s).onLoop i (fun l =>
        l.accept (sdiff mark (s.loop i).mexp) (s.markError i mark)
          (if decide ((s.loop i).deadband < (s.markError i mark).natAbs) = true
            then correctionOf (s.markError i mark) (s.loop i).gain else 0))).setLoopState i .locked := rfl
  rw [unfolded, if_neg h, c, deliver_eq]
  intro e
  unfold Loop.correction
  exact if_neg (of_decide_eq_false e)

end Sys2Proof.Machine

open Sys2Proof Sys2Proof.Machine

/-- Settles O30: the stray mark, and the mark within the window of a loop that was LOCKED and of one that was not. -/
theorem judgedMark : Obligations.JudgedMark := by
  intro s i mark e es c he hes hc
  subst he hes hc
  by_cases h : (s.loop i).window < (sdiff mark (s.loop i).mexp).natAbs
  · rw [if_pos (show (s.loop i).window < ((mark - (s.loop i).mexp).toInt).natAbs from h)]
    exact judgeMark_stray h
  · rw [if_neg (show ¬ (s.loop i).window < ((mark - (s.loop i).mexp).toInt).natAbs from h), judgeMark_accepts h]
    by_cases hl : (s.loop i).state = .locked
    · rw [setLoopState_same, if_pos hl, onLoop_onLoop]
      · exact ⟨rfl, rfl, rfl⟩
      · rw [loop_onLoop, if_pos rfl]
        exact hl
    · rw [setLoopState_changed, if_neg hl, onLoop_onLoop]
      · exact ⟨rfl, rfl, rfl⟩
      · rw [loop_onLoop, if_pos rfl]
        exact hl

end

section
/-! SUPPORT. What a REGISTER SET stores in an input and in a loop. -/

namespace Sys2Proof.Machine

variable {s a : State} {t : HubTime} {p : PortNo} {g : Tag} {i : SlotNo}

/-! ### Values named and clamped -/

theorem clamp_within {lo hi : Nat} (h : lo ≤ hi) (v : Nat) : clampNat lo hi v = max lo (min v hi) := by
  rw [clampNat_eq _ _ _ h, Nat.min_comm]

theorem clamps_below (hi : Nat) (o : Option Nat) : o.map (clampNat 0 hi) = o.map (fun v => min v hi) :=
  congrArg (fun f => o.map f) (funext (clamp_below hi))

theorem clamps_within {lo hi : Nat} (h : lo ≤ hi) (o : Option Nat) :
    o.map (clampNat lo hi) = o.map (fun v => max lo (min v hi)) := congrArg (fun f => o.map f) (funext (clamp_within h))

/-- An item is as it was named exactly when it was named within its range. -/
theorem clamped_same {lo hi : Nat} (h : lo ≤ hi) (o : Option Nat) :
    o.map (clampNat lo hi) = o ↔ ∀ v ∈ o, lo ≤ v ∧ v ≤ hi := by
  cases o with
  | none => simp
  | some v =>
    rw [Option.map_some, Option.some_inj, clampNat_eq_self lo hi v h]
    simp

theorem clamped_same_below (hi : Nat) (o : Option Nat) : o.map (clampNat 0 hi) = o ↔ ∀ v ∈ o, v ≤ hi := by
  rw [clamped_same (Nat.zero_le _)]
  simp

/-! ### The input form -/

theorem edgeOf_named {e : Nat} (h : e ≤ 1) : edgeOf e = some (if e = 0 then .rising else .falling) := by
  interval_cases e <;> rfl

/-- An input with the named items stored. -/
noncomputable def MarkInput.given (m : MarkInput) (a : InputItems) : MarkInput :=
  { m with
    edge := match a.edge with
      | some 0 => .rising
      | some _ => .falling
      | none => m.edge
    holdOff := (a.holdOff.map (fun v => min v 65535)).getD m.holdOff
    map := a.map.getD m.map }

theorem reqRegisterInput_eq (i : Fin 8) {items : InputItems} (hn : items ≠ {}) (he : ∀ e ∈ items.edge, e ≤ 1) :
    reqRegisterInput (some i.val) items s = (s.onInput i (fun m => m.given items),
      status (if ∀ v ∈ items.holdOff, v ≤ 65535 then .done else .clamped)) := by
  have known : ¬ (items = {} ∨ (items.edge.isSome = true ∧ (items.edge.bind edgeOf).isNone = true)) := by
    rintro (h | ⟨h1, h2⟩)
    · exact hn h
    · obtain ⟨e, h⟩ := Option.isSome_iff_exists.1 h1
      rw [h, Option.bind_some, edgeOf_named (he e h)] at h2
      cases h2
  have edge : ∀ d : Edge, (items.edge.bind edgeOf).getD d = (match items.edge with
      | some 0 => .rising
      | some _ => .falling
      | none => d) := by
    intro d
    split
    next h => rw [h]; rfl
    next n hz h =>
      have h0 : n ≠ 0 := hz
      rw [h, Option.bind_some, edgeOf_named (he n h), if_neg h0]
      rfl
    next h => rw [h]; rfl
  simp only [reqRegisterInput, argFin_val, if_neg known, clamped_same_below, edge]
  rw [clamps_below]
  rfl

/-! ### The loop form -/

/-- The loop's source, expected angle or window is another one once the items are stored. -/
abbrev Loop.moves (l : Loop) (c : LoopChange) : Prop :=
  (l.store c).source ≠ l.source ∨ (l.store c).mexp ≠ l.mexp ∨ (l.store c).window ≠ l.window

/-- What a change makes of the enabling, the state, the misses and the mark of a loop. -/
def Loop.becomes (l m : Loop) (moved : Prop) [Decidable moved] : Prop :=
  if l.enable = true ∧ m.enable = false then m.state = .off ∧ m.misses = 0 ∧ m.markSeen = false
  else if (l.enable = false ∧ m.enable = true) ∨ (l.enable = true ∧ moved) then
    m.state = .seeking ∧ m.misses = 0 ∧ m.markSeen = false
  else m.state = l.state ∧ m.misses = l.misses ∧ m.markSeen = l.markSeen

/-- The four forms of a changed loop: restarted or not, and enabled or disabled anew or not. -/
theorem change_forms (l : Loop) (c : LoopChange) :
    (l.change c = l.store c ∧ c.enable.getD l.enable = l.enable ∧ ¬ (l.enable = true ∧ l.moves c))
    ∨ (l.change c = (l.store c).restart .seeking ∧ c.enable.getD l.enable = l.enable ∧ l.enable = true ∧ l.moves c)
    ∨ (l.change c = { (l.store c).restart .seeking with enable := true } ∧ c.enable = some true ∧ l.enable = false)
    ∨ (l.change c = { (l.store c).restart .off with enable := false } ∧ c.enable = some false ∧ l.enable = true) := by
  by_cases moved : l.enable = true ∧ l.moves c
  · have first : (if l.enable ∧ ((l.store c).source ≠ l.source ∨ (l.store c).mexp ≠ l.mexp ∨ (l.store c).window ≠ l.window)
        then (l.store c).restart .seeking else l.store c) = (l.store c).restart .seeking := if_pos moved
    unfold Loop.change
    dsimp only
    rw [first]
    split
    next hc => exact .inr (.inl ⟨if_pos moved.1, by rw [hc, moved.1]; rfl, moved⟩)
    next hc => exact .inr (.inr (.inr ⟨if_pos moved.1, hc, moved.1⟩))
    next hc => exact .inr (.inl ⟨rfl, by rw [hc]; rfl, moved⟩)
  · have first : (if l.enable ∧ ((l.store c).source ≠ l.source ∨ (l.store c).mexp ≠ l.mexp ∨ (l.store c).window ≠ l.window)
        then (l.store c).restart .seeking else l.store c) = l.store c := if_neg moved
    unfold Loop.change
    dsimp only
    rw [first]
    split
    next hc =>
      by_cases he : l.enable = true
      · exact .inl ⟨if_pos he, by rw [hc, he]; rfl, moved⟩
      · exact .inr (.inr (.inl ⟨if_neg he, hc, Bool.eq_false_iff.2 he⟩))
    next hc =>
      by_cases he : l.enable = true
      · exact .inr (.inr (.inr ⟨if_pos he, hc, he⟩))
      · exact .inl ⟨if_neg he, by rw [hc, Bool.eq_false_iff.2 he]; rfl, moved⟩
    next hc => exact .inl ⟨rfl, by rw [hc]; rfl, moved⟩

theorem change_enable (l : Loop) (c : LoopChange) : (l.change c).enable = c.enable.getD l.enable := by
  rcases change_forms l c with ⟨e, h, -⟩ | ⟨e, h, -⟩ | ⟨e, h, -⟩ | ⟨e, h, -⟩
  · rw [e, h]; rfl
  · rw [e, h]; rfl
  · rw [e, h]; rfl
  · rw [e, h]; rfl

/-- A changed loop holds the items stored; the rest of the change is in these four fields. -/
theorem change_store (l : Loop) (c : LoopChange) : l.change c = { l.store c with
    enable := (l.change c).enable, state := (l.change c).state, misses := (l.change c).misses
    markSeen := (l.change c).markSeen } := by
  rcases change_forms l c with ⟨e, -⟩ | ⟨e, -⟩ | ⟨e, -⟩ | ⟨e, -⟩ <;> rw [e] <;> rfl

theorem change_becomes (l : Loop) (c : LoopChange) : l.becomes (l.change c) (l.moves c) := by
  have enable := change_enable l c
  unfold Loop.becomes
  rcases change_forms l c with ⟨e, h, hm⟩ | ⟨e, h, he, hm⟩ | ⟨e, h, he⟩ | ⟨e, h, he⟩
  · rw [h] at enable
    rw [enable, if_neg (by rintro ⟨h1, h2⟩; exact Bool.false_ne_true (h2.symm.trans h1)), if_neg, e]
    · exact ⟨rfl, rfl, rfl⟩
    · rintro (⟨h1, h2⟩ | h1)
      · exact Bool.false_ne_true (h1.symm.trans h2)
      · exact hm h1
  · rw [h, he] at enable
    rw [enable, if_neg (fun h => Bool.false_ne_true h.2.symm), if_pos (.inr ⟨he, hm⟩), e]
    exact ⟨rfl, rfl, rfl⟩
  · rw [h] at enable
    rw [enable, if_neg (fun h => Bool.false_ne_true (he.symm.trans h.1)), if_pos (.inl ⟨he, rfl⟩), e]
    exact ⟨rfl, rfl, rfl⟩
  · rw [h] at enable
    rw [enable, if_pos ⟨he, rfl⟩, e]
    exact ⟨rfl, rfl, rfl⟩

theorem sourceOf_named {x : SourceArg} (h : (x.code = 0 ∧ x.index < 8) ∨ (x.code = 1 ∧ x.index < 4)) :
    sourceOf x = some (if x.code = 0 then .sensor (Fin.ofNat 8 x.index) else .image (Fin.ofNat 4 x.index)) := by
  rcases h with ⟨h, hi⟩ | ⟨h, hi⟩
  · have index : toFin 8 x.index = some (Fin.ofNat 8 x.index) :=
      (dif_pos hi).trans (congrArg some (Fin.ext (Nat.mod_eq_of_lt hi).symm))
    rw [sourceOf, h, if_pos rfl]
    exact congrArg (Option.map Source.sensor) index
  · have index : toFin 4 x.index = some (Fin.ofNat 4 x.index) :=
      (dif_pos hi).trans (congrArg some (Fin.ext (Nat.mod_eq_of_lt hi).symm))
    rw [sourceOf, h, if_neg Nat.one_ne_zero]
    exact congrArg (Option.map Source.image) index

theorem directionOf_named {d : Nat} (h : d ≤ 1) : directionOf d = some (if d = 0 then .right else .left) := by
  interval_cases d <;> rfl

/-- Every item of a loop-form REGISTER SET that has a table is in it. -/
structure LoopItemsFit (b : LoopItems) : Prop where
  source : ∀ x ∈ b.source, (x.code = 0 ∧ x.index < 8) ∨ (x.code = 1 ∧ x.index < 4)
  direction : ∀ d ∈ b.direction, d ≤ 1
  mexp : ∀ m ∈ b.mexp, m < 16777216

theorem named_known {α β : Type} {o : Option α} {f : α → Option β} (h : ∀ x ∈ o, (f x).isSome = true) :
    (o.isSome && (o.bind f).isNone) = false := by
  cases o with
  | none => rfl
  | some x =>
    have hx := h x rfl
    rw [Option.bind_some, Option.isNone_eq_false_iff.2 hx, Bool.and_false]

theorem loopItemsBad_inRange {b : LoopItems} (h : LoopItemsFit b) : loopItemsBad b = false := by
  unfold loopItemsBad
  rw [named_known fun x hx => by rw [sourceOf_named (h.source x hx)]; rfl,
    named_known fun x hx => by rw [directionOf_named (h.direction x hx)]; rfl,
    named_known fun x hx => by rw [toFin, dif_pos (h.mexp x hx)]; rfl]
  rfl

theorem loopClamped_iff (b : LoopItems) : loopClamped b = true ↔ ¬ ((∀ v ∈ b.window, v ≤ 4194304) ∧ (∀ v ∈ b.deadband, v ≤ 65535)
    ∧ (∀ v ∈ b.gain, v ≤ 255) ∧ (∀ v ∈ b.missLimit, 1 ≤ v ∧ v ≤ 15) ∧ (∀ v ∈ b.minSpeed, v ≤ 2147479552)
    ∧ (∀ v ∈ b.channel, v ≤ 3) ∧ (∀ v ∈ b.startColumn, v ≤ 4095) ∧ (∀ v ∈ b.threshold, v ≤ 255)
    ∧ (∀ v ∈ b.runLength, 1 ≤ v ∧ v ≤ 16)) := by
  rw [← clamped_same_below, ← clamped_same_below, ← clamped_same_below, ← clamped_same (by decide : 1 ≤ 15),
    ← clamped_same_below, ← clamped_same_below, ← clamped_same_below, ← clamped_same_below,
    ← clamped_same (by decide : 1 ≤ 16)]
  unfold loopClamped
  simp only [Bool.or_eq_true, decide_eq_true_eq, not_and_or, or_assoc]
  exact Iff.rfl

theorem reqRegisterLoop_eq {b : LoopItems} (i : SlotNo) (hn : b ≠ {}) (h : LoopItemsFit b) (s : State) :
    reqRegisterLoop (some i.val) b s =
      (if (s.loop i).state = ((s.loop i).change (loopChange b)).state then
          s.onLoop i (fun _ => (s.loop i).change (loopChange b))
        else (s.onLoop i (fun _ => (s.loop i).change (loopChange b))).notify .register,
        status (if loopClamped b then .clamped else .done)) := by
  have good : ¬ (b = {} ∨ loopItemsBad b = true) := by
    rw [loopItemsBad_inRange h]
    exact fun e => e.elim hn Bool.false_ne_true
  simp only [reqRegisterLoop, argFin_val, if_neg good]

theorem ite_clamped (b : LoopItems) {q : Prop} [Decidable q] (h : loopClamped b = true ↔ ¬ q) :
    (if loopClamped b then Status.clamped else .done) = if q then .done else .clamped := by
  by_cases hq : q
  · rw [if_pos hq, if_neg fun e => h.1 e hq]
  · rw [if_neg hq, if_pos (h.2 hq)]

/-- The Client Ports after an answer, with the notice that a change may give. -/
theorem perhaps_notified {b : State} {st : Status} {l : List Byte} {q : Prop} [Decidable q] {k : Notice}
    (h : b.cp = s.cp.waiting p g) :
    (State.respond (if q then b else b.notify k) p g st l).cp =
      (if q then s.cp else s.cp.notified (s.cp.routes.of k) k.mask).answered p g st l := by
  by_cases hq : q
  · rw [if_pos hq, if_pos hq]
    exact answered_cp s p g h
  · rw [if_neg hq, if_neg hq]
    refine notified_waiting s.cp p g st l ?_
    rw [notify_cp, h]
    rfl

end Sys2Proof.Machine

open Sys2Proof Sys2Proof.Machine

/-- Settles O32: the items stored, and the restarts of the loop form. -/
theorem registerSets : Obligations.RegisterSets := by
  intro s t p g i a j b h
  refine ⟨fun hn he => ?_, fun hn hs hd hm => ?_⟩
  · exact (request_answered (l' := [.ru, .cp]) h (reqRegisterInput_eq (s := s.handed t p g) i hn he)
      (keeps_onRu _ _) (by decide) (by decide)).imp fun s' a =>
      ⟨a.1, a.2.1, a.2.2.ru, a.2.2.cp⟩
  · have range : LoopItemsFit b := ⟨hs, hd, hm⟩
    have e := reqRegisterLoop_eq j hn range (s.handed t p g)
    have keep : Keeps [.ru, .cp] (s.handed t p g)
        (if (s.loop j).state = ((s.loop j).change (loopChange b)).state then
            (s.handed t p g).onLoop j (fun _ => (s.loop j).change (loopChange b))
          else ((s.handed t p g).onLoop j (fun _ => (s.loop j).change (loopChange b))).notify .register) :=
      .ite ((keeps_onRu _ _).mono (by decide)) (((keeps_onRu _ _).mono (by decide)).trans ((keeps_notify _ _).mono (by decide)))
    have ru : (if (s.loop j).state = ((s.loop j).change (loopChange b)).state then
            (s.handed t p g).onLoop j (fun _ => (s.loop j).change (loopChange b))
          else ((s.handed t p g).onLoop j (fun _ => (s.loop j).change (loopChange b))).notify .register).ru =
        { s.ru with loops := s.ru.loops.set j ((s.loop j).change (loopChange b)) } := by
      split <;> rfl
    obtain ⟨s', run, frame, ru', cp'⟩ : ∃ s', exec (.registerSetLoopForm t p g (some j.val) b) s = .next s'
        ∧ s.frame s' t [.ru, .cp]
        ∧ s'.ru = { s.ru with loops := s.ru.loops.set j ((s.loop j).change (loopChange b)) }
        ∧ s'.cp = (if (s.loop j).state = ((s.loop j).change (loopChange b)).state then s.cp
          else s.cp.notified s.cp.routes.register 32#11).answered p g (if loopClamped b then .clamped else .done) [] :=
      ⟨_, finishRequest_block (roles := deskOnly) h e,
        frame_finish (((keeps_onPort _ _ _).mono (by decide)).trans (keep.trans ((keeps_respond _ p g _ []).mono (by decide)))),
        ru, perhaps_notified (k := .register) rfl⟩
    have loop : s'.loop j = (s.loop j).change (loopChange b) := by
      rw [State.loop, ru']
      exact Table.get_set_self _ _ _
    have store := change_store (s.loop j) (loopChange b)
    refine ⟨s', run, frame, by rw [loop]; exact ru', ?_⟩
    rw [loop]
    have field : ∀ {α : Type} (f : Loop → α), f ((s.loop j).change (loopChange b)) = f { (s.loop j).store (loopChange b) with
        enable := ((s.loop j).change (loopChange b)).enable, state := ((s.loop j).change (loopChange b)).state
        misses := ((s.loop j).change (loopChange b)).misses, markSeen := ((s.loop j).change (loopChange b)).markSeen } :=
      fun f => congrArg f store
    refine ⟨field Loop.mexp, (field Loop.window).trans ?_, (field Loop.deadband).trans ?_, (field Loop.gain).trans ?_,
      (field Loop.missLimit).trans ?_, (field Loop.minSpeed).trans ?_, (field (fun l => l.search.channel)).trans ?_,
      (field (fun l => l.search.startColumn)).trans ?_, (field (fun l => l.search.threshold)).trans ?_,
      (field (fun l => l.search.runLength)).trans ?_, (field (fun l => l.search.direction)).trans ?_, ?_,
      change_enable _ _, field (fun l => (l.strays, l.lastE, l.lastEs, l.lastC, l.lastStrayE)), ?_, ?_⟩
    · exact congrArg (fun o : Option Nat => o.getD _) (clamps_below _ _)
    · exact congrArg (fun o : Option Nat => o.getD _) (clamps_below _ _)
    · exact congrArg (fun o : Option Nat => o.getD _) (clamps_below _ _)
    · exact congrArg (fun o : Option Nat => o.getD _) (clamps_within (by decide) _)
    · exact congrArg (fun o : Option Nat => o.getD _) (clamps_below _ _)
    · exact congrArg (fun o : Option Nat => o.getD _) (clamps_below _ _)
    · exact congrArg (fun o : Option Nat => o.getD _) (clamps_below _ _)
    · exact congrArg (fun o : Option Nat => o.getD _) (clamps_below _ _)
    · exact congrArg (fun o : Option Nat => o.getD _) (clamps_within (by decide) _)
    · show (b.direction.bind directionOf).getD (s.loop j).search.direction = _
      split
      next hb => rw [hb]; rfl
      next n hn hb =>
        rw [hb, Option.bind_some, directionOf_named (hd n hb), if_neg hn]
        rfl
      next hb => rw [hb]; rfl
    · have source : ((s.loop j).change (loopChange b)).source = (b.source.bind sourceOf).getD (s.loop j).source :=
        field Loop.source
      rw [source]
      cases hx : b.source with
      | none => rfl
      | some x =>
        rw [Option.bind_some, sourceOf_named (hs x hx)]
        rfl
    · have becomes := change_becomes (s.loop j) (loopChange b)
      rw [field Loop.source, field Loop.mexp, field Loop.window]
      exact becomes
    · rw [cp', ite_clamped b (loopClamped_iff b)]
      simp only [eq_comm]

end

section
/-! SUPPORT. The values that a SECTION SET names: which are refused, and what is posted of the others. -/

namespace Sys2Proof.Machine

variable {s a : State} {t : HubTime} {p : PortNo} {g : Tag} {i : SlotNo} {pairs : List (Nat × Int)} {latest : Section}

theorem pairValue_named (pairs : List (Nat × Int)) (k : Nat) :
    (pairValue pairs k).isSome = true ↔ k ∈ pairs.map (fun q => q.1) := by
  rw [pairValue, Option.isSome_map, List.find?_isSome]
  simp only [beq_iff_eq, List.mem_map]

/-- A drive port value is refused when it is no number of a DRIVE port. -/
theorem drivePortOk_iff (s : State) (v : Option Int) :
    s.drivePortOk v = true ↔ ¬ ∃ x ∈ v, ¬ ∃ k : PortNo, (k.val : Int) = x ∧ (s.port k).role = .drive := by
  cases v with
  | none => simp [State.drivePortOk]
  | some x =>
    have named : s.drivePortOk (some x) = true ↔ ∃ k : PortNo, (k.val : Int) = x ∧ (s.port k).role = .drive := by
      simp only [State.drivePortOk, toFin]
      by_cases h : 0 ≤ x ∧ x.toNat < 4
      · rw [dif_pos h.2]
        simp only [h.1, decide_true, Bool.true_and, decide_eq_true_eq]
        constructor
        · intro hr
          exact ⟨⟨x.toNat, h.2⟩, Int.toNat_of_nonneg h.1, hr⟩
        · rintro ⟨k, hk, hr⟩
          rwa [show (⟨x.toNat, h.2⟩ : PortNo) = k from Fin.ext (by show x.toNat = k.val; omega)]
      · have none : ¬ ∃ k : PortNo, (k.val : Int) = x ∧ (s.port k).role = .drive := by
          rintro ⟨k, hk, -⟩
          have := k.isLt
          omega
        refine iff_of_false ?_ none
        rw [Bool.and_eq_true, decide_eq_true_eq]
        rintro ⟨h0, h1⟩
        rw [dif_neg fun e => h ⟨h0, e⟩] at h1
        cases h1
    rw [named]
    simp

/-- A gear is refused when N or D is named and they, as they will stand, are no ratio that the rule allows. -/
theorem gearOk_iff (latest : Section) (n d : Option Int) : gearOk latest n d = true ↔
    ¬ ((n.isSome = true ∨ d.isSome = true) ∧ ¬ (1 ≤ n.getD latest.n ∧ n.getD latest.n ≤ 65535 ∧ 1 ≤ d.getD latest.d
      ∧ d.getD latest.d ≤ 65535 ∧ n.getD latest.n ≤ 4 * d.getD latest.d)) := by
  unfold gearOk
  simp only [Bool.or_eq_true, Bool.and_eq_true, decide_eq_true_eq, and_assoc]
  cases n <;> cases d <;> simp

theorem clampArg_value {lo hi : Int} (h : lo ≤ hi) (v : Option Int) :
    (clampArg lo hi v).1 = v.map (fun x => max lo (min x hi)) := by
  cases v with
  | none => rfl
  | some x => exact congrArg some (clampInt_eq lo hi x h)

theorem clampArg_nat {hi : Int} (h : 0 ≤ hi) (v : Option Int) :
    (clampArg 0 hi v).1.map Int.toNat = v.map (fun x => (max 0 (min x hi)).toNat) := by
  rw [clampArg_value h, Option.map_map]
  rfl

theorem clampArg_clamps {lo hi : Int} (h : lo ≤ hi) (v : Option Int) :
    (clampArg lo hi v).2 = true ↔ ∃ x ∈ v, x < lo ∨ hi < x := by
  cases v with
  | none => simp [clampArg]
  | some x =>
    have within : clampInt lo hi x = x ↔ lo ≤ x ∧ x ≤ hi := clampInt_eq_self lo hi x h
    simp only [clampArg, decide_eq_true_eq, ne_eq, within, Option.mem_def, Option.some_inj, exists_eq_left']
    omega

theorem checkFields_none (s : State) (latest : Section) (pairs : List (Nat × Int)) : s.checkFields latest pairs = none ↔
    (∃ x ∈ pairValue pairs 1, ¬ ∃ k : PortNo, (k.val : Int) = x ∧ (s.port k).role = .drive)
      ∨ (((pairValue pairs 2).isSome = true ∨ (pairValue pairs 3).isSome = true)
        ∧ ¬ (1 ≤ (pairValue pairs 2).getD latest.n ∧ (pairValue pairs 2).getD latest.n ≤ 65535
          ∧ 1 ≤ (pairValue pairs 3).getD latest.d ∧ (pairValue pairs 3).getD latest.d ≤ 65535
          ∧ (pairValue pairs 2).getD latest.n ≤ 4 * (pairValue pairs 3).getD latest.d)) := by
  have passes : s.checkFields latest pairs = none ↔
      ¬ (s.drivePortOk (pairValue pairs 1) = true ∧ gearOk latest (pairValue pairs 2) (pairValue pairs 3) = true) := by
    unfold State.checkFields
    dsimp only
    rw [← Bool.and_eq_true]
    split
    next h => exact iff_of_false (fun e => nomatch e) (not_not.2 h)
    next h => exact iff_of_true rfl h
  rw [passes, drivePortOk_iff, gearOk_iff, not_and_or, not_not, not_not]

/-- The checks look at the ports for their roles alone. -/
theorem checkFields_roles (h : ∀ k, (a.port k).role = (s.port k).role) (latest : Section) (pairs : List (Nat × Int)) :
    a.checkFields latest pairs = s.checkFields latest pairs := by
  have port : ∀ v, a.drivePortOk v = s.drivePortOk v := fun v => by
    unfold State.drivePortOk
    simp only [h]
  unfold State.checkFields
  simp only [port]

theorem handed_role (s : State) (t : HubTime) (p : PortNo) (g : Tag) (k : PortNo) :
    ((s.handed t p g).port k).role = (s.port k).role := by
  rw [State.handed, port_onPort]
  split
  next e => subst e; rfl
  next => rfl

/-- The limit of Tt as it will stand. -/
noncomputable def limitOf (latest : Section) (pairs : List (Nat × Int)) : Int :=
  ((pairValue pairs 5).map (fun x => max 0 (min x 1048575))).getD latest.tmax

theorem limitOf_nonneg (latest : Section) (pairs : List (Nat × Int)) : 0 ≤ limitOf latest pairs := by
  unfold limitOf
  cases pairValue pairs 5 with
  | none => exact Int.natCast_nonneg _
  | some x => exact le_max_left _ _

theorem drivePort_value {v : Option Int} (h : s.drivePortOk v = true) :
    (v.bind (fun x => toFin 4 x.toNat)).map (fun k => (k.val : Int)) = v := by
  cases v with
  | none => rfl
  | some x =>
    rw [drivePortOk_iff, not_exists] at h
    have hk := h x
    rw [not_and, not_not] at hk
    obtain ⟨k, hk, -⟩ := hk rfl
    have index : toFin 4 x.toNat = some k := by
      have e : x.toNat = k.val := by omega
      rw [e, toFin, dif_pos k.isLt]
    rw [Option.bind_some, index, ← hk]
    rfl

theorem checkFields_some {r : FieldSet × Bool} (h : s.checkFields latest pairs = some r) :
    s.drivePortOk (pairValue pairs 1) = true
    ∧ r = ({ port := (pairValue pairs 1).bind (fun x => toFin 4 x.toNat)
             n := (pairValue pairs 2).map Int.toNat
             d := (pairValue pairs 3).map Int.toNat
             os := (clampArg (-8388608) 8388607 (pairValue pairs 4)).1
             tmax := (clampArg 0 1048575 (pairValue pairs 5)).1.map Int.toNat
             tt := (clampArg (-limitOf latest pairs) (limitOf latest pairs) (pairValue pairs 6)).1
             slew := (clampArg 0 65535 (pairValue pairs 7)).1.map Int.toNat
             nudgeLimit := (clampArg 0 65535 (pairValue pairs 8)).1.map Int.toNat
             tol := (clampArg 0 7 (pairValue pairs 9)).1.map Int.toNat },
           (clampArg (-8388608) 8388607 (pairValue pairs 4)).2 || (clampArg 0 1048575 (pairValue pairs 5)).2
             || (clampArg (-limitOf latest pairs) (limitOf latest pairs) (pairValue pairs 6)).2
             || (clampArg 0 65535 (pairValue pairs 7)).2 || (clampArg 0 65535 (pairValue pairs 8)).2
             || (clampArg 0 7 (pairValue pairs 9)).2) := by
  unfold State.checkFields at h
  dsimp only at h
  rw [clampArg_value (by decide : (0 : Int) ≤ 1048575) (pairValue pairs 5)] at h
  split at h
  next hp =>
    refine ⟨(Bool.and_eq_true_iff.1 hp).1, (Option.some.inj h).symm.trans ?_⟩
    rw [clampArg_value (by decide : (0 : Int) ≤ 1048575) (pairValue pairs 5)]
    rfl
  next => cases h

/-- The pairs of a SECTION SET have the form that is asked for, and name what a VACANT slot asks for. -/
structure PairsFit (s : State) (i : SlotNo) (pairs : List (Nat × Int)) : Prop where
  some : 1 ≤ pairs.length
  few : pairs.length ≤ 8
  known : ∀ q ∈ pairs, 1 ≤ q.1 ∧ q.1 ≤ 9
  distinct : (pairs.map (fun q => q.1)).Nodup
  first : (s.slot i).state = .vacant → (s.slot i).posted = [] → ∀ k ∈ [1, 2, 3], k ∈ pairs.map (fun q => q.1)

theorem PairsFit.form (h : PairsFit s i pairs) : ¬ (pairs.length = 0 ∨ 8 < pairs.length
    ∨ pairs.any (fun q => decide (q.1 = 0 ∨ 9 < q.1)) = true ∨ ¬ keysDistinct pairs = true) := by
  have some := h.some
  have few := h.few
  rintro (hb | hb | hb | hb)
  · omega
  · omega
  · obtain ⟨q, hq, hb⟩ := List.any_eq_true.1 hb
    have range := h.known q hq
    have beyond := of_decide_eq_true hb
    omega
  · exact hb ((keysDistinct_iff pairs).2 h.distinct)

theorem PairsFit.complete (h : PairsFit s i pairs) : ¬ ((s.slot i).state = .vacant ∧ (s.slot i).posted = [] ∧
    ((pairValue pairs 1).isNone = true ∨ (pairValue pairs 2).isNone = true ∨ (pairValue pairs 3).isNone = true)) := by
  rintro ⟨hs, hp, hn⟩
  have named : ∀ k ∈ [1, 2, 3], (pairValue pairs k).isNone = false := fun k hk => by
    rw [Option.isNone_eq_false_iff]
    exact (pairValue_named pairs k).2 (h.first hs hp k hk)
  simp [named] at hn

theorem reqSectionSet_refused (h : PairsFit s i pairs) (expected : Option Nat) (hc : s.rc.ringState ≠ .conflict)
    (hn : s.checkFields (s.slot i).latest pairs = none) :
    reqSectionSet p (some i.val) expected pairs s = (s, status .badArgument) := by
  simp only [reqSectionSet, argFin_val, if_neg h.form, if_neg hc, if_neg h.complete, hn]

theorem reqSectionSet_checked (h : PairsFit s i pairs) (expected : Option Nat) (hc : s.rc.ringState ≠ .conflict)
    {f : FieldSet} {clamped : Bool} (hf : s.checkFields (s.slot i).latest pairs = some (f, clamped)) :
    reqSectionSet p (some i.val) expected pairs s =
      if (s.slot i).serialFits expected = false then
        (s, some (.staleSerial, valuesBytes [vbits 2 (s.slot i).serial, val 1 (s.slot i).posted.length]))
      else if 8 ≤ (s.slot i).posted.length then (s, status .full)
      else (s.onSlot i (fun y => y.post ⟨some p, .set f⟩), status (if clamped then .clamped else .posted)) := by
  simp only [reqSectionSet, argFin_val, if_neg h.form, if_neg hc, if_neg h.complete, hf]
  simp only [Bool.not_eq_true]

end Sys2Proof.Machine

open Sys2Proof Sys2Proof.Machine

/-- Settles O23: the checks of the request in their order, then what is refused and what the group holds. -/
theorem sectionSetIsPosted : Obligations.SectionSetIsPosted := by
  intro s t p g i expected pairs
  refine ⟨fun h h1 h8 hk hd hc hv => ?_, ?_⟩
  · have fit : PairsFit (s.handed t p g) i pairs := ⟨h1, h8, hk, hd, hv⟩
    cases hf : s.checkFields (s.slot i).latest pairs with
    | none =>
      obtain ⟨s', a1, a2, a3⟩ := request_refused (l := [.se, .cp]) h (reqSectionSet_refused fit expected hc
        ((checkFields_roles (handed_role s t p g) _ pairs).trans hf)) (by decide)
      exact ⟨s', a1, a2, a3.se, a3.cp⟩
    | some r =>
      obtain ⟨f, clamped⟩ := r
      have e := reqSectionSet_checked (p := p) fit expected hc (f := f) (clamped := clamped)
        ((checkFields_roles (handed_role s t p g) _ pairs).trans hf)
      dsimp only
      by_cases c1 : (s.slot i).serialFits expected = false
      · exact (request_answered (l := []) (l' := [.se, .cp]) h (e.trans (if_pos c1)) (.refl _ _) (by decide)
          (by decide)).imp fun s' a =>
          ⟨a.1, a.2.1, by rw [if_pos c1]; exact ⟨a.2.2.se, a.2.2.cp⟩⟩
      rw [if_neg (show ¬ (State.slot (s.handed t p g) i).serialFits expected = false from c1)] at e
      by_cases c2 : 8 ≤ (s.slot i).posted.length
      · exact (request_refused (l := [.se, .cp]) h (e.trans (if_pos c2)) (by decide)).imp fun s' a =>
          ⟨a.1, a.2.1, by rw [if_neg c1, if_pos c2]; exact ⟨a.2.2.se, a.2.2.cp⟩⟩
      · exact (request_answered (l' := [.se, .cp]) h (e.trans (if_neg c2)) (keeps_onSlot _ _ _) (by decide)
          (by decide)).imp fun s' a =>
          ⟨a.1, a.2.1, by rw [if_neg c1, if_neg c2]; exact ⟨a.2.2.se, a.2.2.cp⟩⟩
  · dsimp only
    refine ⟨checkFields_none s (s.slot i).latest pairs, fun r hr => ?_⟩
    obtain ⟨port, rfl⟩ := checkFields_some hr
    have limit := limitOf_nonneg (s.slot i).latest pairs
    have bounds : -limitOf (s.slot i).latest pairs ≤ limitOf (s.slot i).latest pairs := by omega
    refine ⟨drivePort_value port, rfl, rfl, clampArg_value (by decide) _, ?_, clampArg_value bounds _, ?_, ?_, ?_, ?_⟩
    · exact clampArg_nat (by decide) _
    · exact clampArg_nat (by decide) _
    · exact clampArg_nat (by decide) _
    · exact clampArg_nat (by decide) _
    · simp only [Bool.or_eq_true, or_assoc]
      rw [clampArg_clamps (by decide), clampArg_clamps (by decide), clampArg_clamps bounds, clampArg_clamps (by decide),
        clampArg_clamps (by decide), clampArg_clamps (by decide)]
      rfl

end

section
/-! SUPPORT. What the read requests answer, spelled out as their tables have it. -/

namespace Sys2Proof.Machine

variable {s : State} {t : HubTime} {p : PortNo} {g : Tag} {roles : List Role} {block : State → State × Reply}

/-- A permitted request whose block only reads. -/
theorem read_answered (h : s.takes p g roles) {st : Status} {bytes : List Byte}
    (hb : block (s.handed t p g) = (s.handed t p g, some (st, bytes))) :
    ∃ s', finishRequest s t p g roles block = .next s' ∧ s.frame s' t [.cp] ∧ s'.cp = s.cp.answered p g st bytes := by
  exact (request_answered (l := []) (l' := [.cp]) h hb (.refl _ _) (by decide) (by decide)).imp fun s' a =>
    ⟨a.1, a.2.1, a.2.2.cp⟩

theorem Reading.row (h : s.takes p g roles) (hr : Reading block) : ∃ s', finishRequest s t p g roles block = .next s'
    ∧ s.frame s' t [.cp] ∧ ∃ st bytes, s'.cp = s.cp.answered p g st bytes := by
  obtain ⟨st, bytes, e⟩ := hr (s.handed t p g)
  exact (read_answered (t := t) h e).imp fun s' a =>
    ⟨a.1, a.2.1, st, bytes, a.2.2⟩

/-- The answer of a read, from the bytes that its block gives. -/
theorem read_done (h : s.takes p g roles) {bytes spelled : List Byte}
    (hb : block (s.handed t p g) = (s.handed t p g, some (.done, bytes))) (e : bytes = spelled) :
    ∃ s', finishRequest s t p g roles block = .next s' ∧ s'.cp = s.cp.answered p g .done spelled := by
  obtain ⟨s', h1, -, h3⟩ := read_answered (t := t) h hb
  exact ⟨s', h1, e ▸ h3⟩

theorem reading_hubInfo : Reading reqHubInfo := fun _ => ⟨_, _, rfl⟩
theorem reading_shaftRead : Reading reqShaftRead := fun _ => ⟨_, _, rfl⟩
theorem reading_tripRead : Reading reqTripRead := fun _ => ⟨_, _, rfl⟩

theorem genAtRest_bit (s : State) : (if s.genAtRest then (1 : Int) else 0) = if s.su.gen.v = 0 ∧ s.target = 0 then 1 else 0 := by
  unfold State.genAtRest
  simp only [Bool.and_eq_true, decide_eq_true_eq]

theorem loopActive_eq (s : State) (i : SlotNo) : s.loopActive i = decide ((s.loop i).enable = true
    ∧ (s.slot i).state = .coupled ∧ ((s.loop i).minSpeed : Int) ≤ s.su.tracker.lastV) := by
  unfold State.loopActive
  simp only [Bool.decide_and, Bool.decide_eq_true, Bool.and_assoc]

theorem frozenTiles_spelled (s : State) : (s.frozenTiles : Int) =
    ((s.is.strips.filter (fun y => decide (y.freezeSet ≠ []))).map (fun y => (y.tiles.length : Int))).sum := by
  have frozen : s.is.strips.filter (fun y => !y.freezeSet.isEmpty) = s.is.strips.filter (fun y => decide (y.freezeSet ≠ [])) :=
    List.filter_congr fun y _ => by cases y.freezeSet <;> rfl
  unfold State.frozenTiles
  rw [frozen, Nat.cast_list_sum, List.map_map]
  rfl

theorem classCode_eq (c : Cls) :
    (c.code : Int) = if c = .sync then 1 else if c = .quick then 2 else if c = .coast then 3 else 0 := by cases c <;> rfl

theorem slotCode_eq (c : CausePair) : (c.slotCode : Int) = (match c.slot with | some i => (i.val : Int) | none => 255) := by
  obtain ⟨cause, slot⟩ := c
  cases slot <;> rfl

theorem stateCode_eq (x : SectionState) : (x.code : Int) = (match x with
    | .vacant => 0
    | .idle => 1
    | .coupled => 2
    | .held => 3
    | .released => 4) := by cases x <;> rfl

theorem latest_spelled (x : Section) : x.posted.foldl Section.changed x = x.latest := by
  unfold Section.latest
  exact congrArg (fun f => x.posted.foldl f x) (funext fun y => funext fun c => y.changed_eq c)

/-- A STRIP LIST, its entries written in any way that gives the same bytes. -/
theorem reqStripList_entries (s : State) (k : Fin 256) {f : Strip → List Byte} (hf : ∀ y, s.stripEntry y = f y) :
    reqStripList (some k.val) s = (s, some (.done, valuesBytes [val 2 s.is.strips.length, val 2 s.is.free.length,
      val 2 ((s.is.strips.filter (fun y => decide (y.freezeSet ≠ []))).map (fun y => y.tiles.length)).sum,
      vflag (decide (s.tu.state = .capture)), val 1 s.is.span, vlist (((s.is.strips.drop k.val).take 16).map f)])) := by
  rw [← frozenTiles_spelled, ← funext hf]
  simp only [reqStripList, argFin_val]

/-- The Dpub that HUB INFO gives. -/
theorem dpubInfo_eq (s : State) : s.dpubInfo = if s.isMaster = true then s.rc.dpub else (match s.rc.lastCycle with
    | some u => some u.dpub
    | none => s.rc.dpub) := by
  unfold State.dpubInfo
  cases s.isMaster <;> cases s.rc.lastCycle <;> rfl

theorem edgeCode_eq (e : Edge) : (edgeCode e : Int) = if e = .falling then 1 else 0 := by cases e <;> rfl

end Sys2Proof.Machine

open Sys2Proof Sys2Proof.Machine

/-- Settles O59: the reads change nothing but the response queue, and each answers with the values of its table. -/
theorem readsChangeNothing : Obligations.ReadsChangeNothing := by
  intro s t p g a b c sel i id off n x r k j
  refine ⟨fun q hq h => ?_, fun q hq h => ?_, fun h => ⟨?_, ?_, ?_, ?_, ?_, ?_, ?_⟩, fun h => ⟨fun hr hc => ?_, fun hx hr h1 h2 h3 => ?_⟩⟩
  · simp only [List.mem_cons, List.not_mem_nil, or_false] at hq
    rcases hq with rfl | rfl | rfl | rfl | rfl | rfl
    · exact reading_hubInfo.row h
    · exact reading_shaftRead.row h
    · exact (reading_sectionRead a).row h
    · exact (reading_registerRead a b).row h
    · exact reading_tripRead.row h
    · exact (reading_stripList a).row h
  · simp only [List.mem_cons, List.not_mem_nil, or_false] at hq
    rcases hq with rfl | rfl
    · exact (reading_recordRead sel).row h
    · exact (reading_stripRead a b c).row h
  · refine read_done h rfl ?_
    simp only [State.shaftReadValues, shaftFlagBits, Nat.cast_add, Nat.cast_ite, Nat.cast_ofNat, Nat.cast_zero, genAtRest_bit]
    rfl
  · refine read_done h (by simp only [reqRegisterRead, toFin_some i.isLt]; rfl) ?_
    simp only [Loop.values, loopActive_eq, List.cons_append, List.nil_append]
    rfl
  · refine read_done h (by simp only [reqRegisterRead, toFin_some j.isLt]; rfl) ?_
    simp only [MarkInput.values, edgeCode_eq]
    rfl
  · refine read_done h (reqStripList_entries (s.handed t p g) k fun y => ?_) rfl
    simp only [State.stripEntry, Strip.pinValues, List.cons_append, List.nil_append]
    generalize y.mode = m
    cases m <;> rfl
  · refine read_done h rfl ?_
    simp only [State.ringInfo, State.moverInfo, dpubInfo_eq]
    rfl
  · exact read_done h rfl (by show itemsBytes _ = _; exact congrArg itemsBytes (State.content_eq (s.handed t p g) .trips))
  · refine read_done h (by simp only [reqSectionRead, argFin_val]; rfl) ?_
    simp only [Section.readValues, latest_spelled, Section.flagBits, stateCode_eq, Nat.cast_add, Nat.cast_ite, Nat.cast_ofNat, Nat.cast_zero, Nat.cast_one]
    rfl
  · have e : reqRecordRead (some (.number r.number)) (s.handed t p g) = (s.handed t p g, some (.done, r.bytes)) := by
      have found : (s.handed t p g).selectRecord (.number r.number) = some r := hr
      simp only [reqRecordRead, found, hc]
      rfl
    refine read_done h e ?_
    simp only [TripRecord.bytes, classCode_eq, slotCode_eq, stateCode_eq]
    rfl
  · have e : reqStripRead (some id) (some off) (some n) (s.handed t p g) =
        (s.handed t p g, some (.done, tileBytes s.is.mem x.tiles off n)) := by
      have found : (s.handed t p g).strip id = some x := hx
      unfold reqStripRead
      dsimp only
      rw [found]
      dsimp only
      rw [hr, if_neg (show ¬ (n < 1 ∨ 1024 < n ∨ x.fill < off + n) by omega)]
      rfl
    exact read_done h e rfl

end

section
/-! SUPPORT. Which notices a piece of work gives, and what an entry to LOST or CONFLICT does in the Section Engine, the Image
Mover and the View Unit. -/

namespace Sys2Proof.Machine

variable {s a b x : State}

/-! ### Notices -/

/-- Between `a` and `b` no notice but those of `l` was set or taken at any port. -/
def State.tells (a b : State) (l : List Notice) : Prop :=
  ∀ (p : PortNo) (n : Notice), n ∉ l → (b.port p).pending.getLsbD n.index = (a.port p).pending.getLsbD n.index

theorem tells_of_cp {l : List Notice} (h : b.cp = a.cp) : a.tells b l := fun p n _ => by rw [State.port, h]; rfl

theorem Keeps.tells {l : List Blk} {m : List Notice} (h : Keeps l a b) (hl : Blk.cp ∉ l) : a.tells b m :=
  tells_of_cp (h.2.2.2 .cp hl)

theorem State.tells.trans {l : List Notice} (h : s.tells a l) (h' : a.tells b l) : s.tells b l := fun p n hn =>
  (h' p n hn).trans (h p n hn)

theorem State.tells.mono {l m : List Notice} (h : s.tells a l) (hl : ∀ n ∈ l, n ∈ m) : s.tells a m := fun p n hn =>
  h p n (fun e => hn (hl n e))

theorem State.tells.ite {l : List Notice} {c : Prop} [Decidable c] (h : s.tells a l) (h' : s.tells b l) :
    s.tells (if c then a else b) l := by
  split
  · exact h
  · exact h'

theorem tells_refl (s : State) (l : List Notice) : s.tells s l := fun _ _ _ => rfl

theorem tells_foldl {α : Type} {l : List Notice} {f : State → α → State} (hf : ∀ (s : State) x, s.tells (f s x) l) (xs : List α)
    (s : State) : s.tells (xs.foldl f s) l := by
  induction xs generalizing s with
  | nil => exact tells_refl s l
  | cons x xs ih => exact (hf s x).trans (ih _)

/-- One notice sets its own bit. -/
theorem addNotice_other (q : Port) {k n : Notice} (h : n ≠ k) :
    (q.addNotice k).pending.getLsbD n.index = q.pending.getLsbD n.index := by
  have at_index : ∀ n : Notice, Notice.ofNat n.index = n := fun n => by cases n <;> rfl
  have apart : ¬ n.index - k.index = 0 ∨ n.index < k.index := by
    by_contra c
    have : n.index = k.index := by omega
    exact h ((at_index n).symm.trans ((congrArg Notice.ofNat this).trans (at_index k)))
  have clear : (Notice.mask k).getLsbD n.index = false := by
    rw [Notice.mask, BitVec.getLsbD_shiftLeft, BitVec.getLsbD_one]
    rcases apart with e | e
    · rw [decide_eq_false e, Bool.and_false, Bool.and_false]
    · rw [decide_eq_true e, Bool.not_true, Bool.and_false, Bool.false_and]
  show (q.pending ||| Notice.mask k).getLsbD n.index = _
  rw [BitVec.getLsbD_or, clear, Bool.or_false]

theorem addNotice_self (q : Port) (k : Notice) : (q.addNotice k).pending.getLsbD k.index = true := by
  have : (Notice.mask k).getLsbD k.index = true := by cases k <;> decide
  show (q.pending ||| Notice.mask k).getLsbD k.index = _
  rw [BitVec.getLsbD_or, this, Bool.or_true]

theorem tells_notify (s : State) (k : Notice) : s.tells (s.notify k) [k] := fun p n hn => by
  rw [port_notify]
  split
  · exact addNotice_other _ (fun e => hn (by rw [e]; exact List.mem_singleton_self _))
  · rfl

theorem tells_notifyPort (s : State) (p : PortNo) (k : Notice) : s.tells (s.notifyPort p k) [k] := fun q n hn => by
  rw [port_notifyPort]
  split
  next e => subst e; exact addNotice_other _ (fun e => hn (by rw [e]; exact List.mem_singleton_self _))
  next => rfl

theorem tells_respond (s : State) (p : PortNo) (g : Tag) (st : Status) (l : List Byte) : s.tells (s.respond p g st l) [] :=
  fun q n _ => by
    rw [State.respond, port_onPort]
    split
    next e => subst e; rfl
    next => rfl

theorem tells_sectionActions (s : State) (k : Cls) : s.tells (s.sectionActions k) [] := fun q n _ => by
  obtain ⟨l, hl, -⟩ := sectionActions_port s k q
  rw [hl]; rfl

theorem Port.readied_pending (q : Port) (l : List Response) : (q.readied l).pending = q.pending := rfl

/-! ### The Section Engine -/

theorem sectionRingLoss_se (s : State) : s.sectionRingLoss.se = { s.se with
    slots := s.se.slots.map (fun x => { x with posted := [], corrSum := 0, corrHeld := false })
    fences := s.se.fences.filter (fun f => f.slots.isEmpty)
    waiting := []
    replies := [] } := by
  have h : s.sectionRingLoss.se = { (s.discardSlots (fun _ => true)).se with waiting := [], replies := [] } :=
    (Keeps.foldl (l := [.cp]) (fun s (w : Waiting) => keeps_respond s w.port w.tag .notRunning []) _ _).2.2.2 .se (by decide)
  have slots : s.se.slots.mapIdx (fun i x => if (fun _ : SlotNo => true) i = true
      then { x with posted := [], corrSum := 0, corrHeld := false } else x) =
      s.se.slots.map (fun x => { x with posted := [], corrSum := 0, corrHeld := false }) :=
    Table.ext_get fun i => by rw [Table.get_mapIdx, Table.get_map]; rfl
  have fences : s.se.fences.filter (fun f => !f.slots.any (fun _ => true)) = s.se.fences.filter (fun f => f.slots.isEmpty) :=
    List.filter_congr fun f _ => by cases f.slots <;> rfl
  rw [h, discardSlots_se, slots, fences]

theorem sectionRingLoss_port (s : State) (q : PortNo) : ∃ l, s.sectionRingLoss.port q = (s.port q).readied l
    ∧ (∀ f ∈ s.se.fences, f.slots ≠ [] → f.port = q → ⟨f.tag, .discarded, []⟩ ∈ l)
    ∧ (∀ w ∈ s.se.waiting, w.port = q → ⟨w.tag, .notRunning, []⟩ ∈ l) := by
  have h := respondAll_port (fun w : Waiting => (w.port, w.tag)) .notRunning s.se.waiting
    ((s.discardSlots (fun _ => true)).onSe (fun e => { e with waiting := [], replies := [] })) q
  have d : ((s.discardSlots (fun _ => true)).onSe (fun e => { e with waiting := [], replies := [] })).port q =
      (s.discardSlots (fun _ => true)).port q := rfl
  rw [d, discardSlots_port] at h
  refine ⟨_, h.trans (congrArg (fun l => { s.port q with responses := l }) (List.append_assoc _ _ _)), fun f hf hn e => ?_, fun w hw e => ?_⟩
  · refine List.mem_append_left _ (List.mem_map.2 ⟨f, List.mem_filter.2 ⟨List.mem_filter.2 ⟨hf, ?_⟩, decide_eq_true e⟩, rfl⟩)
    obtain ⟨i, l, hl⟩ := List.exists_cons_of_ne_nil hn
    rw [hl]
    rfl
  · exact List.mem_append_right _ (List.mem_map.2 ⟨w, List.mem_filter.2 ⟨hw, decide_eq_true e⟩, rfl⟩)

/-! ### The Image Mover -/

/-- One context's reception abandoned, where it receives. -/
noncomputable def State.abandonAt (s : State) (c : Fin 2) : State :=
  match s.im.contexts.get c with
  | some r => s.abandon c r
  | none => s

theorem abandonAll_eq (s : State) : s.abandonAll = (s.abandonAt 0).abandonAt 1 := rfl

theorem Table.set_get_self {α : Type} {n : Nat} {t : Table n α} {i : Fin n} {v : α} (h : t.get i = v) : t.set i v = t := by
  refine Table.ext_get fun j => ?_
  rw [Table.get_set]
  split
  next e => rw [← e, h]
  next => rfl

theorem abandonAt_im (s : State) (c : Fin 2) : (s.abandonAt c).im = { s.im with
    contexts := s.im.contexts.set c none
    receptionsAbandoned := (s.im.contexts.get c).toList.foldl (fun n _ => satInc n) s.im.receptionsAbandoned } := by
  unfold State.abandonAt
  split
  next r h => rw [h]; rfl
  next h => rw [h, Table.set_get_self h]; rfl

theorem abandonAt_strips (s : State) (c : Fin 2) : (s.abandonAt c).is.strips =
    s.is.strips.filter (fun x => decide (∀ r ∈ (s.im.contexts.get c).toList, r.strip ≠ x.id)) := by
  unfold State.abandonAt
  split
  next r h =>
    rw [h, abandon_is]
    refine List.filter_congr fun x _ => ?_
    rw [Bool.eq_iff_iff, bne_iff_ne, decide_eq_true_iff, Option.toList_some, List.forall_mem_singleton]
    exact ne_comm
  next h => rw [h]; simp

theorem abandonAt_free (s : State) (c : Fin 2) (l : s.storeLaw = true) : (s.abandonAt c).is.free =
    s.is.free ++ (s.im.contexts.get c).toList.flatMap (fun r => r.reservation) := by
  unfold State.abandonAt
  split
  next r h =>
    rw [h, abandon_is]
    rw [storeLaw_good] at l
    obtain ⟨rest, hp, -⟩ := contexts_perm s.im.contexts c none
    rw [h] at hp
    obtain ⟨y, hy, e, -, t⟩ := l.received r (hp.mem_iff.2 (by simp))
    have found : ((s.strip r.strip).map (fun x => x.tiles)).getD [] = [] := by
      cases hs : s.strip r.strip with
      | none => rfl
      | some z =>
        obtain ⟨hz, ez⟩ := strip_some hs
        rw [List.inj_on_of_nodup_map l.ids hz hy (ez.trans e.symm)]
        exact t
    rw [found]
    simp
  next h => rw [h]; simp

theorem lawful_abandonAt (s : State) (c : Fin 2) : Lawful 0 s (s.abandonAt c) := by
  unfold State.abandonAt
  split
  next r h => exact lawful_abandon s h
  · exact .refl s

theorem filterMap_two {α : Type} (t : Table 2 (Option α)) :
    t.list.filterMap id = (t.get 0).toList ++ (t.get 1).toList := by
  obtain ⟨l, hl⟩ := t
  match l, hl with
  | [u, v], _ =>
    show List.filterMap id [u, v] = u.toList ++ v.toList
    cases u <;> cases v <;> rfl

theorem receptions_eq (m : IM) : m.receptions = (m.contexts.get 0).toList ++ (m.contexts.get 1).toList := filterMap_two _

theorem abandonAll_im (s : State) : s.abandonAll.im = { s.im with
    contexts := (s.im.contexts.set 0 none).set 1 none
    receptionsAbandoned := s.im.receptions.foldl (fun n _ => satInc n) s.im.receptionsAbandoned } := by
  rw [abandonAll_eq, abandonAt_im, abandonAt_im, receptions_eq, List.foldl_append,
    Table.get_set_other _ _ (show (0 : Fin 2) ≠ 1 by decide)]

theorem abandonAll_strips (s : State) : s.abandonAll.is.strips =
    s.is.strips.filter (fun x => decide (∀ r ∈ s.im.receptions, r.strip ≠ x.id)) := by
  rw [abandonAll_eq, abandonAt_strips, abandonAt_strips, abandonAt_im, receptions_eq,
    Table.get_set_other _ _ (show (0 : Fin 2) ≠ 1 by decide), List.filter_filter]
  refine List.filter_congr fun x _ => ?_
  rw [Bool.eq_iff_iff, Bool.and_eq_true, decide_eq_true_iff, decide_eq_true_iff, decide_eq_true_iff, List.forall_mem_append,
    and_comm]

theorem abandonAll_free (s : State) (l : s.storeLaw = true) : s.abandonAll.is.free =
    s.is.free ++ s.im.receptions.flatMap (fun r => r.reservation) := by
  rw [abandonAll_eq, abandonAt_free _ _ ((lawful_abandonAt s 0).sound.store.law l), abandonAt_free s 0 l, abandonAt_im,
    receptions_eq, List.flatMap_append, List.append_assoc, Table.get_set_other _ _ (show (0 : Fin 2) ≠ 1 by decide)]

/-- The Image Mover with its pairs and its transfer dropped, before the receptions are abandoned. -/
noncomputable def State.pairsDropped (s : State) : State :=
  (s.onIs (fun st => { st with strips := st.strips.map (Strip.dropPairs s.im.lostPairs) })).onIm (fun m =>
    { m with
      sendQueue := []
      transfer := none
      sender := .idle
      timer := none
      offered := []
      transfersDropped := min 65535 (m.transfersDropped + s.im.lostPairs.length) })

theorem lawful_pairsDropped (s : State) : Lawful 0 s s.pairsDropped :=
  (lawful_onIs_map s (fun st => { st with strips := st.strips.map (Strip.dropPairs s.im.lostPairs) }) (Strip.dropPairs _)
    (fun _ _ => ⟨rfl, rfl, rfl, rfl, rfl, fun h => h⟩) rfl rfl rfl).then (lawful_onIm _ _ rfl)

theorem imageRingLoss_eq (s : State) : s.imageRingLoss =
    if s.im.lostPairs.isEmpty then s.pairsDropped.abandonAll.onIm (fun m => { m with store := [] })
    else (s.pairsDropped.abandonAll.onIm (fun m => { m with store := [] })).notify .imageDropped := rfl

theorem imageRingLoss_im (s : State) : s.imageRingLoss.im = { s.im with
    sendQueue := [], transfer := none, sender := .idle, timer := none, offered := [], store := []
    contexts := (s.im.contexts.set 0 none).set 1 none
    transfersDropped := min 65535 (s.im.transfersDropped + s.im.lostPairs.length)
    receptionsAbandoned := s.im.receptions.foldl (fun n _ => satInc n) s.im.receptionsAbandoned } := by
  have h : (s.pairsDropped.abandonAll.onIm (fun m => { m with store := [] })).im =
      { s.pairsDropped.abandonAll.im with store := [] } := rfl
  rw [imageRingLoss_eq]
  split
  · rw [h, abandonAll_im]; rfl
  · exact h.trans (by rw [abandonAll_im]; rfl)

theorem imageRingLoss_is (s : State) : s.imageRingLoss.is = s.pairsDropped.abandonAll.is := by
  rw [imageRingLoss_eq]
  split <;> rfl

theorem imageRingLoss_strips (s : State) : s.imageRingLoss.is.strips.map (fun x => (x.id, x.sending)) =
    (s.is.strips.filter (fun x => decide (∀ r ∈ s.im.receptions, r.strip ≠ x.id))).map (fun x =>
      (x.id, x.sending.filter (fun h => decide ((x.id, h) ∉ s.im.lostPairs)))) := by
  have drop : s.pairsDropped.is.strips = s.is.strips.map (Strip.dropPairs s.im.lostPairs) := rfl
  rw [imageRingLoss_is, abandonAll_strips, drop, List.filter_map, List.map_map]
  refine congrArg₂ List.map (funext fun x => ?_) rfl
  show (x.id, x.sending.filter _) = _
  refine congrArg (Prod.mk x.id) (List.filter_congr fun h _ => ?_)
  rw [Bool.eq_iff_iff]
  simp

theorem imageRingLoss_free (s : State) (l : s.storeLaw = true) : s.imageRingLoss.is.free =
    s.is.free ++ s.im.receptions.flatMap (fun r => r.reservation) := by
  rw [imageRingLoss_is, abandonAll_free _ ((lawful_pairsDropped s).sound.store.law l)]
  rfl

theorem imageRingLoss_dropped (s : State) (p : PortNo) : (s.imageRingLoss.port p).pending.getLsbD 8 =
    ((s.port p).pending.getLsbD 8 || (decide (s.im.lostPairs ≠ []) && s.cp.routes.imageDropped.getLsbD p)) := by
  have cp : (s.pairsDropped.abandonAll.onIm (fun m => { m with store := [] })).cp = s.cp :=
    (keeps_abandonAll s.pairsDropped).2.2.2 .cp (by decide)
  have port : (s.pairsDropped.abandonAll.onIm (fun m => { m with store := [] })).port p = s.port p := by
    rw [State.port, cp]; rfl
  rw [imageRingLoss_eq]
  cases h : s.im.lostPairs with
  | nil =>
    rw [if_pos List.isEmpty_nil, port]
    simp
  | cons y l =>
    rw [if_neg (by simp), port_notify, port, cp]
    show ((if s.cp.routes.imageDropped.getLsbD p then _ else _ : Port).pending).getLsbD 8 = _
    split
    next e => rw [e]; exact (addNotice_self (s.port p) .imageDropped).trans (by simp)
    next e => rw [show s.cp.routes.imageDropped.getLsbD p = false from Bool.eq_false_iff.2 e]; simp

/-! ### The View Unit -/

/-- An import that a loss makes STALE. -/
def View.falls (v : View) : Prop :=
  v.target.isSome = true ∧ (v.state = .initial ∨ v.state = .clean ∨ v.state = .dirty)

theorem staleAtLoss_falls {i : Fin 16} {v : View} (h : s.vu.views.get i = some v) (hf : v.falls) :
    s.staleAtLoss i = s.makeReady i { v with state := .stale } := by
  obtain ⟨ht, hs⟩ := hf
  obtain ⟨k, hk⟩ := Option.isSome_iff_exists.1 ht
  unfold State.staleAtLoss
  rw [h]
  dsimp only
  rw [hk]
  rcases hs with e | e | e <;> rw [e]

theorem staleAtLoss_stays {i : Fin 16} (h : ∀ v, s.vu.views.get i = some v → ¬ v.falls) : s.staleAtLoss i = s := by
  unfold State.staleAtLoss
  cases hv : s.vu.views.get i with
  | none => rfl
  | some v =>
    have hn := h v hv
    dsimp only
    cases ht : v.target with
    | none => rfl
    | some k =>
      have target : v.target.isSome = true := by rw [ht]; rfl
      cases hs : v.state with
      | initial => exact absurd ⟨target, .inl hs⟩ hn
      | clean => exact absurd ⟨target, .inr (.inl hs)⟩ hn
      | dirty => exact absurd ⟨target, .inr (.inr hs)⟩ hn
      | _ => rfl

/-- What a loss makes of a view. -/
noncomputable def View.atLoss (v : View) : View :=
  if v.target.isSome = true ∧ (v.state = .initial ∨ v.state = .clean ∨ v.state = .dirty)
    then { v with state := .stale, ready := true } else v

theorem View.atLoss_falls {v : View} (h : v.falls) : v.atLoss = { v with state := .stale, ready := true } := if_pos h

theorem View.atLoss_stays {v : View} (h : ¬ v.falls) : v.atLoss = v := if_neg h

theorem staleAtLoss_views (s : State) (i j : Fin 16) : (s.staleAtLoss i).vu.views.get j =
    if i = j then (s.vu.views.get j).map View.atLoss else s.vu.views.get j := by
  by_cases hf : ∃ v, s.vu.views.get i = some v ∧ v.falls
  · obtain ⟨v, hv, hf⟩ := hf
    rw [staleAtLoss_falls hv hf]
    show (s.vu.views.set i _).get j = _
    rw [Table.get_set]
    split
    next e => rw [← e, hv, Option.map_some, View.atLoss_falls hf]
    next => rfl
  · have stays : ∀ v, s.vu.views.get i = some v → ¬ v.falls := fun v hv h => hf ⟨v, hv, h⟩
    rw [staleAtLoss_stays stays]
    split
    next e =>
      rw [← e]
      cases hv : s.vu.views.get i with
      | none => rfl
      | some v => rw [Option.map_some, View.atLoss_stays (stays v hv)]
    next => rfl

theorem View.atLoss_atLoss (v : View) : v.atLoss.atLoss = v.atLoss := by
  by_cases h : v.falls
  · rw [View.atLoss_falls h]
    exact View.atLoss_stays fun ⟨_, e⟩ => by rcases e with e | e | e <;> cases e
  · rw [View.atLoss_stays h, View.atLoss_stays h]

theorem staleAll_views (l : List (Fin 16)) (s : State) (j : Fin 16) : (l.foldl State.staleAtLoss s).vu.views.get j =
    if j ∈ l then (s.vu.views.get j).map View.atLoss else s.vu.views.get j := by
  induction l generalizing s with
  | nil => rfl
  | cons i l ih =>
    rw [List.foldl_cons, ih, staleAtLoss_views]
    by_cases e : i = j
    · subst e
      have twice : ((s.vu.views.get i).map View.atLoss).map View.atLoss = (s.vu.views.get i).map View.atLoss := by
        rw [Option.map_map]
        exact congrArg (fun f => Option.map f _) (funext View.atLoss_atLoss)
      rw [if_pos rfl, if_pos (List.mem_cons_self ..), twice]
      exact ite_self _
    · rw [if_neg e]
      refine if_congr ?_ rfl rfl
      rw [List.mem_cons]
      exact ⟨.inr, fun h => h.resolve_left (fun e' => e e'.symm)⟩

theorem staleAll_told (l : List (Fin 16)) (s : State) {j : Fin 16} {v : View} (hj : j ∈ l)
    (hv : s.vu.views.get j = some v) (hf : v.falls) :
    ((l.foldl State.staleAtLoss s).port v.owner).pending.getLsbD 2 = true := by
  induction l generalizing s with
  | nil => cases hj
  | cons i l ih =>
    rw [List.foldl_cons]
    by_cases e : i = j
    · subst e
      refine ((Lawful.foldl lawful_staleAtLoss l (s.staleAtLoss i)).sound.ports v.owner).pending 2 ?_
      rw [staleAtLoss_falls hv hf, State.makeReady, port_notifyPort, if_pos rfl]
      exact addNotice_self _ .views
    · refine ih _ ((List.mem_cons.1 hj).resolve_left (fun e' => e e'.symm)) ?_
      rw [staleAtLoss_views, if_neg e, hv]

theorem staleAtLoss_vu (s : State) (i : Fin 16) : (s.staleAtLoss i).vu = { s.vu with views := (s.staleAtLoss i).vu.views } := by
  obtain e | ⟨v, e⟩ := staleAtLoss_cases s i <;> rw [e]
  rfl

theorem staleAll_vu (l : List (Fin 16)) (s : State) : (l.foldl State.staleAtLoss s).vu =
    { s.vu with views := (l.foldl State.staleAtLoss s).vu.views } := by
  induction l generalizing s with
  | nil => rfl
  | cons i l ih =>
    rw [List.foldl_cons, ih]
    rw [staleAtLoss_vu]

theorem tells_staleAtLoss (s : State) (i : Fin 16) : s.tells (s.staleAtLoss i) [.views] := by
  by_cases hf : ∃ v, s.vu.views.get i = some v ∧ v.falls
  · obtain ⟨v, hv, hf⟩ := hf
    rw [staleAtLoss_falls hv hf]
    exact (tells_of_cp (a := s) (b := s.onVu _) rfl).trans (tells_notifyPort _ _ _)
  · rw [staleAtLoss_stays fun v hv h => hf ⟨v, hv, h⟩]
    exact tells_refl _ _

theorem port_onVu (s : State) (f : VU → VU) (q : PortNo) : (s.onVu f).port q = s.port q := rfl

/-- The View Unit with its imports STALE and its lists empty, before the nudges are answered. -/
noncomputable def State.importsStale (s : State) : State :=
  ((List.finRange 16).foldl State.staleAtLoss s).onVu (fun u => { u with controlList := [], nudges := [], offered := none })

theorem importsStale_port (s : State) (q : PortNo) :
    s.importsStale.port q = ((List.finRange 16).foldl State.staleAtLoss s).port q := port_onVu _ _ _

theorem tells_viewRingLoss (s : State) : s.tells s.viewRingLoss [.views] := by
  have stale : s.tells s.importsStale [.views] := fun p n hn => by
    rw [importsStale_port]
    exact tells_foldl tells_staleAtLoss (List.finRange 16) s p n hn
  have answered : s.importsStale.tells (s.vu.nudges.foldl (fun s n => s.respond n.port n.tag .notRunning [])
      s.importsStale) [.views] :=
    tells_foldl (fun s (n : Nudge) => (tells_respond s n.port n.tag .notRunning []).mono (fun _ h => nomatch h)) _ _
  exact stale.trans answered

theorem viewRingLoss_vu (s : State) : s.viewRingLoss.vu = { s.vu with
    views := s.vu.views.map (Option.map View.atLoss), controlList := [], nudges := [], offered := none } := by
  have h : s.viewRingLoss.vu = { ((List.finRange 16).foldl State.staleAtLoss s).vu with
      controlList := [], nudges := [], offered := none } :=
    (Keeps.foldl (l := [.cp]) (fun s (n : Nudge) => keeps_respond s n.port n.tag .notRunning []) _ _).2.2.2 .vu (by decide)
  have views : ((List.finRange 16).foldl State.staleAtLoss s).vu.views = s.vu.views.map (Option.map View.atLoss) :=
    Table.ext_get fun j => by rw [staleAll_views, if_pos (List.mem_finRange j), Table.get_map]
  rw [h, staleAll_vu, views]

theorem viewRingLoss_port (s : State) (q : PortNo) : s.viewRingLoss.port q = (s.importsStale.port q).readied
    ((s.vu.nudges.filter (fun n => decide (n.port = q))).map (fun n => ⟨n.tag, .notRunning, []⟩)) :=
  respondAll_port (fun n : Nudge => (n.port, n.tag)) .notRunning s.vu.nudges s.importsStale q

theorem viewRingLoss_told {i : Fin 16} {v : View} (hv : s.vu.views.get i = some v) (hf : v.falls) :
    (s.viewRingLoss.port v.owner).pending.getLsbD 2 = true := by
  have told : (s.importsStale.port v.owner).pending.getLsbD 2 = true := by
    rw [importsStale_port]
    exact staleAll_told (List.finRange 16) s (List.mem_finRange i) hv hf
  rw [viewRingLoss_port, Port.readied_pending]
  exact told

theorem viewsLost_viewRingLoss (s : State) : s.viewsLost s.viewRingLoss := by
  unfold State.viewsLost
  refine ⟨by rw [viewRingLoss_vu], by rw [viewRingLoss_vu], by rw [viewRingLoss_vu], fun i v hv ht => ?_, fun i => by
    rw [viewRingLoss_vu], fun n hn => ?_⟩
  · refine ⟨?_, fun hf => viewRingLoss_told hv ⟨ht, hf⟩⟩
    rw [viewRingLoss_vu]
    show (s.vu.views.map _).get i = _
    rw [Table.get_map, hv, Option.map_some]
    refine congrArg some (if_congr ?_ rfl rfl)
    exact and_iff_right ht
  · rw [viewRingLoss_port]
    exact List.mem_append_right _ (List.mem_map.2 ⟨n, List.mem_filter.2 ⟨hn, decide_eq_true rfl⟩, rfl⟩)

end Sys2Proof.Machine
end

section
/-! SUPPORT. What an entry to LOST or CONFLICT leaves in the blocks beside the Ring Controller, and how the raising of RING LOST
keeps it and takes it at the Trip Unit. -/

namespace Sys2Proof.Machine

variable {s a b x : State} {c : CausePair}

/-! ### The blocks at a loss -/

/-- What a loss leaves in the Section Engine: nothing posted, no correction sum, nothing that waits, and their answers. -/
structure SectionsLost (s a : State) : Prop where
  slots : ∀ i, a.slot i = { s.slot i with state := (a.slot i).state, posted := [], corrSum := 0, corrHeld := false }
  waiting : a.se.waiting = []
  replies : a.se.replies = []
  fences : ∀ f ∈ a.se.fences, f.slots = []
  discarded : ∀ f ∈ s.se.fences, f.slots ≠ [] → ⟨f.tag, .discarded, []⟩ ∈ (a.port f.port).responses
  refused : ∀ w ∈ s.se.waiting, ⟨w.tag, .notRunning, []⟩ ∈ (a.port w.port).responses

/-- `b` comes after `a` and leaves what a loss has done at the Image Mover and the View Unit. -/
structure Trails (a b : State) : Prop where
  im : b.im = a.im
  free : b.is.free = a.is.free
  strips : b.is.strips.map (fun x => (x.id, x.sending)) = a.is.strips.map (fun x => (x.id, x.sending))
  lists : b.vu.controlList = a.vu.controlList ∧ b.vu.nudges = a.vu.nudges ∧ b.vu.offered = a.vu.offered
  imports : ∀ i v, a.vu.views.get i = some v → v.target.isSome = true → b.vu.views.get i = some v
  exports : ∀ i, (b.vu.exports.get i).map (fun e => (e.hub, e.view, e.sub, e.kind, e.rate, e.due)) =
    (a.vu.exports.get i).map (fun e => (e.hub, e.view, e.sub, e.kind, e.rate, e.due))
  responses : ∀ q, ∀ r ∈ (a.port q).responses, r ∈ (b.port q).responses
  pending : ∀ q i, (a.port q).pending.getLsbD i = true → (b.port q).pending.getLsbD i = true
  dropped : ∀ q : PortNo, (b.port q).pending.getLsbD 8 = (a.port q).pending.getLsbD 8

theorem Trails.refl (a : State) : Trails a a :=
  ⟨rfl, rfl, rfl, ⟨rfl, rfl, rfl⟩, fun _ _ h _ => h, fun _ => rfl, fun _ _ h => h, fun _ _ h => h, fun _ => rfl⟩

theorem Trails.trans (h : Trails s a) (h' : Trails a b) : Trails s b where
  im := h'.im.trans h.im
  free := h'.free.trans h.free
  strips := h'.strips.trans h.strips
  lists := ⟨h'.lists.1.trans h.lists.1, h'.lists.2.1.trans h.lists.2.1, h'.lists.2.2.trans h.lists.2.2⟩
  imports i v hv ht := h'.imports i v (h.imports i v hv ht) ht
  exports i := (h'.exports i).trans (h.exports i)
  responses q r hr := h'.responses q r (h.responses q r hr)
  pending q i hi := h'.pending q i (h.pending q i hi)
  dropped q := (h'.dropped q).trans (h.dropped q)

/-- Work that leaves the Image Mover and the View Unit, and of the Image Store the free tiles and the SENDING pins. -/
theorem Trails.of {l : List Blk} (k : Keeps l a b) (him : Blk.im ∉ l) (hvu : Blk.vu ∉ l) (free : b.is.free = a.is.free)
    (strips : b.is.strips.map (fun x => (x.id, x.sending)) = a.is.strips.map (fun x => (x.id, x.sending)))
    (ports : ∀ p, PortKept (a.port p) (b.port p)) {m : List Notice} (t : a.tells b m) (hm : Notice.imageDropped ∉ m) :
    Trails a b := by
  have vu : b.vu = a.vu := k.2.2.2 .vu hvu
  refine ⟨k.2.2.2 .im him, free, strips, by rw [vu]; exact ⟨rfl, rfl, rfl⟩, fun i v h _ => by rw [vu]; exact h,
    fun i => by rw [vu], fun q r hr => (ports q).responses.subset hr, fun q => (ports q).pending, fun q => t q .imageDropped hm⟩

/-- Work that leaves the Image Store too. -/
theorem Trails.of_keeps {l : List Blk} (k : Keeps l a b) (him : Blk.im ∉ l) (hvu : Blk.vu ∉ l) (his : Blk.is ∉ l)
    (ports : ∀ p, PortKept (a.port p) (b.port p)) {m : List Notice} (t : a.tells b m) (hm : Notice.imageDropped ∉ m) :
    Trails a b := by
  have is : b.is = a.is := k.2.2.2 .is his
  exact .of k him hvu (by rw [is]) (by rw [is]) ports t hm

/-- Work that changes no port. -/
theorem Trails.quiet {l : List Blk} (k : Keeps l a b) (hl : Blk.im ∉ l ∧ Blk.vu ∉ l ∧ Blk.is ∉ l ∧ Blk.cp ∉ l) : Trails a b := by
  have cp : b.cp = a.cp := k.2.2.2 .cp hl.2.2.2
  refine .of_keeps k hl.1 hl.2.1 hl.2.2.1 (fun p => ?_) (tells_of_cp (l := []) cp) (fun h => nomatch h)
  rw [show b.port p = a.port p by rw [State.port, cp]; rfl]
  exact .refl _

theorem Trails.markDirty (s a : State) : Trails a (markDirty s a) := by
  refine ⟨rfl, rfl, rfl, ⟨rfl, rfl, rfl⟩, fun i v h ht => ?_, fun i => ?_, fun _ _ h => h, fun _ _ h => h, fun _ => rfl⟩
  · rcases (kept_markDirty s a).2.1 i with e | ⟨w, hw, hn, -⟩
    · rw [e, h]
    · rw [h] at hw
      cases hw
      rw [hn] at ht
      cases ht
  · rcases (kept_markDirty s a).2.2 i with e | ⟨w, hw, -, e⟩
    · rw [e]
    · rw [e, hw]; rfl

theorem State.moverLost.trails (h : s.moverLost a) (t : Trails a b) : s.moverLost b := by
  obtain ⟨im, none, free, strips, dropped⟩ := h
  unfold State.moverLost
  rw [t.im, t.free, t.strips]
  exact ⟨im, none, free, strips, fun p => (t.dropped p).trans (dropped p)⟩

theorem State.viewsLost.trails (h : s.viewsLost a) (t : Trails a b) : s.viewsLost b := by
  obtain ⟨list, nudges, offered, imports, exports, refused⟩ := h
  refine ⟨t.lists.1.trans list, t.lists.2.1.trans nudges, t.lists.2.2.trans offered, fun i v hv ht => ?_,
    fun i => (t.exports i).trans (exports i), fun n hn => t.responses _ _ (refused n hn)⟩
  obtain ⟨view, told⟩ := imports i v hv ht
  refine ⟨t.imports i _ view ?_, fun hf => t.pending _ 2 (told hf)⟩
  split
  · exact ht
  · exact ht

theorem ringLoss_se (s : State) : s.ringLoss.se = (s.onRc RC.emptyQueues).sectionRingLoss.se :=
  ((keeps_viewRingLoss _).2.2.2 .se (by decide)).trans ((keeps_imageRingLoss _).2.2.2 .se (by decide))

theorem ringLoss_slot (s : State) (i : SlotNo) :
    s.ringLoss.slot i = { s.slot i with posted := [], corrSum := 0, corrHeld := false } := by
  rw [State.slot, ringLoss_se, sectionRingLoss_se]
  exact Table.get_map _ _ _

/-- The loss itself. -/
theorem ringLoss_lost (s : State) : SectionsLost s s.ringLoss ∧ s.moverLost s.ringLoss ∧ s.viewsLost s.ringLoss := by
  have k0 : Keeps [.rc] s (s.onRc RC.emptyQueues) := keeps_onRc s _
  have k1 := keeps_sectionRingLoss (s.onRc RC.emptyQueues)
  have k2 := keeps_imageRingLoss (s.onRc RC.emptyQueues).sectionRingLoss
  have k3 := keeps_viewRingLoss (s.onRc RC.emptyQueues).sectionRingLoss.imageRingLoss
  have l2 := (lawful_imageRingLoss (s.onRc RC.emptyQueues).sectionRingLoss).sound.ports
  have l3 := (lawful_viewRingLoss (s.onRc RC.emptyQueues).sectionRingLoss.imageRingLoss).sound.ports
  have se := ringLoss_se s
  refine ⟨⟨fun i => ?_, ?_, ?_, fun f hf => ?_, fun f hf hn => ?_, fun w hw => ?_⟩, ?_, ?_⟩
  · rw [ringLoss_slot]
  · rw [se, sectionRingLoss_se]
  · rw [se, sectionRingLoss_se]
  · rw [se, sectionRingLoss_se] at hf
    exact List.isEmpty_iff.1 (List.mem_filter.1 hf).2
  · obtain ⟨l, hl, h1, -⟩ := sectionRingLoss_port (s.onRc RC.emptyQueues) f.port
    refine ((l2 _).trans (l3 _)).responses.subset ?_
    rw [hl]
    exact List.mem_append_right _ (h1 f hf hn rfl)
  · obtain ⟨l, hl, -, h2⟩ := sectionRingLoss_port (s.onRc RC.emptyQueues) w.port
    refine ((l2 _).trans (l3 _)).responses.subset ?_
    rw [hl]
    exact List.mem_append_right _ (h2 w hw rfl)
  · have im : s.ringLoss.im = (s.onRc RC.emptyQueues).sectionRingLoss.imageRingLoss.im := k3.2.2.2 .im (by decide)
    have is : s.ringLoss.is = (s.onRc RC.emptyQueues).sectionRingLoss.imageRingLoss.is := k3.2.2.2 .is (by decide)
    have im0 : (s.onRc RC.emptyQueues).sectionRingLoss.im = s.im := k1.2.2.2 .im (by decide)
    have is0 : (s.onRc RC.emptyQueues).sectionRingLoss.is = s.is := k1.2.2.2 .is (by decide)
    have law : (s.onRc RC.emptyQueues).sectionRingLoss.storeLaw = s.storeLaw := by
      unfold State.storeLaw State.tileLaw State.receptionLaw State.allTiles
      rw [im0, is0]
    have routes : (s.onRc RC.emptyQueues).sectionRingLoss.cp.routes = s.cp.routes :=
      (lawful_sectionRingLoss (s.onRc RC.emptyQueues)).sound.routes
    have empty : ∀ c : Fin 2, ((s.im.contexts.set 0 none).set 1 none).get c = none := fun c => by
      match c with
      | 0 => rw [Table.get_set_other _ _ (by decide), Table.get_set_self]
      | 1 => exact Table.get_set_self _ _ _
    have lost := imageRingLoss_im (s.onRc RC.emptyQueues).sectionRingLoss
    rw [im0] at lost
    unfold State.moverLost
    rw [im, is, lost]
    refine ⟨rfl, empty, fun l => ⟨_, .refl _, ?_⟩, ?_, fun p => ?_⟩
    · rw [imageRingLoss_free _ (law.trans l), im0, is0]
    · rw [imageRingLoss_strips, im0, is0]
    · have told := tells_viewRingLoss (s.onRc RC.emptyQueues).sectionRingLoss.imageRingLoss p .imageDropped (by decide)
      refine told.trans ?_
      obtain ⟨l, hl, -⟩ := sectionRingLoss_port (s.onRc RC.emptyQueues) p
      have d := imageRingLoss_dropped (s.onRc RC.emptyQueues).sectionRingLoss p
      rw [hl, im0, routes] at d
      exact d
  · have vu : (s.onRc RC.emptyQueues).sectionRingLoss.imageRingLoss.vu = s.vu :=
      (k2.2.2.2 .vu (by decide)).trans (k1.2.2.2 .vu (by decide))
    have h := viewsLost_viewRingLoss (s.onRc RC.emptyQueues).sectionRingLoss.imageRingLoss
    unfold State.viewsLost at h ⊢
    rw [vu] at h
    exact h

/-! ### Raising a cause after a loss -/

/-- What raising a cause comes to. -/
theorem raise_shapes {P : State → Prop} (c : CausePair) (same : P s) (again : P s.enterLockout) (noticed : P ((s.latch c).noticed c))
    (enters : P (((s.latch c).noticed c).enterCapture c)) (locks : P ((s.latch c).noticed c).enterLockout)
    (rises : P ((((s.latch c).noticed c).appendSecondary c).riseFrom s.effectiveClass)) : P (s.raise c) := by
  by_cases h : c ∈ s.tu.causes
  · unfold State.raise
    rw [if_pos ((contains_iff c _).2 h)]
    split
    · exact again
    · exact same
  · rw [raise_fresh h]
    rcases tripState_groups s.tu.state with hn | hn | hn
    · rw [latched_idle (s := s.latch c) c _ hn]
      split
      · exact enters
      · exact noticed
    · rw [latched_stopping (s := s.latch c) c _ hn]
      split
      · exact locks
      · exact rises
    · rw [latched_stopped (s := s.latch c) c _ hn]
      exact rises

theorem enterLockout_se (s : State) : s.orderTaken s.enterLockout .coast := by
  have se : (((s.appendSecondary ⟨.ringLost, none⟩).reachClass s.effectiveClass).setTrip .lockout).se = s.se :=
    (setTrip_se _ _).trans (((keeps_reachClass _ _).2.2.2 .se (by decide)).trans
      ((keeps_appendSecondary _ _).2.2.2 .se (by decide)))
  exact orderTaken_of_se (sectionActions_taken _ .coast) se

/-- A raised cause leaves the sections or gives them one order. -/
theorem raise_orders (s : State) (c : CausePair) : (s.raise c).se = s.se ∨ ∃ k, s.orderTaken (s.raise c) k := by
  have noticed : ((s.latch c).noticed c).se = s.se := noticed_se _ _
  refine raise_shapes (P := fun a => a.se = s.se ∨ ∃ k, s.orderTaken a k) c (.inl rfl) (.inr ⟨_, enterLockout_se s⟩)
    (.inl noticed) (.inr ⟨_, orderTaken_of_se (enterCapture_taken _ c) noticed⟩)
    (.inr ⟨_, orderTaken_of_se (enterLockout_se _) noticed⟩) ?_
  have r := appendRise_risen ((s.latch c).noticed c) c s.effectiveClass
  by_cases h : s.effectiveClass.rank < ((s.latch c).noticed c).effectiveClass.rank
  · exact .inr ⟨_, orderTaken_of_se (r.taken h) noticed⟩
  · exact .inl ((r.idle h).trans noticed)

/-- An order after a loss finds nothing to discard. -/
theorem SectionsLost.ordered {k : Cls} (h : SectionsLost s a) (o : a.orderTaken b k)
    (t : ∀ q, ∀ r ∈ (a.port q).responses, r ∈ (b.port q).responses) : SectionsLost s b := by
  obtain ⟨slots, waiting, replies, fences, -⟩ := o
  refine ⟨fun i => ?_, waiting.trans h.waiting, replies.trans h.replies, fun f hf => h.fences f ?_,
    fun f hf hn => t _ _ (h.discarded f hf hn), fun w hw => t _ _ (h.refused w hw)⟩
  · have e := slots i
    dsimp only at e
    split at e
    · rw [e, h.slots i]
    · rw [e, h.slots i]
  · rw [fences] at hf
    exact (List.mem_filter.1 hf).1

theorem SectionsLost.of_se (h : SectionsLost s a) (e : b.se = a.se)
    (t : ∀ q, ∀ r ∈ (a.port q).responses, r ∈ (b.port q).responses) : SectionsLost s b := by
  refine ⟨fun i => ?_, by rw [e]; exact h.waiting, by rw [e]; exact h.replies, by rw [e]; exact h.fences,
    fun f hf hn => t _ _ (h.discarded f hf hn), fun w hw => t _ _ (h.refused w hw)⟩
  rw [show b.slot i = a.slot i by rw [State.slot, e]; rfl]
  exact h.slots i

theorem SectionsLost.raise (h : SectionsLost s a) (c : CausePair) : SectionsLost s (a.raise c) := by
  have t : ∀ q, ∀ r ∈ (a.port q).responses, r ∈ ((a.raise c).port q).responses := fun q r hr =>
    ((lawful_raise a c).sound.ports q).responses.subset hr
  rcases raise_orders a c with e | ⟨k, o⟩
  · exact h.of_se e t
  · exact h.ordered o t

theorem tells_setTrip (s : State) (st : TripState) : s.tells (s.setTrip st) [.trip] :=
  ((tells_notify _ .trip).trans ((keeps_checkReformation _).tells (by decide)) :
    (s.onTu _).tells (s.setTrip st) [.trip])

theorem tells_enterLockout (s : State) : s.tells s.enterLockout [.trip, .notify] := by
  have h : ((s.appendSecondary ⟨.ringLost, none⟩).reachClass s.effectiveClass).tells s.enterLockout [.trip, .notify] :=
    ((tells_setTrip _ _).mono (by decide)).trans ((tells_sectionActions _ .coast).mono (by decide))
  exact ((keeps_appendSecondary s _).tells (by decide)).trans (((keeps_reachClass _ _).tells (by decide)).trans h)

theorem tells_enterCapture (s : State) (c : CausePair) : s.tells (s.enterCapture c) [.trip, .notify] :=
  ((((tells_setTrip s _).mono (by decide)).trans ((keeps_openRecord _ _).tells (by decide))).trans
    ((tells_sectionActions _ _).mono (by decide))).trans ((keeps_onIs _ _).tells (by decide))

theorem tells_raise (s : State) (c : CausePair) : s.tells (s.raise c) [.trip, .notify] := by
  have noticed : s.tells ((s.latch c).noticed c) [.trip, .notify] :=
    (State.tells.ite ((tells_notify (s.latch c) .notify).mono (by decide)) (tells_refl _ _) :
      (s.latch c).tells ((s.latch c).noticed c) [.trip, .notify])
  refine raise_shapes (P := fun a => s.tells a [.trip, .notify]) c (tells_refl _ _) (tells_enterLockout s) noticed
    (noticed.trans (tells_enterCapture _ c)) (noticed.trans (tells_enterLockout _))
    (noticed.trans (((keeps_appendSecondary _ c).tells (by decide)).trans ?_))
  rw [riseFrom_eq]
  exact .ite (((keeps_reachClass _ _).tells (by decide)).trans ((tells_sectionActions _ _).mono (by decide))) (tells_refl _ _)

/-- A strip, but for its freeze marks. -/
noncomputable def Strip.unfrozen (x : Strip) : Strip := { x with freezeSet := [] }

/-- Raising a cause changes of the store the walk and the freeze marks. -/
theorem raise_store (s : State) (c : CausePair) :
    (s.raise c).is = { s.is with strips := (s.raise c).is.strips, walk := (s.raise c).is.walk }
      ∧ (s.raise c).is.strips.map Strip.unfrozen = s.is.strips.map Strip.unfrozen := by
  have noticed : ((s.latch c).noticed c).is = s.is := (noticed_keeps (s.latch c) c).2.2.2 .is (by decide)
  have same : ∀ {a : State}, a.is = s.is → a.is = { s.is with strips := a.is.strips, walk := a.is.walk }
      ∧ a.is.strips.map Strip.unfrozen = s.is.strips.map Strip.unfrozen := fun h => by
    rw [h]; exact ⟨rfl, rfl⟩
  refine raise_shapes (P := fun a => a.is = { s.is with strips := a.is.strips, walk := a.is.walk }
    ∧ a.is.strips.map Strip.unfrozen = s.is.strips.map Strip.unfrozen) c (same rfl)
    (same ((keeps_enterLockout s).2.2.2 .is (by decide))) (same noticed) ?_
    (same (((keeps_enterLockout _).2.2.2 .is (by decide)).trans noticed))
    (same (((keeps_riseFrom _ _).2.2.2 .is (by decide)).trans (((keeps_appendSecondary _ _).2.2.2 .is (by decide)).trans noticed)))
  have drop (x : State) : x.dropOldestRecord.is = { x.is with strips := x.dropOldestRecord.is.strips }
      ∧ x.dropOldestRecord.is.strips.map Strip.unfrozen = x.is.strips.map Strip.unfrozen := by
    unfold State.dropOldestRecord
    rcases x.tu.records with _ | ⟨r, rest⟩
    · exact ⟨rfl, rfl⟩
    · dsimp only
      split
      · refine ⟨rfl, List.map_map.trans (List.map_congr_left fun y _ => ?_)⟩
        rw [Function.comp]
        split <;> rfl
      · exact ⟨rfl, rfl⟩
  have set : (((s.latch c).noticed c).setTrip .capture).is = s.is :=
    ((keeps_setTrip _ .capture).2.2.2 .is (by decide)).trans noticed
  have opened := drop (((s.latch c).noticed c).setTrip .capture)
  rw [set] at opened
  have act (x : State) (k : Cls) : (x.sectionActions k).is = x.is := (keeps_sectionActions x k).2.2.2 .is (by decide)
  have walk (x : State) (n m : BitVec 16) : (x.startWalk n m).is = { x.is with walk := (x.startWalk n m).is.walk } := rfl
  unfold State.enterCapture
  dsimp only
  rw [walk, act]
  have walked (m : IS) (w : Option Walk) (h : m = { s.is with strips := m.strips }) :
      ({ m with walk := w } : IS) = { s.is with strips := m.strips, walk := w } :=
    (congrArg (fun m : IS => { m with walk := w }) h).trans rfl
  exact ⟨walked _ _ opened.1, opened.2⟩

/-- Free tiles and SENDING pins are nothing to the opening of a record. -/
theorem raise_stock (s : State) (c : CausePair) : (s.raise c).is.free = s.is.free
    ∧ (s.raise c).is.strips.map (fun x => (x.id, x.sending)) = s.is.strips.map (fun x => (x.id, x.sending)) := by
  obtain ⟨h1, h2⟩ := raise_store s c
  have h := congrArg (List.map fun x : Strip => (x.id, x.sending)) h2
  rw [List.map_map, List.map_map] at h
  exact ⟨(congrArg IS.free h1).trans rfl, h⟩

theorem raise_trails (s : State) (c : CausePair) : Trails s (s.raise c) :=
  .of (keeps_raise s c) (by decide) (by decide) (raise_stock s c).1 (raise_stock s c).2 (lawful_raise s c).sound.ports
    (tells_raise s c) (by decide)

end Sys2Proof.Machine
end

section
/-! SUPPORT. RING LOST at the Trip Unit, in each trip state. -/

namespace Sys2Proof.Machine

variable {s a b x : State}

/-- The pair of RING LOST. -/
noncomputable def ringLostPair : CausePair := ⟨.ringLost, none⟩

/-- Outside a trip: CAPTURE with RING LOST as first cause. -/
theorem ringLost_opens (tu : a.tu = s.tu) (se : ∀ i, (a.slot i).state = (s.slot i).state)
    (hs : s.tu.state = .normal ∨ s.tu.state = .releasing) (fresh : ringLostPair ∉ s.tu.causes)
    (stops : 2 ≤ (s.tu.matrix.get .ringLost).rank) :
    s.tripOpened (a.raise ringLostPair) ringLostPair (fun r =>
        r.secondary = [] ∧ r.entryClass = (a.raise ringLostPair).effectiveClass
          ∧ r.highest = (a.raise ringLostPair).effectiveClass)
      ∧ ∀ i, ((a.raise ringLostPair).slot i).state =
        SectionState.under (a.raise ringLostPair).effectiveClass (s.slot i).state := by
  rw [raise_enters (c := ringLostPair) (by rw [tu]; exact fresh) (by rw [tu]; exact hs) (by rw [tu]; exact stops)]
  refine ⟨?_, fun i => ?_⟩
  · have opened := enterCapture_opened (s := a.latch ringLostPair) (c := ringLostPair) (P := fun r =>
        r.secondary = [] ∧ r.entryClass = ((a.latch ringLostPair).enterCapture ringLostPair).effectiveClass
          ∧ r.highest = ((a.latch ringLostPair).enterCapture ringLostPair).effectiveClass)
        (by rw [captureRecord_eq]; exact ⟨rfl, rfl, rfl⟩)
    unfold State.tripOpened at opened ⊢
    rw [show (a.latch ringLostPair).tu.records = s.tu.records by rw [← tu]; rfl,
      show (a.latch ringLostPair).tu.recordCount = s.tu.recordCount by rw [← tu]; rfl] at opened
    exact opened
  · rw [orderTaken_state (enterCapture_taken (a.latch ringLostPair) ringLostPair) i]
    exact congrArg _ (se i)

/-- Into LOCKOUT: every section VACANT or RELEASED, and RING LOST in the current record. -/
structure Locked (s b : State) : Prop where
  tu : b.tu = { s.tu with
    causes := b.tu.causes, state := .lockout, releaseLevel := none, records := b.tu.records }
  record : s.currentBecomes b (fun r => r.noted ringLostPair b.effectiveClass)
  sections : ∀ i, (b.slot i).state = .vacant ∨ (b.slot i).state = .released

theorem enterLockout_locked (hs : s.tu.state = .capture ∨ s.tu.state = .stopping) : Locked s s.enterLockout := by
  have tu := enterLockout_tu s
  have cls : s.enterLockout.effectiveClass = s.effectiveClass := by
    unfold State.effectiveClass State.ownClass State.latchedClass
    rw [tu]
    rcases hs with e | e
    · rw [e]
    · rw [e]
  have records : s.enterLockout.tu.records = ((s.appendSecondary ringLostPair).reachClass s.effectiveClass).tu.records := by
    have h : s.enterLockout.tu = (((s.appendSecondary ringLostPair).reachClass s.effectiveClass).setTrip .lockout).tu :=
      (keeps_orderSections _ _ _).2.2.2 .tu (by decide)
    rw [h, setTrip_tu]
  refine ⟨by rw [tu], ?_, fun i => ?_⟩
  · have append := onCurrent_tu s (fun r => r.addSecondary ringLostPair)
    have reach := onCurrent_becomes (s.appendSecondary ringLostPair) (fun r => { r with highest := r.highest.max s.effectiveClass })
    have record := (onCurrent_becomes s (fun r => r.addSecondary ringLostPair)).trans reach (by rw [append])
      (fun r => addSecondary_number r ringLostPair)
    rw [cls]
    refine State.currentBecomes.congr (f := fun r => { r.addSecondary ringLostPair with
      highest := (r.addSecondary ringLostPair).highest.max s.effectiveClass }) ?_ fun r => by
        rw [noted_eq, addSecondary_highest]
    unfold State.currentBecomes at record ⊢
    rw [records]
    exact record
  · rw [orderTaken_state (enterLockout_se s) i]
    cases (s.slot i).state
    · exact .inl rfl
    all_goals exact .inr rfl

/-- The second failure, whether RING LOST is latched or not. -/
theorem ringLost_locks (tu : a.tu = s.tu) (hs : s.tu.state = .capture ∨ s.tu.state = .stopping) :
    Locked s (a.raise ringLostPair) := by
  by_cases fresh : ringLostPair ∈ a.tu.causes
  · have e : a.raise ringLostPair = a.enterLockout := by
      unfold State.raise
      rw [if_pos ((contains_iff _ _).2 fresh), if_pos ⟨rfl, by rw [tu]; exact hs⟩]
    have h := enterLockout_locked (s := a) (by rw [tu]; exact hs)
    rw [e]
    exact ⟨h.tu.trans (by rw [tu]), h.record.of_tu (by rw [tu]) (by rw [tu]), h.sections⟩
  · have noticed : ((a.latch ringLostPair).noticed ringLostPair).tu = (a.latch ringLostPair).tu := noticed_tu _ _
    have state : ((a.latch ringLostPair).noticed ringLostPair).tu.state = a.tu.state := by rw [noticed]; rfl
    have e : a.raise ringLostPair = ((a.latch ringLostPair).noticed ringLostPair).enterLockout := by
      rw [raise_fresh fresh, latched_stopping (s := a.latch ringLostPair) ringLostPair _ (by rw [← tu] at hs; exact hs)]
      exact if_pos rfl
    have h := enterLockout_locked (s := (a.latch ringLostPair).noticed ringLostPair) (by rw [state, tu]; exact hs)
    rw [e]
    refine ⟨h.tu.trans ?_, h.record.of_tu ?_ ?_, h.sections⟩
    · rw [enterLockout_tu, noticed, ← tu]; rfl
    · rw [noticed, ← tu]; rfl
    · rw [noticed, ← tu]; rfl

/-- In STOPPED and LOCKOUT the state stays; a new RING LOST is secondary, and the sections follow a rise of the class. -/
theorem ringLost_escalates (tu : a.tu = s.tu) (se : ∀ i, (a.slot i).state = (s.slot i).state)
    (hs : s.tu.state = .stopped ∨ s.tu.state = .lockout) :
    (a.raise ringLostPair).tu = { s.tu with causes := (a.raise ringLostPair).tu.causes, records := (a.raise ringLostPair).tu.records }
    ∧ s.currentBecomes (a.raise ringLostPair) (fun r => if ringLostPair ∈ s.tu.causes then r
        else r.noted ringLostPair (if s.effectiveClass.rank < (a.raise ringLostPair).effectiveClass.rank
          then (a.raise ringLostPair).effectiveClass else .noClass))
    ∧ ∀ i, ((a.raise ringLostPair).slot i).state = if s.effectiveClass.rank < (a.raise ringLostPair).effectiveClass.rank
        then SectionState.under (a.raise ringLostPair).effectiveClass (s.slot i).state else (s.slot i).state := by
  have before : a.effectiveClass = s.effectiveClass := effectiveClass_tu (by rw [tu]) (by rw [tu]) (by rw [tu]) (by rw [tu])
  have out : ¬ (a.tu.state = .normal ∨ a.tu.state = .releasing) := by
    rw [tu]
    rcases hs with e | e
    · rw [e]; decide
    · rw [e]; decide
  by_cases fresh : ringLostPair ∈ s.tu.causes
  · have e : a.raise ringLostPair = a := raise_latched (by rw [tu]; exact fresh) fun _ => by
      rw [tu]
      rcases hs with e | e
      · rw [e]; decide
      · rw [e]; decide
    rw [e, before, if_neg (Nat.lt_irrefl _)]
    refine ⟨by rw [tu], currentBecomes_same (by rw [tu]) fun r => if_pos fresh, fun i => ?_⟩
    rw [if_neg (Nat.lt_irrefl _)]
    exact se i
  · have noticed : ((a.latch ringLostPair).noticed ringLostPair).tu = (a.latch ringLostPair).tu := noticed_tu _ _
    have nse : ((a.latch ringLostPair).noticed ringLostPair).se = a.se := noticed_se _ _
    have e := raise_escalates (s := a) (c := ringLostPair) (by rw [tu]; exact fresh) out fun _ => by rw [tu]; exact hs
    have r := appendRise_risen ((a.latch ringLostPair).noticed ringLostPair) ringLostPair a.effectiveClass
    rw [← e, before] at r
    have cls : (a.raise ringLostPair).effectiveClass = ((a.latch ringLostPair).noticed ringLostPair).effectiveClass :=
      effectiveClass_tu (by rw [r.tu]) (by rw [r.tu]) (by rw [r.tu]) (by rw [r.tu])
    have record := r.record
    have taken := r.taken
    have idle := r.idle
    rw [← cls] at record taken idle
    refine ⟨?_, ?_, fun i => ?_⟩
    · rw [r.tu, noticed, ← tu]; rfl
    · refine (record.of_tu (by rw [noticed, ← tu]; rfl) (by rw [noticed, ← tu]; rfl)).congr fun q => (if_neg fresh).symm
    · split
      next h => rw [orderTaken_state (orderTaken_of_se (taken h) nse) i, se i]
      next h => rw [State.slot, idle h, nse]; exact se i

/-- A pair noted in a record that has room for it. -/
theorem noted_listed {r : TripRecord} {c : CausePair} (k : Cls) (room : r.secondary.length < 8) (first : c ≠ r.first) :
    (r.noted c k).number = r.number ∧ (r.noted c k).first = r.first ∧ c ∈ (r.noted c k).secondary
      ∧ r.highest.rank ≤ (r.noted c k).highest.rank := by
  have rank : r.highest.rank ≤ (r.highest.max k).rank := by
    unfold Cls.max
    split
    · omega
    · exact le_rfl
  rw [noted_eq]
  unfold TripRecord.addSecondary
  split
  · exact ⟨rfl, rfl, List.mem_append_right _ (List.mem_singleton_self _), rank⟩
  next h =>
    refine ⟨rfl, rfl, ?_, rank⟩
    by_contra m
    exact h ⟨room, by simpa using m, first⟩

/-- RING LOST as every entry to LOST has it taken, and CONFLICT from RUNNING. -/
theorem ringLost_taken (tu : a.tu = s.tu) (se : ∀ i, (a.slot i).state = (s.slot i).state) :
    s.ringLostTaken (a.raise ringLostPair) := by
  have listed : ∀ {k : Cls}, s.currentBecomes (a.raise ringLostPair) (fun r => r.noted ringLostPair k) →
      ∀ before r after, s.currentAt before r after → r.secondary.length < 8 → ringLostPair ≠ r.first →
        ∃ r', (a.raise ringLostPair).tu.records = before ++ r' :: after ∧ r'.number = r.number ∧ r'.first = r.first
          ∧ ringLostPair ∈ r'.secondary ∧ r.highest.rank ≤ r'.highest.rank :=
    fun h before r after hc room first => ⟨_, h.1 before r after hc, noted_listed _ room first⟩
  have opens := ringLost_opens tu se
  have locks := ringLost_locks tu
  have escalates := ringLost_escalates tu se
  have opened : ∀ {P : TripRecord → Prop}, s.tripOpened (a.raise ringLostPair) ringLostPair P →
      s.tripOpened (a.raise ringLostPair) ringLostPair (fun _ => True) :=
    fun ⟨h1, h2, h3, r, h4, h5, h6, h7, _⟩ => ⟨h1, h2, h3, r, h4, h5, h6, h7, trivial⟩
  refine ⟨raise_mem a ringLostPair, ?_⟩
  cases hs : s.tu.state with
  | normal => exact fun fresh stops => opened (opens (.inl hs) fresh stops).1
  | releasing => exact fun fresh stops => opened (opens (.inr hs) fresh stops).1
  | capture =>
    have l := locks (.inl hs)
    exact ⟨by rw [l.tu], listed l.record, l.sections⟩
  | stopping =>
    have l := locks (.inr hs)
    exact ⟨by rw [l.tu], listed l.record, l.sections⟩
  | stopped =>
    obtain ⟨t, r, -⟩ := escalates (.inl hs)
    exact ⟨by rw [t]; exact hs, fun fresh => listed (r.congr fun q => if_neg fresh)⟩
  | lockout =>
    obtain ⟨t, r, -⟩ := escalates (.inr hs)
    exact ⟨by rw [t]; exact hs, fun fresh => listed (r.congr fun q => if_neg fresh)⟩

/-! ### The entry to LOST -/

theorem RingKept.rc_follower (h : RingKept s a) (hm : s.isMaster = false) : a.rc = s.rc := by
  rcases h.rc with ⟨e, -⟩ | ⟨-, e⟩
  · exact e
  · rw [e]
    exact if_neg fun c => by rw [hm] at c; exact Bool.false_ne_true c.1

theorem setRing_trails (s : State) (st : RingState) : Trails s (s.setRing st) := by
  unfold State.setRing
  split
  · exact .refl s
  · refine .of_keeps (l := [.rc, .cp]) (((keeps_onRc s _).mono (by decide)).trans ((keeps_notify _ _).mono (by decide)))
      (by decide) (by decide) (by decide) (fun p => ?_)
      (m := [.ring]) (tells_notify (s.onRc fun r => { r with ringState := st }) .ring) (by decide)
    exact (lawful_notify (s.onRc fun r => { r with ringState := st }) .ring).sound.ports p

/-- What the entry to LOST leaves in the other blocks: the Trip Unit has not yet been told. -/
structure LinksLost (s a : State) : Prop where
  sections : SectionsLost s a
  mover : s.moverLost a
  views : s.viewsLost a
  su : a.su = s.su
  tu : a.tu = s.tu
  states : ∀ i, (a.slot i).state = (s.slot i).state

theorem LinksLost.trails (h : LinksLost s a) (t : Trails a b) (se : b.se = a.se) (su : b.su = a.su) (tu : b.tu = a.tu) :
    LinksLost s b where
  sections := h.sections.of_se se t.responses
  mover := h.mover.trails t
  views := h.views.trails t
  su := su.trans h.su
  tu := tu.trans h.tu
  states i := by rw [show b.slot i = a.slot i by rw [State.slot, se]; rfl]; exact h.states i

theorem ringLoss_links (s : State) : LinksLost s s.ringLoss := by
  obtain ⟨sections, mover, views⟩ := ringLoss_lost s
  have k := keeps_ringLoss s
  refine ⟨sections, mover, views, k.2.2.2 .su (by decide), k.2.2.2 .tu (by decide), fun i => by rw [ringLoss_slot]⟩

theorem setRing_su (s : State) (st : RingState) : (s.setRing st).su = s.su := by
  unfold State.setRing
  split <;> rfl

theorem enterLost_links (s : State) : LinksLost s s.enterLost := by
  have h := (ringLoss_links s).trails (Trails.quiet (keeps_onRc s.ringLoss (fun r =>
    { r with reforming := true, deadline := none })) (by decide)) rfl rfl rfl
  have k := setRing_trails (s.ringLoss.onRc (fun r => { r with reforming := true, deadline := none })) .lost
  exact h.trails k (setRing_se _ _) (setRing_su _ _) (setRing_tu _ _)

/-- The loss of the ring has been taken by every block. -/
structure RingGone (s a : State) : Prop where
  sections : SectionsLost s a
  mover : s.moverLost a
  views : s.viewsLost a
  su : a.su = s.su
  taken : s.ringLostTaken a

theorem LinksLost.raised (h : LinksLost s a) : RingGone s (a.raise ringLostPair) where
  sections := h.sections.raise _
  mover := h.mover.trails (raise_trails a _)
  views := h.views.trails (raise_trails a _)
  su := ((keeps_raise a _).2.2.2 .su (by decide)).trans h.su
  taken := ringLost_taken h.tu h.states

theorem RingGone.trails (h : RingGone s a) (t : Trails a b) (se : b.se = a.se) (su : b.su = a.su) (tu : b.tu = a.tu) :
    RingGone s b where
  sections := h.sections.of_se se t.responses
  mover := h.mover.trails t
  views := h.views.trails t
  su := su.trans h.su
  taken := by
    have slot : ∀ i, b.slot i = a.slot i := fun i => by rw [State.slot, se]; rfl
    have taken := h.taken
    unfold State.ringLostTaken State.tripOpened at taken ⊢
    simp only [tu, slot]
    exact taken

theorem loseRing_gone (s : State) : RingGone s s.loseRing := by
  have k := keeps_checkReformation (s.enterLost.raise ringLostPair)
  exact (enterLost_links s).raised.trails (.quiet k (by decide)) (k.2.2.2 .se (by decide)) (k.2.2.2 .su (by decide))
    (k.2.2.2 .tu (by decide))

theorem loseRing_follower (hm : s.isMaster = false) : s.loseRing = s.enterLost.raise ringLostPair := by
  refine checkReformation_other fun h => ?_
  have m : (s.enterLost.raiseHub .ringLost).isMaster = s.isMaster :=
    (lawful_raiseHub s.enterLost .ringLost).sound.master.trans (sound_enterLost s).master
  rw [m, hm] at h
  exact Bool.false_ne_true h.1

theorem loseRing_rc (hm : s.isMaster = false) : s.loseRing.rc =
    { s.rc.emptyQueues with ringState := .lost, reforming := true, deadline := none } := by
  rw [loseRing_follower hm, (ringKept_raise s.enterLost ringLostPair).rc_follower ((sound_enterLost s).master.trans hm),
    enterLost_rc]

section
variable (s a : State)

theorem markDirty_rc : (markDirty s a).rc = a.rc := rfl
theorem markDirty_su : (markDirty s a).su = a.su := rfl
theorem markDirty_se : (markDirty s a).se = a.se := rfl
theorem markDirty_tu : (markDirty s a).tu = a.tu := rfl
theorem markDirty_slot (i : SlotNo) : (markDirty s a).slot i = a.slot i := rfl

end

theorem RingGone.dirty (h : RingGone s a) (x : State) : RingGone s (markDirty x a) :=
  h.trails (.markDirty x a) (markDirty_se _ _) (markDirty_su _ _) (markDirty_tu _ _)

/-! ### The deadline -/

theorem deadlineExpiry_due {d : HubTime} {r : LastCycle} (hm : s.isMaster = false) (hr : s.rc.ringState = .running)
    (hd : s.rc.deadline = some d) (hc : s.rc.lastCycle = some r) (due : isDue d s.hubTime = true) :
    s.deadlineExpiry = if s.rc.missedDeadlines = 0 then s.missedOnce d r else s.loseRing := by
  unfold State.deadlineExpiry
  rw [hd, hc]
  exact if_pos ⟨due, decide_eq_true hr, hm⟩

theorem appendEntry_newest (h : List HistEntry) (e : HistEntry) : (appendEntry h e).getLast? = some e := by
  unfold appendEntry
  split
  · exact List.getLast?_concat
  · exact List.getLast?_concat

theorem extrapolatedStep_su (s : State) (p : HubTime) (late : Bool) :
    (s.extrapolatedStep p late).su = { s.su with tracker := s.su.tracker.extrapolatedStep p late } :=
  (ringKept_stepBlocks (s.onSu (fun u => { u with tracker := s.su.tracker.extrapolatedStep p late })) _).su

theorem extrapolatedStep_recensused (s : State) (p : HubTime) (late : Bool) :
    s.rc.Recensused (s.extrapolatedStep p late).rc :=
  (ringKept_stepBlocks (s.onSu (fun u => { u with tracker := s.su.tracker.extrapolatedStep p late })) _).recensused

theorem tellStep_su (s : State) (b : Bool) : (s.tellStep b).su = s.su := by
  unfold State.tellStep State.stepTrip
  split
  · exact (keeps_setTrip _ _).2.2.2 .su (by decide)
  · rfl

/-- The hub at its first missed deadline, before the extrapolated step. -/
noncomputable def State.deadlineMissed (s : State) (d : HubTime) : State :=
  s.onRc (fun r =>
    { r with
      missedDeadlines := 1
      deadline := some (later d s.periodTicks)
      expectedNext := r.expectedNext.map (fun t => later t s.periodTicks) })

theorem missedOnce_eq (s : State) (d : HubTime) (r : LastCycle) : s.missedOnce d r =
    ((s.deadlineMissed d).extrapolatedStep (publicationInstant d r.dpub r.arrivalAge).1
      (publicationInstant d r.dpub r.arrivalAge).2).tellStep false := rfl

theorem missedOnce_rc (d : HubTime) (r : LastCycle) (hr : s.rc.ringState = .running) :
    (s.missedOnce d r).rc = (s.deadlineMissed d).rc := by
  rw [missedOnce_eq]
  exact ((extrapolatedStep_recensused (s.deadlineMissed d) _ _).trans (tellStep_recensused _ _)).running hr

theorem missedOnce_su (d : HubTime) (r : LastCycle) : (s.missedOnce d r).su = { s.su with
    tracker := s.su.tracker.extrapolatedStep (publicationInstant d r.dpub r.arrivalAge).1
      (publicationInstant d r.dpub r.arrivalAge).2 } := by
  rw [missedOnce_eq, tellStep_su, extrapolatedStep_su]
  rfl

end Sys2Proof.Machine

open Sys2Proof Sys2Proof.Machine

/-- Settles O12: the first missed deadline by the extrapolated step, the second by the loss of the ring. -/
theorem missedDeadline : Obligations.MissedDeadline := by
  intro s t d r hm hr hd due hc
  have expiry := deadlineExpiry_due (s := s.advance t) hm hr hd hc due
  have run : exec (.deadlineExpiry t) s = .next (markDirty s ((s.advance t).deadlineExpiry)) := rfl
  refine ⟨_, run, ?_⟩
  rw [expiry]
  by_cases first : s.rc.missedDeadlines = 0
  · rw [if_pos first, if_pos (show (s.advance t).rc.missedDeadlines = 0 from first)]
    have newest : ∀ (k : Tracker) (p : HubTime) (late : Bool), (k.extrapolatedStep p late).history.getLast? =
        some (k.entry (k.lastCycle + 1) p (k.angle + BitVec.ofInt 36 k.lastV) true late) := fun k p late =>
      appendEntry_newest _ _
    rw [markDirty_rc, markDirty_su, missedOnce_rc (s := s.advance t) d r hr, missedOnce_su]
    refine ⟨hr, rfl, rfl, rfl, ⟨_, newest _ _ _, rfl, rfl, rfl, rfl, ?_⟩, rfl, rfl, rfl, rfl⟩
    unfold publicationInstant
    by_cases late : r.dpub < r.arrivalAge ∨ r.arrivalAge = 65535
    · rw [if_pos late, if_pos late]
      exact ⟨rfl, rfl⟩
    · rw [if_neg late, if_neg late]
      exact ⟨rfl, rfl⟩
  · rw [if_neg first, if_neg (show ¬ (s.advance t).rc.missedDeadlines = 0 from first)]
    have rc := loseRing_rc (s := s.advance t) hm
    have gone := (loseRing_gone (s.advance t)).dirty s
    have lost : (s.advance t).loseRing = (s.advance t).enterLost.raise ringLostPair := loseRing_follower hm
    have links := enterLost_links (s.advance t)
    generalize he : markDirty s (s.advance t).loseRing = s' at gone ⊢
    have rc' : s'.rc = (s.advance t).loseRing.rc := by rw [← he, markDirty_rc]
    have tu' : s'.tu = (s.advance t).loseRing.tu := by rw [← he, markDirty_tu]
    have slot' : ∀ i, s'.slot i = (s.advance t).loseRing.slot i := fun i => by rw [← he, markDirty_slot]
    have cls : s'.effectiveClass = (s.advance t).loseRing.effectiveClass :=
      effectiveClass_tu (by rw [tu']) (by rw [tu']) (by rw [tu']) (by rw [tu'])
    rw [rc', rc]
    refine ⟨rfl, rfl, rfl, rfl, rfl, rfl, gone.taken, gone.mover, gone.views, gone.su, rfl, rfl, gone.sections.slots,
      gone.sections.waiting, gone.sections.replies, gone.sections.fences, gone.sections.discarded, gone.sections.refused, ?_⟩
    rw [cls]
    unfold State.tripOpened State.currentBecomes
    simp only [tu', slot', lost]
    rcases tripState_groups s.tu.state with hs | hs | hs
    · rw [if_pos hs]
      exact ringLost_opens links.tu links.states hs
    · rw [if_neg (by rcases hs with e | e <;> rw [e] <;> decide), if_pos hs]
      exact (ringLost_locks links.tu hs).record
    · rw [if_neg (by rcases hs with e | e <;> rw [e] <;> decide), if_neg (by rcases hs with e | e <;> rw [e] <;> decide)]
      exact (ringLost_escalates links.tu links.states hs).2

end

section
/-! SUPPORT. What a follower does with a ring control frame: its passage, the emptied history, and the re-formation effects. -/

namespace Sys2Proof.Machine

variable {s a b x : State}

/-! ### The passage of a frame whose last byte has come -/

/-- What the passage of a frame may change. -/
def RC.passedOn (r r' : RC) : Prop :=
  r' = { r with ringOut := r'.ringOut, outLeft := r'.outLeft, outHeld := r'.outHeld, transit := r'.transit, passing := r'.passing }

theorem passFrame_rc (s : State) (f : Frame) (n : Nat) : s.rc.passedOn (s.passFrame f n).rc := by
  by_cases h : s.rc.transit = [] ∧ s.rc.outLeft ≤ 32 - n
  · rw [passFrame_free h]; rfl
  · rw [passFrame_held h, holdFrame_eq]; rfl

theorem passWhole_known {f : Frame} (h : s.rc.arrivalAt (s.firstByte f.length) ≠ none) : s.passWhole f = s := by
  unfold State.passWhole
  split
  · rfl
  next e => exact absurd e h

theorem passWhole_new {f : Frame} (h : s.rc.arrivalAt (s.firstByte f.length) = none) :
    s.passWhole f = s.passFrame f (2 * f.length) := by
  unfold State.passWhole
  rw [h]

theorem passWhole_rc (s : State) (f : Frame) : s.rc.passedOn (s.passWhole f).rc := by
  by_cases h : s.rc.arrivalAt (s.firstByte f.length) = none
  · rw [passWhole_new h]; exact passFrame_rc _ _ _
  · rw [passWhole_known h]; rfl

theorem keeps_passWhole (s : State) (f : Frame) : Keeps [.rc] s (s.passWhole f) := by
  by_cases h : s.rc.arrivalAt (s.firstByte f.length) = none
  · rw [passWhole_new h]; exact keeps_passFrame _ _ _
  · rw [passWhole_known h]; exact .refl _ _

theorem passWhole_out {f : Frame} (hb : f.length ≤ 1049) (h : s.rc.arrivalAt (s.firstByte f.length) = none)
    (ht : s.rc.transit = []) (ho : s.rc.outLeft ≤ 32 - 2 * f.length) : (s.passWhole f).rc.ringOut =
        some ⟨s.leaving f s.rc.cableComp 0, later (s.hubTime - BitVec.ofNat 32 (2 * f.length)) 32⟩
      ∧ (s.passWhole f).rc.outLeft = 32 := by
  rw [passWhole_new h, passFrame_free ⟨ht, ho⟩, cutAt_of_le hb]
  exact ⟨rfl, Nat.add_sub_cancel 32 (2 * f.length)⟩

/-! ### The history is emptied -/

theorem angleAt_empty {k : Tracker} (h : k.history = []) (t : HubTime) : k.angleAt t = .unknown := by
  unfold Tracker.angleAt
  rw [h]
  rfl

theorem askCapture_empty (h : s.su.tracker.history = []) (i : Fin 8) : Keeps [.ru] s (s.askCapture i) := by
  unfold State.askCapture
  split
  · exact .refl _ s
  · rw [angleAt_empty h]
    exact keeps_onInput s i _

theorem askCaptures_empty (h : s.su.tracker.history = []) : Keeps [.ru] s s.askCaptures := by
  have all : ∀ (l : List (Fin 8)) (a : State), a.su.tracker.history = [] →
      Keeps [.ru] a (l.foldl (fun s i => s.askCapture i) a) := by
    intro l
    induction l with
    | nil => exact fun a _ => .refl _ a
    | cons i l ih =>
      intro a ha
      have k := askCapture_empty ha i
      refine k.trans (ih _ ?_)
      rw [show (a.askCapture i).su = a.su from k.2.2.2 .su (by decide)]
      exact ha
  exact all _ s h

theorem askStamps_empty (h : s.su.tracker.history = []) : s.askStamps = s.askStampsOnly := by
  have none : s.resolvable = [] := by
    unfold State.resolvable
    rw [List.filter_eq_nil_iff.2]
    · rfl
    intro x _ hx
    obtain ⟨hp, hk⟩ := Bool.and_eq_true_iff.1 hx
    unfold Stamp.isPending at hp
    split at hp
    next f c e =>
      rw [e] at hk
      unfold Stamp.ask at hk
      dsimp only at hk
      rw [angleAt_empty h] at hk
      cases hk
    · cases hp
    · cases hp
  unfold State.askStamps
  rw [none]
  rfl

theorem askStampsOnly_stock (s : State) : s.askStampsOnly.is.free = s.is.free
    ∧ s.askStampsOnly.is.strips.map (fun x => (x.id, x.sending)) = s.is.strips.map (fun x => (x.id, x.sending)) := by
  refine ⟨rfl, ?_⟩
  show (s.is.strips.map _).map _ = _
  rw [List.map_map]
  rfl

theorem registerEmptied_empty (h : s.su.tracker.history = []) : Keeps [.ru] s s.registerEmptied := by
  unfold State.registerEmptied
  exact (askCaptures_empty h).trans (keeps_onRu _ _)

/-- The hub whose tracker is emptied, its captures asked, its stamps not yet. -/
noncomputable def State.historyDropped (s : State) : State :=
  (s.onSu (fun u => { u with tracker := u.tracker.emptied })).registerEmptied

theorem emptyHistory_eq (s : State) : s.emptyHistory = s.historyDropped.storeEmptied := rfl

theorem keeps_historyDropped (s : State) : Keeps [.su, .ru] s s.historyDropped := by
  have h : Keeps [.ru] (s.onSu (fun u => { u with tracker := u.tracker.emptied })) s.historyDropped :=
    registerEmptied_empty rfl
  exact ((keeps_onSu s _).mono (by decide)).trans (h.mono (by decide))

theorem historyDropped_su (s : State) : s.historyDropped.su = { s.su with tracker := s.su.tracker.emptied } :=
  (keeps_registerEmptied (s.onSu (fun u => { u with tracker := u.tracker.emptied }))).2.2.2 .su (by decide)

theorem historyDropped_empty (s : State) : s.historyDropped.su.tracker.history = [] := by
  rw [historyDropped_su]
  rfl

theorem camerasChanged_stock (s : State) (f : IS → Table 4 Camera) :
    (s.onIs (fun st => { st with cameras := f st })).is.free = s.is.free
      ∧ (s.onIs (fun st => { st with cameras := f st })).is.strips = s.is.strips := ⟨rfl, rfl⟩

theorem storeEmptied_empty (h : s.su.tracker.history = []) : s.storeEmptied = s.askStampsOnly.onIs (fun st =>
    { st with cameras := st.cameras.map (fun c => { c with armed := [], scheduled := none }) }) := by
  unfold State.storeEmptied
  rw [askStamps_empty h]

theorem stored_empty (h : s.su.tracker.history = []) : Keeps [.is] s s.storeEmptied :=
  (congrArg (Keeps [.is] s) (storeEmptied_empty h)).mpr ((keeps_onIs s _).trans (keeps_onIs _ _))

/-- The emptying of the history: the tracker at rest, captures and stamps UNKNOWN, nothing armed. -/
theorem keeps_emptyHistory (s : State) : Keeps [.su, .ru, .is] s s.emptyHistory := by
  rw [emptyHistory_eq]
  exact ((keeps_historyDropped s).mono (by decide)).trans ((stored_empty (historyDropped_empty s)).mono (by decide))

theorem emptyHistory_su (s : State) : s.emptyHistory.su = { s.su with tracker := s.su.tracker.emptied } := by
  rw [emptyHistory_eq]
  exact ((keeps_storeEmptied _).2.2.2 .su (by decide)).trans (historyDropped_su s)

/-- Work that changes no port, and of the Image Store neither free tiles nor pins. -/
theorem Trails.stocked {l : List Blk} (k : Keeps l a b) (hl : Blk.im ∉ l ∧ Blk.vu ∉ l ∧ Blk.cp ∉ l) (free : b.is.free = a.is.free)
    (strips : b.is.strips.map (fun x => (x.id, x.sending)) = a.is.strips.map (fun x => (x.id, x.sending))) : Trails a b := by
  have cp : b.cp = a.cp := k.2.2.2 .cp hl.2.2
  refine .of k hl.1 hl.2.1 free strips (fun p => ?_) (tells_of_cp (l := []) cp) (fun h => nomatch h)
  rw [show b.port p = a.port p by rw [State.port, cp]; rfl]
  exact .refl _

theorem emptyHistory_trails (s : State) : Trails s s.emptyHistory := by
  have k := keeps_emptyHistory s
  have is : s.historyDropped.is = s.is := (keeps_historyDropped s).2.2.2 .is (by decide)
  have stock := askStampsOnly_stock s.historyDropped
  rw [is] at stock
  rw [emptyHistory_eq, storeEmptied_empty (historyDropped_empty s)] at k ⊢
  refine .stocked k (by decide) ?_ ?_
  · rw [(camerasChanged_stock _ _).1, stock.1]
  · rw [(camerasChanged_stock _ _).2, stock.2]

/-! ### The re-formation effects -/

/-- What the re-formation makes of a view. -/
noncomputable def View.atReformation (v : View) : View :=
  if v.target.isSome = true ∧ v.state ≠ .gone then { v with state := .gone, ready := true } else v

theorem View.atReformation_again (v : View) : v.atReformation.atReformation = v.atReformation := by
  by_cases h : v.target.isSome = true ∧ v.state ≠ .gone
  · have e : v.atReformation = { v with state := .gone, ready := true } := if_pos h
    rw [e]
    exact if_neg fun c => c.2 rfl
  · have e : v.atReformation = v := if_neg h
    rw [e, e]

theorem goneAtReformation_falls {i : Fin 16} {v : View} (h : s.vu.views.get i = some v)
    (hf : v.target.isSome = true ∧ v.state ≠ .gone) : s.goneAtReformation i = s.makeReady i { v with state := .gone } := by
  obtain ⟨k, hk⟩ := Option.isSome_iff_exists.1 hf.1
  unfold State.goneAtReformation
  rw [h]
  dsimp only
  rw [hk]
  exact if_neg hf.2

theorem goneAtReformation_stays {i : Fin 16}
    (h : ∀ v, s.vu.views.get i = some v → ¬ (v.target.isSome = true ∧ v.state ≠ .gone)) : s.goneAtReformation i = s := by
  unfold State.goneAtReformation
  split
  next v hv =>
    split
    next k e => exact if_pos (not_not.1 fun g => h v hv ⟨by rw [e]; rfl, g⟩)
    · rfl
  · rfl

theorem goneAtReformation_views (s : State) (i j : Fin 16) : (s.goneAtReformation i).vu.views.get j =
    if i = j then (s.vu.views.get j).map View.atReformation else s.vu.views.get j := by
  by_cases hf : ∃ v, s.vu.views.get i = some v ∧ v.target.isSome = true ∧ v.state ≠ .gone
  · obtain ⟨v, hv, hf⟩ := hf
    rw [goneAtReformation_falls hv hf]
    show (s.vu.views.set i _).get j = _
    rw [Table.get_set]
    split
    next e => rw [← e, hv, Option.map_some, View.atReformation, if_pos hf]
    next => rfl
  · have stays : ∀ v, s.vu.views.get i = some v → ¬ (v.target.isSome = true ∧ v.state ≠ .gone) :=
      fun v hv h => hf ⟨v, hv, h⟩
    rw [goneAtReformation_stays stays]
    split
    next e =>
      rw [← e]
      cases hv : s.vu.views.get i with
      | none => rfl
      | some v => rw [Option.map_some, View.atReformation, if_neg (stays v hv)]
    next => rfl

theorem goneAll_views (l : List (Fin 16)) (s : State) (j : Fin 16) : (l.foldl State.goneAtReformation s).vu.views.get j =
    if j ∈ l then (s.vu.views.get j).map View.atReformation else s.vu.views.get j := by
  induction l generalizing s with
  | nil => rfl
  | cons i l ih =>
    rw [List.foldl_cons, ih, goneAtReformation_views]
    by_cases e : i = j
    · subst e
      have twice : ((s.vu.views.get i).map View.atReformation).map View.atReformation =
          (s.vu.views.get i).map View.atReformation := by
        rw [Option.map_map]
        exact congrArg (fun f => Option.map f _) (funext View.atReformation_again)
      rw [if_pos rfl, if_pos (List.mem_cons_self ..), twice]
      exact ite_self _
    · rw [if_neg e]
      refine if_congr ?_ rfl rfl
      rw [List.mem_cons]
      exact ⟨.inr, fun h => h.resolve_left (fun e' => e e'.symm)⟩

theorem goneAll_told (l : List (Fin 16)) (s : State) {j : Fin 16} {v : View} (hj : j ∈ l)
    (hv : s.vu.views.get j = some v) (hf : v.target.isSome = true ∧ v.state ≠ .gone) :
    ((l.foldl State.goneAtReformation s).port v.owner).pending.getLsbD 2 = true := by
  induction l generalizing s with
  | nil => cases hj
  | cons i l ih =>
    rw [List.foldl_cons]
    by_cases e : i = j
    · subst e
      refine ((Lawful.foldl lawful_goneAtReformation l (s.goneAtReformation i)).sound.ports v.owner).pending 2 ?_
      rw [goneAtReformation_falls hv hf, State.makeReady, port_notifyPort, if_pos rfl]
      exact addNotice_self _ .views
    · refine ih _ ((List.mem_cons.1 hj).resolve_left (fun e' => e e'.symm)) ?_
      rw [goneAtReformation_views, if_neg e, hv]

theorem keeps_goneAtReformation (s : State) (i : Fin 16) : Keeps [.vu, .cp] s (s.goneAtReformation i) := by
  unfold State.goneAtReformation
  split
  · split
    · exact .ite (.refl _ s) (keeps_makeReady s _ _)
    · exact .refl _ s
  · exact .refl _ s

theorem keeps_viewReformation (s : State) : Keeps [.vu, .cp] s s.viewReformation :=
  Keeps.trans (.foldl keeps_goneAtReformation _ s) ((keeps_onVu _ _).mono (by decide))

theorem viewReformation_reformed (s : State) : s.viewsReformed s.viewReformation := by
  have views : ∀ j, s.viewReformation.vu.views.get j = (s.vu.views.get j).map View.atReformation := fun j => by
    unfold State.viewReformation
    rw [State.onVu_vu]
    dsimp only
    rw [goneAll_views, if_pos (List.mem_finRange j)]
  unfold State.viewsReformed
  refine ⟨fun i => Table.get_const _ _, rfl, fun i v hv ht => ⟨?_, fun hg => ?_⟩⟩
  · rw [views, hv, Option.map_some]
    refine congrArg some ?_
    unfold View.atReformation
    by_cases hg : v.state = .gone
    · rw [if_neg fun c => c.2 hg, if_pos hg]
    · rw [if_pos ⟨ht, hg⟩, if_neg hg]
  · have port : s.viewReformation.port v.owner = ((List.finRange 16).foldl State.goneAtReformation s).port v.owner :=
      port_onVu _ _ _
    rw [port]
    exact goneAll_told (List.finRange 16) s (List.mem_finRange i) hv ⟨ht, hg⟩

end Sys2Proof.Machine
end

section
/-! SUPPORT. A follower that drops its roster, takes an address or holds a roster, and the passage of the frame. -/

namespace Sys2Proof.Machine

variable {s a b x : State} {t : HubTime}

/-! ### The fibre as it was at the frame's arrival -/

/-- RING OUT, the transit buffer and the record of the last arrival are the same. -/
structure RC.SameFibre (r r' : RC) : Prop where
  ringOut : r'.ringOut = r.ringOut
  outLeft : r'.outLeft = r.outLeft
  transit : r'.transit = r.transit
  inbound : r'.inbound = r.inbound

/-- RING OUT and the transit buffer after the last byte of a frame on which the hub has acted: the frame leaves where
FRAME_FORWARD has not given its passage. -/
theorem passWhole_fibre {f : Frame} (ht : x.hubTime = t) (h : (s.advance t).rc.SameFibre x.rc) :
    (s.rc.arrivalAt (t - BitVec.ofNat 32 (2 * f.length)) = none → s.rc.transit = [] → f.length ≤ 1049 →
      s.rc.outLeft - (t - s.hubTime).toNat ≤ 32 - 2 * f.length →
        (x.passWhole f).rc.ringOut =
            some ⟨x.leaving f x.rc.cableComp 0, later (t - BitVec.ofNat 32 (2 * f.length)) 32⟩
          ∧ (x.passWhole f).rc.outLeft = 32)
    ∧ (s.rc.arrivalAt (t - BitVec.ofNat 32 (2 * f.length)) ≠ none →
        (x.passWhole f).rc.ringOut = s.rc.ringOut ∧ (x.passWhole f).rc.transit = s.rc.transit) := by
  have arrival : x.rc.arrivalAt (x.firstByte f.length) = s.rc.arrivalAt (t - BitVec.ofNat 32 (2 * f.length)) := by
    unfold RC.arrivalAt State.firstByte
    rw [h.inbound, ht]
    rfl
  rw [← arrival]
  refine ⟨fun new free hb left => ?_, fun known => ?_⟩
  · have out := passWhole_out hb new (h.transit.trans free) (by rw [h.outLeft]; exact left)
    rw [ht] at out
    exact out
  · rw [passWhole_known known]
    exact ⟨h.ringOut, h.transit⟩

/-! ### The effects of a census and a roster on the hub -/

/-- A change of the Ring Controller and of its state. -/
theorem keeps_ring (s : State) (f : RC → RC) (st : RingState) : Keeps [.rc, .cp] s ((s.onRc f).setRing st) := by
  refine ((keeps_onRc s f).mono (by decide)).trans ?_
  unfold State.setRing
  split
  · exact .refl _ _
  · exact ((keeps_onRc _ _).mono (by decide)).trans ((keeps_notify _ _).mono (by decide))

/-- A follower that enters DOWN, its history still held. -/
noncomputable def State.leftRing (s : State) : State :=
  ((s.onRc (fun r => { r.dropRoster with hubAddress := none, deadline := none })).setRing .down).setCarried .noClass 0

theorem keeps_leftRing (s : State) : Keeps [.rc, .cp, .tu] s s.leftRing :=
  ((keeps_ring s _ _).mono (by decide)).trans ((keeps_onTu _ _).mono (by decide))

theorem enterDown_tu (s : State) : s.enterDown.tu = { s.tu with carried := .noClass, carriedMask := 0 } :=
  ((keeps_emptyHistory s.leftRing).2.2.2 .tu (by decide)).trans
    (congrArg (fun u : TU => { u with carried := .noClass, carriedMask := 0 }) (setRing_tu _ _))

theorem keeps_enterDown (s : State) : Keeps [.rc, .cp, .tu, .su, .ru, .is] s s.enterDown :=
  ((keeps_leftRing s).mono (by decide)).trans ((keeps_emptyHistory _).mono (by decide))

/-- The hub that holds a roster, the re-formation effects not yet applied. -/
noncomputable def State.rosterTaken (s : State) (f : RosterFields) : State :=
  (s.onRc (fun r =>
    { r with
      rosterHeld := true
      hubCount := some f.hubCount
      period := some f.period
      dpub := some f.dpub
      lastCycle := none })).setCarried .noClass 0

theorem reform_flagged (h : s.rc.reforming = true) :
    s.reform = s.viewReformation.onRc (fun r => { r with reforming := false }) := if_pos h

theorem reform_unflagged (h : s.rc.reforming = false) : s.reform = s := if_neg (by rw [h]; exact Bool.false_ne_true)

theorem reform_rc (s : State) : s.reform.rc = { s.rc with reforming := false } := by
  cases h : s.rc.reforming with
  | true =>
    rw [reform_flagged h]
    exact congrArg (fun r : RC => { r with reforming := false }) ((keeps_viewReformation s).2.2.2 .rc (by decide))
  | false => rw [reform_unflagged h, ← h]

theorem keeps_reform (s : State) : Keeps [.rc, .vu, .cp] s s.reform := by
  cases h : s.rc.reforming with
  | true => rw [reform_flagged h]; exact ((keeps_viewReformation s).mono (by decide)).trans ((keeps_onRc _ _).mono (by decide))
  | false => rw [reform_unflagged h]; exact .refl _ s

theorem keeps_rosterTaken (s : State) (f : RosterFields) : Keeps [.rc, .tu] s (s.rosterTaken f) :=
  ((keeps_onRc s _).mono (by decide)).trans ((keeps_onTu _ _).mono (by decide))

theorem keeps_holdRoster (s : State) (f : RosterFields) : Keeps [.rc, .tu, .vu, .cp] s (s.holdRoster f) :=
  ((keeps_rosterTaken s f).mono (by decide)).trans ((keeps_reform _).mono (by decide))

theorem holdRoster_rc (s : State) (f : RosterFields) : (s.holdRoster f).rc = { s.rc with
    rosterHeld := true
    hubCount := some f.hubCount
    period := some f.period
    dpub := some f.dpub
    lastCycle := none
    reforming := false } := reform_rc (s.rosterTaken f)

theorem holdRoster_tu (s : State) (f : RosterFields) :
    (s.holdRoster f).tu = { s.tu with carried := .noClass, carriedMask := 0 } :=
  (keeps_reform (s.rosterTaken f)).2.2.2 .tu (by decide)

theorem State.viewsReformed.trails (h : s.viewsReformed a) (t : Trails a b) : s.viewsReformed b := by
  obtain ⟨exports, offered, imports⟩ := h
  refine ⟨fun i => ?_, t.lists.2.2.trans offered, fun i v hv ht => ?_⟩
  · have e := t.exports i
    rw [exports i] at e
    exact Option.map_eq_none_iff.1 e
  · obtain ⟨view, told⟩ := imports i v hv ht
    refine ⟨t.imports i _ view ?_, fun hg => t.pending _ 2 (told hg)⟩
    split
    · exact ht
    · exact ht

theorem reform_reformed (h : s.rc.reforming = true) : s.viewsReformed s.reform := by
  rw [reform_flagged h]
  exact (viewReformation_reformed s).trails (.quiet (keeps_onRc _ _) (by decide))

theorem rosterCorrupt_iff (f : RosterFields) (length : Nat) (good : Bool) :
    rosterCorrupt ⟨f, length, good⟩ = true ↔ good = false ∨ length ≠ 17 := by
  unfold rosterCorrupt frameCorrupt
  rw [Bool.or_eq_true, Bool.not_eq_true', decide_eq_true_iff]
  exact or_congr Iff.rfl (not_congr ⟨fun h => (Option.some.inj h).symm, fun h => congrArg some h.symm⟩)

theorem rosterArrives_follower (hm : s.isMaster = false) (f : Inbound RosterFields) :
    s.rosterArrives f = (s.takeRoster f).passWhole ⟨.roster f.fields, f.length, f.crcGood⟩ :=
  if_neg (by rw [hm]; exact Bool.false_ne_true)

/-- A frame on which the hub does not act only passes. -/
theorem passes_only (s : State) (t : HubTime) (f : Frame) :
    s.frame (markDirty s ((s.advance t).passWhole f)) t [.rc]
      ∧ s.rc.passedOn (markDirty s ((s.advance t).passWhole f)).rc :=
  ⟨frame_finish (keeps_passWhole _ f), passWhole_rc (s.advance t) f⟩

end Sys2Proof.Machine

open Sys2Proof Sys2Proof.Machine

/-- Settles O7: the roster that fits is held and the re-formation applied, every frame passes as it came, and the timer drops the
hub to DOWN. -/
theorem followerTakesTheRoster : Obligations.FollowerTakesTheRoster := by
  intro s t f
  refine ⟨fun hm => ?intact, fun length good hm bad => ?corrupt, ?timer⟩
  case intact =>
    have act := rosterArrives_follower (s := s.advance t) hm ⟨f, 17, true⟩
    have intact : rosterCorrupt ⟨f, 17, true⟩ = false :=
      Bool.eq_false_iff.2 fun h => by
        rcases (rosterCorrupt_iff f 17 true).1 h with e | e
        · cases e
        · exact e rfl
    refine ⟨markDirty s ((s.advance t).rosterArrives ⟨f, 17, true⟩), rfl, ?_⟩
    by_cases fits : s.rc.ringState = .addressed ∧ s.rc.rosterHeld = false ∧ s.rc.joinedCensus = some (f.number, f.stamp)
    · have take : (s.advance t).takeRoster ⟨f, 17, true⟩ = (s.advance t).holdRoster f := if_pos ⟨intact, fits⟩
      rw [act, take, if_pos fits]
      have rc := holdRoster_rc (s.advance t) f
      have held := keeps_holdRoster (s.advance t) f
      have passed := keeps_passWhole ((s.advance t).holdRoster f) ⟨.roster f, 17, true⟩
      have ring : ({ s.rc with
          rosterHeld := true
          hubCount := some f.hubCount
          period := some f.period
          dpub := some f.dpub
          lastCycle := none
          reforming := false } : RC).passedOn (((s.advance t).holdRoster f).passWhole ⟨.roster f, 17, true⟩).rc := by
        have h := passWhole_rc ((s.advance t).holdRoster f) ⟨.roster f, 17, true⟩
        rw [rc] at h
        exact h
      have fibre := passWhole_fibre (s := s) (t := t) (f := ⟨.roster f, 17, true⟩) held.1
        (by rw [rc]; exact ⟨rfl, rfl, rfl, rfl⟩)
      have keep := held.trans (passed.mono (by decide))
      generalize hx : ((s.advance t).holdRoster f).passWhole ⟨.roster f, 17, true⟩ = x at *
      refine ⟨⟨congrArg RC.rosterHeld ring, congrArg RC.hubCount ring, congrArg RC.period ring, congrArg RC.dpub ring,
        congrArg RC.lastCycle ring, (congrArg RC.ringState ring).trans fits.1, (congrArg RC.hubAddress ring).trans rfl,
        congrArg RC.reforming ring, keep.2.2.2 .su (by decide), keep.2.2.2 .se (by decide), keep.2.2.2 .im (by decide),
        keep.2.2.2 .is (by decide), (passed.2.2.2 .tu (by decide)).trans (holdRoster_tu _ f), ?_⟩, ?_⟩
      · cases flag : s.rc.reforming with
        | true =>
          have h : (s.advance t).viewsReformed ((s.advance t).holdRoster f) := reform_reformed (s := (s.advance t).rosterTaken f) flag
          exact (h.trails (.quiet passed (by decide))).trails (.markDirty s x)
        | false =>
          have unformed : (s.advance t).holdRoster f = (s.advance t).rosterTaken f :=
            reform_unflagged (s := (s.advance t).rosterTaken f) flag
          have quiet := (keeps_rosterTaken (s.advance t) f).trans (unformed ▸ passed.mono (by decide))
          have vu : x.vu = s.vu := quiet.2.2.2 .vu (by decide)
          exact ⟨vu ▸ kept_markDirty s x, quiet.2.2.2 .cp (by decide)⟩
      · split
        next new => exact fun free left => fibre.1 new free (show 17 ≤ 1049 by decide) (Nat.le_of_eq left)
        next known => exact fibre.2 known
    · have take : (s.advance t).takeRoster ⟨f, 17, true⟩ = s.advance t := if_neg fun h => fits h.2
      obtain ⟨frame, rc⟩ := passes_only s t ⟨.roster f, 17, true⟩
      have fibre := passWhole_fibre (s := s) (f := ⟨.roster f, 17, true⟩) (x := s.advance t) rfl ⟨rfl, rfl, rfl, rfl⟩
      rw [act, take, if_neg fits]
      refine ⟨⟨frame, rc⟩, ?_⟩
      split
      next new => exact fun free left => fibre.1 new free (show 17 ≤ 1049 by decide) (Nat.le_of_eq left)
      next known => exact fibre.2 known
  case corrupt =>
    have act := rosterArrives_follower (s := s.advance t) hm ⟨f, length, good⟩
    have take : (s.advance t).takeRoster ⟨f, length, good⟩ = s.advance t := if_neg fun h => by
      rw [(rosterCorrupt_iff f length good).2 bad] at h
      exact Bool.noConfusion h.1
    obtain ⟨frame, rc⟩ := passes_only s t ⟨.roster f, length, good⟩
    refine ⟨markDirty s ((s.advance t).rosterArrives ⟨f, length, good⟩), rfl, ?_⟩
    rw [act, take]
    have fibre := passWhole_fibre (s := s) (f := ⟨.roster f, length, good⟩) (x := s.advance t) rfl ⟨rfl, rfl, rfl, rfl⟩
    refine ⟨frame, rc, ?_⟩
    split
    next new => exact fibre.1 new
    next known => exact fibre.2 known
  case timer =>
    refine ⟨markDirty s ((s.advance t).rosterExpiry), rfl, ?_⟩
    have idle : ∀ h : ¬ timerDue s.rc.rosterTimer t = true, s.frame (markDirty s (s.advance t).rosterExpiry) t [] := fun h => by
      have e : (s.advance t).rosterExpiry = s.advance t := if_neg h
      rw [e]
      exact finish_idle s t
    cases hx : s.rc.rosterTimer with
    | none => exact idle (by rw [hx]; exact Bool.false_ne_true)
    | some x =>
      show if _ then _ else _
      split
      next due =>
        have e : (s.advance t).rosterExpiry = ((s.advance t).onRc (fun r => { r with rosterTimer := none })).enterDown :=
          if_pos (show timerDue s.rc.rosterTimer t = true by rw [hx]; exact due)
        have k := keeps_enterDown ((s.advance t).onRc (fun r => { r with rosterTimer := none }))
        have rc := enterDown_rc ((s.advance t).onRc (fun r => { r with rosterTimer := none }))
        have tu := enterDown_tu ((s.advance t).onRc (fun r => { r with rosterTimer := none }))
        rw [e]
        generalize ((s.advance t).onRc (fun r => { r with rosterTimer := none })).enterDown = x at *
        rw [markDirty_rc, markDirty_tu, rc, tu]
        exact ⟨rfl, rfl, rfl, rfl, rfl, rfl, rfl, rfl, rfl, rfl, k.2.2.2 .se (by decide), k.2.2.2 .im (by decide), rfl⟩
      next wait => exact idle (by rw [hx]; exact wait)

end

section
/-! SUPPORT. A follower that joins a census, from every ring state. -/

namespace Sys2Proof.Machine

variable {s a b x : State} {t : HubTime}

/-! ### The entry to ADDRESSED or DOWN -/

/-- A follower that takes an address, its history still held. -/
noncomputable def State.addressTaken (s : State) (n : Nat) (f : CensusFields) : State :=
  (s.onRc (fun r =>
    { r.dropRoster with
      hubAddress := some n
      joinedCensus := some (f.number, f.stamp)
      rosterTimer := some (later s.hubTime 2500000)
      deadline := none })).setRing .addressed

/-- The Ring Controller of a follower that has joined a census. -/
noncomputable def RC.joined (r : RC) (now : HubTime) (f : CensusFields) : RC :=
  if f.overflow = false ∧ f.count ≤ 30 then
    { r.dropRoster with
      hubAddress := some (f.count + 1)
      joinedCensus := some (f.number, f.stamp)
      rosterTimer := some (later now 2500000)
      deadline := none
      ringState := .addressed }
  else { r.dropRoster with hubAddress := none, deadline := none, ringState := .down }

/-- What a census that a follower joins leaves of the other blocks. -/
structure Joined (s a : State) (f : CensusFields) : Prop where
  rc : a.rc = s.rc.joined s.hubTime f
  su : a.su = { s.su with tracker := s.su.tracker.emptied }
  tu : a.tu = { s.tu with carried := a.tu.carried, carriedMask := a.tu.carriedMask }
  keeps : Keeps [.rc, .cp, .tu, .su, .ru, .is] s a
  trails : Trails s a

theorem ring_trails (s : State) (f : RC → RC) (st : RingState) : Trails s ((s.onRc f).setRing st) :=
  (Trails.quiet (keeps_onRc s f) (by decide)).trans (setRing_trails _ _)

theorem leftRing_trails (s : State) : Trails s s.leftRing := (ring_trails s _ _).trans (.quiet (keeps_onTu _ _) (by decide))

theorem enterDown_trails (s : State) : Trails s s.enterDown := (leftRing_trails s).trans (emptyHistory_trails s.leftRing)

theorem enterDown_su (s : State) : s.enterDown.su = { s.su with tracker := s.su.tracker.emptied } :=
  (emptyHistory_su s.leftRing).trans
    (congrArg (fun u : SU => { u with tracker := u.tracker.emptied }) ((keeps_leftRing s).2.2.2 .su (by decide)))

theorem joinCensus_joined (s : State) (f : CensusFields) : Joined s (s.joinCensus f) f := by
  by_cases h : f.overflow = false ∧ f.count ≤ 30
  · have e : s.joinCensus f = (s.addressTaken (f.count + 1) f).emptyHistory := if_pos h
    have k : Keeps [.rc, .cp] s (s.addressTaken (f.count + 1) f) := keeps_ring s _ _
    have emptied := keeps_emptyHistory (s.addressTaken (f.count + 1) f)
    rw [e]
    refine ⟨?_, ?_, ?_, (k.mono (by decide)).trans (emptied.mono (by decide)), (ring_trails s _ _).trans (emptyHistory_trails _)⟩
    · exact (emptied.2.2.2 .rc (by decide)).trans ((setRing_rc _ _).trans (if_pos h).symm)
    · exact (emptyHistory_su _).trans
        (congrArg (fun u : SU => { u with tracker := u.tracker.emptied }) (k.2.2.2 .su (by decide)))
    · rw [show (s.addressTaken (f.count + 1) f).emptyHistory.tu = s.tu from
        (emptied.2.2.2 .tu (by decide)).trans (k.2.2.2 .tu (by decide))]
  · have e : s.joinCensus f = s.enterDown := if_neg h
    rw [e]
    refine ⟨(enterDown_rc s).trans (if_neg h).symm, enterDown_su s, by rw [enterDown_tu], keeps_enterDown s, enterDown_trails s⟩

/-- The roster and the deadline are dropped with either answer to a census. -/
structure RC.Unrostered (r : RC) : Prop where
  held : r.rosterHeld = false
  count : r.hubCount = none
  last : r.lastCycle = none
  deadline : r.deadline = none

theorem joined_fields (r : RC) (now : HubTime) (f : CensusFields) : (r.joined now f).Unrostered := by
  unfold RC.joined
  split
  · exact ⟨rfl, rfl, rfl, rfl⟩
  · exact ⟨rfl, rfl, rfl, rfl⟩

theorem joined_takes (r : RC) (now : HubTime) (f : CensusFields) :
    if f.overflow = false ∧ f.count ≤ 30 then
      (r.joined now f).ringState = .addressed ∧ (r.joined now f).hubAddress = some (f.count + 1)
        ∧ (r.joined now f).joinedCensus = some (f.number, f.stamp) ∧ (r.joined now f).rosterTimer = some (later now 2500000)
    else (r.joined now f).ringState = .down ∧ (r.joined now f).hubAddress = none := by
  unfold RC.joined
  split
  · exact ⟨rfl, rfl, rfl, rfl⟩
  · exact ⟨rfl, rfl⟩

/-- The re-forming flag is set and the own-frame queues are empty. -/
structure RC.Emptied (r : RC) : Prop where
  reforming : r.reforming = true
  control : r.controlQueue = []
  view : r.viewQueue = []
  image : r.imagePending = none

theorem joined_emptied {r : RC} (h : r.Emptied) (now : HubTime) (f : CensusFields) : (r.joined now f).Emptied := by
  unfold RC.joined
  split
  · exact ⟨h.reforming, h.control, h.view, h.image⟩
  · exact ⟨h.reforming, h.control, h.view, h.image⟩

theorem joined_fibre (r : RC) (now : HubTime) (f : CensusFields) : r.SameFibre (r.joined now f) := by
  unfold RC.joined
  split
  · exact ⟨rfl, rfl, rfl, rfl⟩
  · exact ⟨rfl, rfl, rfl, rfl⟩

/-- The loss of the ring is taken, whatever the carried class is after it. -/
theorem State.ringLostTaken.carried (h : s.ringLostTaken a) (se : b.se = a.se)
    (tu : b.tu = { a.tu with carried := b.tu.carried, carriedMask := b.tu.carriedMask }) : s.ringLostTaken b := by
  have slot : ∀ i, b.slot i = a.slot i := fun i => by rw [State.slot, se]; rfl
  have state : b.tu.state = a.tu.state := by rw [tu]
  have causes : b.tu.causes = a.tu.causes := by rw [tu]
  have records : b.tu.records = a.tu.records := by rw [tu]
  have count : b.tu.recordCount = a.tu.recordCount := by rw [tu]
  have current : b.tu.current = a.tu.current := by rw [tu]
  unfold State.ringLostTaken State.tripOpened at h ⊢
  rw [state, causes, records, count, current]
  simp only [slot]
  exact h

/-! ### The frame that passes -/

/-- An intact census as it goes on. -/
noncomputable def censusPassed (f : CensusFields) : CensusFields :=
  if f.overflow then f else if f.count ≤ 30 then { f with count := f.count + 1 } else { f with overflow := true }

theorem leaving_census (s : State) (f : CensusFields) (comp : Nat) :
    s.leaving ⟨.census f, 13, true⟩ comp 0 = ⟨.census (censusPassed f), 13, true⟩ := by
  refine congrArg (fun b => (⟨b, 13, true⟩ : Frame)) ?_
  show (if true = true ∧ 13 = 13 ∧ f.overflow = false then
    FrameBody.census (if f.count ≤ 30 then { f with count := f.count + 1 } else { f with overflow := true }) else .census f) = _
  unfold censusPassed
  cases f.overflow
  · rfl
  · rfl

theorem leaving_bad {good : Bool} {length : Nat} (h : good = false ∨ length ≠ 13) (s : State) (f : CensusFields) (comp : Nat) :
    s.leaving ⟨.census f, length, good⟩ comp 0 = ⟨.census f, length, good⟩ := by
  have bad : ¬ (good = true ∧ length = 13 ∧ f.overflow = false) := fun c => by
    rcases h with e | e
    · rw [e] at c; exact Bool.noConfusion c.1
    · exact e c.2.1
  unfold State.leaving
  exact congrArg (fun b => (⟨b, length, good⟩ : Frame)) (if_neg bad)

theorem censusCorrupt_iff (f : CensusFields) (length : Nat) (good : Bool) :
    censusCorrupt ⟨f, length, good⟩ = true ↔ good = false ∨ length ≠ 13 := by
  unfold censusCorrupt frameCorrupt
  rw [Bool.or_eq_true, Bool.not_eq_true', decide_eq_true_iff]
  exact or_congr Iff.rfl (not_congr ⟨fun h => (Option.some.inj h).symm, fun h => congrArg some h.symm⟩)

theorem censusArrives_follower (hm : s.isMaster = false) (f : Inbound CensusFields) :
    s.censusArrives f = (s.takeCensus f).passWhole ⟨.census f.fields, f.length, f.crcGood⟩ :=
  if_neg (by rw [hm]; exact Bool.false_ne_true)

/-- An intact census is joined by the hub as the loss of the ring, where it had one, leaves it. -/
theorem takeCensus_intact (s : State) (f : CensusFields) :
    s.takeCensus ⟨f, 13, true⟩ = (if s.running then s.loseRing else s).joinCensus f := by
  have intact : censusCorrupt ⟨f, 13, true⟩ = false := Bool.eq_false_iff.2 fun h => by
    rcases (censusCorrupt_iff f 13 true).1 h with e | e
    · cases e
    · exact e rfl
  unfold State.takeCensus
  rw [intact]
  cases s.running
  · rfl
  · rfl

/-- A RUNNING follower has lost the ring before it joins. -/
structure LostFirst (s b : State) : Prop where
  running : s.rc.ringState = .running → RingGone s b ∧ b.rc.Emptied
  else_same : s.rc.ringState ≠ .running → b = s
  fibre : s.rc.SameFibre b.rc
  time : b.hubTime = s.hubTime

theorem lostFirst (hm : s.isMaster = false) : LostFirst s (if s.running then s.loseRing else s) := by
  by_cases h : s.rc.ringState = .running
  · have e : (if s.running then s.loseRing else s) = s.loseRing := if_pos (decide_eq_true h)
    rw [e]
    exact ⟨fun _ => ⟨loseRing_gone s, by rw [loseRing_rc hm]; exact ⟨rfl, rfl, rfl, rfl⟩⟩, fun c => absurd h c, by rw [loseRing_rc hm]; exact ⟨rfl, rfl, rfl, rfl⟩,
      (steady_loseRing s (by rw [h]; exact RingState.noConfusion)).sound.time⟩
  · have e : (if s.running then s.loseRing else s) = s := if_neg fun c => h (of_decide_eq_true c)
    rw [e]
    exact ⟨fun c => absurd c h, fun _ => rfl, ⟨rfl, rfl, rfl, rfl⟩, rfl⟩

end Sys2Proof.Machine

open Sys2Proof Sys2Proof.Machine

/-- Settles O5: the ring is lost where it ran, the census joined, and the frame passes with the count one up. -/
theorem followerTakesAnAddress : Obligations.FollowerTakesAnAddress := by
  intro s t f hm
  refine ⟨?intact, fun length good bad => ?corrupt, fun free left => ?forward⟩
  case intact =>
    have first := lostFirst (s := s.advance t) hm
    have act : (s.advance t).censusArrives ⟨f, 13, true⟩ =
        ((if (s.advance t).running then (s.advance t).loseRing else s.advance t).joinCensus f).passWhole ⟨.census f, 13, true⟩ :=
      (censusArrives_follower (s := s.advance t) hm _).trans (congrArg (fun a => State.passWhole a _) (takeCensus_intact _ f))
    refine ⟨markDirty s ((s.advance t).censusArrives ⟨f, 13, true⟩), rfl, ?_⟩
    rw [act]
    generalize (if (s.advance t).running then (s.advance t).loseRing else s.advance t) = b at first ⊢
    have joined := joinCensus_joined b f
    have same : (s.advance t).rc.SameFibre (b.joinCensus f).rc := by
      rw [joined.rc]
      have h := joined_fibre b.rc b.hubTime f
      exact ⟨h.ringOut.trans first.fibre.ringOut, h.outLeft.trans first.fibre.outLeft, h.transit.trans first.fibre.transit,
        h.inbound.trans first.fibre.inbound⟩
    have fibre := passWhole_fibre (f := ⟨.census f, 13, true⟩) (joined.keeps.1.trans first.time) same
    rw [leaving_census] at fibre
    have passed := keeps_passWhole (b.joinCensus f) ⟨.census f, 13, true⟩
    have ring := passWhole_rc (b.joinCensus f) ⟨.census f, 13, true⟩
    rw [joined.rc] at ring
    generalize (b.joinCensus f).passWhole ⟨.census f, 13, true⟩ = x at passed ring fibre ⊢
    have su : x.su = { b.su with tracker := b.su.tracker.emptied } := (passed.2.2.2 .su (by decide)).trans joined.su
    have tu : x.tu = (b.joinCensus f).tu := passed.2.2.2 .tu (by decide)
    have trails := joined.trails.trans (.quiet passed (by decide))
    have keeps := joined.keeps.trans (passed.mono (by decide))
    have out : if s.rc.arrivalAt (t - 26) = none then
        s.rc.transit = [] → s.rc.outLeft - (t - s.hubTime).toNat ≤ 6 →
          x.rc.ringOut = some ⟨⟨.census (censusPassed f), 13, true⟩, later (t - 26) 32⟩ ∧ x.rc.outLeft = 32
        else x.rc.ringOut = s.rc.ringOut ∧ x.rc.transit = s.rc.transit := by
      split
      next new => exact fun free left => fibre.1 new free (show 13 ≤ 1049 by decide) left
      next known => exact fibre.2 known
    have fields := joined_fields b.rc b.hubTime f
    refine ⟨?_, (congrArg RC.rosterHeld ring).trans fields.held, (congrArg RC.hubCount ring).trans fields.count,
      (congrArg RC.lastCycle ring).trans fields.last, by rw [markDirty_su, su]; rfl, by rw [markDirty_su, su]; rfl,
      (congrArg RC.deadline ring).trans fields.deadline, ?_, out⟩
    · have takes := joined_takes b.rc b.hubTime f
      have state : x.rc.ringState = (b.rc.joined b.hubTime f).ringState := (congrArg RC.ringState ring).trans rfl
      have address : x.rc.hubAddress = (b.rc.joined b.hubTime f).hubAddress := (congrArg RC.hubAddress ring).trans rfl
      have census : x.rc.joinedCensus = (b.rc.joined b.hubTime f).joinedCensus := (congrArg RC.joinedCensus ring).trans rfl
      have timer : x.rc.rosterTimer = (b.rc.joined b.hubTime f).rosterTimer := (congrArg RC.rosterTimer ring).trans rfl
      rw [← state, ← address, ← census, ← timer, show b.hubTime = t from first.time] at takes
      exact takes
    · have se : x.se = b.se := keeps.2.2.2 .se (by decide)
      split
      next run =>
        obtain ⟨gone, queues⟩ := first.running run
        have queues := joined_emptied queues b.hubTime f
        have trails := trails.trans (.markDirty s x)
        have slot : ∀ i, (markDirty s x).slot i = b.slot i := fun i => by rw [markDirty_slot, State.slot, se]; rfl
        refine ⟨gone.taken.carried se (tu ▸ joined.tu), (congrArg RC.reforming ring).trans queues.reforming,
          (congrArg RC.controlQueue ring).trans queues.control, (congrArg RC.viewQueue ring).trans queues.view,
          (congrArg RC.imagePending ring).trans queues.image, ?_, gone.mover.trails trails, gone.views.trails trails,
          fun i => ?_⟩
        · rw [markDirty_se, se]
          exact gone.sections.waiting
        · rw [slot, gone.sections.slots i]
      next still =>
        have same := first.else_same still
        subst same
        exact ⟨se, keeps.2.2.2 .im (by decide), by rw [markDirty_tu, tu, joined.tu]; rfl⟩
  case corrupt =>
    have act := censusArrives_follower (s := s.advance t) hm ⟨f, length, good⟩
    have take : (s.advance t).takeCensus ⟨f, length, good⟩ = s.advance t := if_pos ((censusCorrupt_iff f length good).2 bad)
    obtain ⟨frame, rc⟩ := passes_only s t ⟨.census f, length, good⟩
    have fibre := passWhole_fibre (s := s) (f := ⟨.census f, length, good⟩) (x := s.advance t) rfl ⟨rfl, rfl, rfl, rfl⟩
    rw [leaving_bad bad] at fibre
    refine ⟨markDirty s ((s.advance t).censusArrives ⟨f, length, good⟩), rfl, ?_⟩
    rw [act, take]
    refine ⟨frame, rc, ?_⟩
    split
    next new => exact fibre.1 new
    next known => exact fibre.2 known
  case forward =>
    have follower : ¬ (s.advance t).isMaster = true := fun h => by
      have : s.isMaster = true := h
      rw [hm] at this
      cases this
    have pass := frameForward_passed (s := s.advance t) (f := ⟨.census f, 13, true⟩) follower
    have out := passFrame_free (s := (s.advance t).noteArrival) (f := ⟨.census f, 13, true⟩) (b := 0) ⟨free, left⟩
    have start : ((s.advance t).noteArrival).hubTime - BitVec.ofNat 32 0 = t := BitVec.sub_zero t
    rw [start, cutAt_of_le (show 13 ≤ 1049 by decide)] at out
    simp only [leaving_census] at out
    refine ⟨markDirty s ((s.advance t).frameForward ⟨.census f, 13, true⟩), rfl, frame_finish ?_, ?_⟩
    · rw [pass]
      exact (keeps_onRc _ _).trans (keeps_passFrame _ _ _)
    · rw [markDirty_rc, pass, out]
      rfl

end

section
/-! SUPPORT. The census and the roster of the master, and the entry to CONFLICT. -/

namespace Sys2Proof.Machine

variable {s a b x : State} {t : HubTime}

/-! ### The census and the roster of the master -/

theorem censusExpiry_due {x : HubTime} (hm : s.isMaster = true) (hx : s.rc.censusTimer = some x) (due : isDue x s.hubTime = true)
    (forms : s.rc.ringState = .down ∨ (s.rc.ringState = .lost ∧ s.reformationHolds = true)) :
    s.censusExpiry = s.makeCensus.onRc (fun r => { r with censusTimer := some (later x 500000) }) := by
  unfold State.censusExpiry
  rw [hx]
  exact if_pos ⟨due, hm, forms⟩

theorem takeReturnedCensus_own {f : CensusFields} (hm : s.isMaster = true)
    (hr : s.rc.ringState = .down ∨ s.rc.ringState = .lost) (hf : s.rc.outstandingCensus = some (f.number, f.stamp)) :
    s.takeReturnedCensus ⟨f, 13, true⟩ = s.ownCensus f := by
  have good : censusCorrupt ⟨f, 13, true⟩ = false := rfl
  have formed : s.rc.ringState ≠ .conflict := by
    rcases hr with h | h
    · rw [h]; exact RingState.noConfusion
    · rw [h]; exact RingState.noConfusion
  unfold State.takeReturnedCensus
  rw [if_neg (by rw [hm]; exact Bool.noConfusion), if_neg (by rw [good]; exact Bool.false_ne_true), if_neg formed,
    if_neg (not_not.2 hf), if_pos hr]

/-- No census is outstanding any more. -/
noncomputable def State.censusBack (s : State) : State := s.onRc (fun r => { r with outstandingCensus := none })

/-- The roster that the master makes for its returned census. -/
noncomputable def State.rosterFor (s : State) (f : CensusFields) : RosterFields :=
  { number := f.number, stamp := f.stamp, hubCount := f.count + 1, period := s.straps.period, dpub := s.rc.dpub.getD 0 }

/-- The master with its roster due, the re-formation effects not yet applied. -/
noncomputable def State.rosterDue (s : State) (f : CensusFields) : State :=
  (s.onRc (fun r =>
    { r with
      hubCount := some (f.count + 1)
      tooMany := false
      ringFrameDue := some (.roster (s.rosterFor f))
      outstandingRoster := some (s.rosterFor f)
      returnedClass := .empty
      returnedMask := 0 })).setCarried .noClass 0

theorem keeps_rosterDue (s : State) (f : CensusFields) : Keeps [.rc, .tu] s (s.rosterDue f) :=
  ((keeps_onRc s _).mono (by decide)).trans ((keeps_onTu _ _).mono (by decide))

/-! ### The entry to CONFLICT -/

/-- A master that enters CONFLICT, RING LOST not yet raised. -/
noncomputable def State.conflicted (s : State) : State :=
  (s.ringLoss.onRc (fun r =>
    { r with
      reforming := r.reforming || decide (s.rc.ringState = .running) || decide (s.rc.ringState = .lost)
      censusTimer := none
      deadline := none
      nextOrigination := none
      ringFrameDue := none
      transit := [] })).setRing .conflict

theorem enterConflict_eq (s : State) :
    s.enterConflict = if s.rc.ringState = .running then s.conflicted.raise ringLostPair else s.conflicted := rfl

theorem conflicted_links (s : State) : LinksLost s s.conflicted := by
  have h := (ringLoss_links s).trails (Trails.quiet (keeps_onRc s.ringLoss (fun r =>
    { r with
      reforming := r.reforming || decide (s.rc.ringState = .running) || decide (s.rc.ringState = .lost)
      censusTimer := none
      deadline := none
      nextOrigination := none
      ringFrameDue := none
      transit := [] })) (by decide)) rfl rfl rfl
  exact h.trails (setRing_trails _ .conflict) (setRing_se _ _) (setRing_su _ _) (setRing_tu _ _)

/-- What CONFLICT leaves in the Ring Controller. -/
structure RC.Conflicting (r : RC) : Prop where
  ring : r.ringState = .conflict
  census : r.censusTimer = none
  origination : r.nextOrigination = none
  control : r.controlQueue = []
  view : r.viewQueue = []
  image : r.imagePending = none
  transit : r.transit = []

theorem conflicted_rc (s : State) : s.conflicted.rc.Conflicting := by
  unfold State.conflicted
  rw [setRing_rc, State.onRc_rc, ringLoss_rc]
  exact ⟨rfl, rfl, rfl, rfl, rfl, rfl, rfl⟩

theorem RingKept.rc_conflict (h : RingKept s a) (hr : s.rc.ringState = .conflict) : a.rc = s.rc := by
  rcases h.rc with ⟨e, -⟩ | ⟨-, e⟩
  · exact e
  · rw [e]
    exact if_neg fun c => by rw [hr] at c; exact RingState.noConfusion c.2

/-- A foreign census or roster at the master. -/
structure InConflict (s a : State) : Prop where
  rc : a.rc.Conflicting
  taken : s.rc.ringState = .running → s.ringLostTaken a
  sections : SectionsLost s a
  mover : s.moverLost a
  views : s.viewsLost a

theorem enterConflict_lost (s : State) : InConflict s s.enterConflict := by
  have links := conflicted_links s
  have rc := conflicted_rc s
  rw [enterConflict_eq]
  split
  next run =>
    have gone := links.raised
    exact ⟨by rw [(ringKept_raise s.conflicted ringLostPair).rc_conflict rc.ring]; exact rc, fun _ => gone.taken, gone.sections,
      gone.mover, gone.views⟩
  next still => exact ⟨rc, fun c => absurd c still, links.sections, links.mover, links.views⟩

theorem InConflict.dirty (h : InConflict s a) (x : State) : InConflict s (markDirty x a) where
  rc := h.rc
  taken r := (h.taken r).carried (markDirty_se _ _) rfl
  sections := h.sections.of_se rfl (Trails.markDirty x a).responses
  mover := h.mover.trails (.markDirty x a)
  views := h.views.trails (.markDirty x a)

theorem takeReturnedCensus_foreign {f : CensusFields} (hm : s.isMaster = true) (hr : s.rc.ringState ≠ .conflict)
    (hf : s.rc.outstandingCensus ≠ some (f.number, f.stamp)) : s.takeReturnedCensus ⟨f, 13, true⟩ = s.enterConflict := by
  have good : censusCorrupt ⟨f, 13, true⟩ = false := rfl
  unfold State.takeReturnedCensus
  rw [if_neg (by rw [hm]; exact Bool.noConfusion), if_neg (by rw [good]; exact Bool.false_ne_true), if_neg hr, if_pos hf]

theorem takeReturnedRoster_foreign {f : RosterFields} (hm : s.isMaster = true) (hr : s.rc.ringState ≠ .conflict)
    (hf : s.rc.outstandingRoster ≠ some f) : s.takeReturnedRoster ⟨f, 17, true⟩ = s.enterConflict := by
  have good : rosterCorrupt ⟨f, 17, true⟩ = false := rfl
  unfold State.takeReturnedRoster
  rw [if_neg (by rw [hm]; exact Bool.noConfusion), if_neg (by rw [good]; exact Bool.false_ne_true), if_neg hr, if_pos hf]

theorem takeReturnedCensus_conflict {f : CensusFields} (hm : s.isMaster = true) (hr : s.rc.ringState = .conflict) :
    s.takeReturnedCensus ⟨f, 13, true⟩ = s := by
  have good : censusCorrupt ⟨f, 13, true⟩ = false := rfl
  unfold State.takeReturnedCensus
  rw [if_neg (by rw [hm]; exact Bool.noConfusion), if_neg (by rw [good]; exact Bool.false_ne_true), if_pos hr]

theorem takeReturnedRoster_conflict {f : RosterFields} (hm : s.isMaster = true) (hr : s.rc.ringState = .conflict) :
    s.takeReturnedRoster ⟨f, 17, true⟩ = s := by
  have good : rosterCorrupt ⟨f, 17, true⟩ = false := rfl
  unfold State.takeReturnedRoster
  rw [if_neg (by rw [hm]; exact Bool.noConfusion), if_neg (by rw [good]; exact Bool.false_ne_true), if_pos hr]

theorem takeReturnedCensus_corrupt {f : Inbound CensusFields} (hm : s.isMaster = true) (hc : censusCorrupt f = true) :
    s.takeReturnedCensus f = s.countCorrupt := by
  unfold State.takeReturnedCensus
  rw [if_neg (by rw [hm]; exact Bool.noConfusion), if_pos hc]

theorem takeReturnedRoster_corrupt {f : Inbound RosterFields} (hm : s.isMaster = true) (hc : rosterCorrupt f = true) :
    s.takeReturnedRoster f = s.countCorrupt := by
  unfold State.takeReturnedRoster
  rw [if_neg (by rw [hm]; exact Bool.noConfusion), if_pos hc]

end Sys2Proof.Machine

open Sys2Proof Sys2Proof.Machine

/-- Settles O4: the census that the timer makes due, and the master's own census that comes back. -/
theorem censusRound : Obligations.CensusRound := by
  refine ⟨fun s t x hm hx due forms => ?expiry, fun s t f d hm hr hf hd => ?back⟩
  case expiry =>
    have e := censusExpiry_due (s := s.advance t) hm hx due forms
    refine ⟨markDirty s (s.advance t).censusExpiry, rfl, frame_finish ?_, ?_⟩
    · rw [e]
      exact (keeps_onRc _ _).trans (keeps_onRc _ _)
    · rw [markDirty_rc, e]
      rfl
  case back =>
    have own := takeReturnedCensus_own (s := s.advance t) hm hr hf
    refine ⟨markDirty s ((s.advance t).takeReturnedCensus ⟨f, 13, true⟩), rfl, ?_⟩
    rw [own]
    by_cases many : f.overflow = true
    · have e : (s.advance t).ownCensus f =
          ((s.advance t).onRc (fun r => { r with outstandingCensus := none, tooMany := true })).notify .ring := if_pos many
      rw [e, if_pos many]
      refine ⟨rfl, rfl, rfl, rfl, rfl, rfl, rfl, rfl, rfl, fun p routed => ?_⟩
      have told := port_notify (s := (s.advance t).onRc (fun r => { r with outstandingCensus := none, tooMany := true })) .ring p
      exact congrArg Port.pending (told.trans (if_pos routed))
    · have e : (s.advance t).ownCensus f =
          ((s.advance t).censusBack.rosterDue f).reform := if_neg many
      have rc := reform_rc ((s.advance t).censusBack.rosterDue f)
      have back : Keeps [.rc] (s.advance t) (s.advance t).censusBack := keeps_onRc _ _
      have keeps := (back.mono (l' := [.rc, .tu, .vu, .cp]) (by decide)).trans
        (((keeps_rosterDue _ f).mono (by decide)).trans ((keeps_reform _).mono (by decide)))
      have tu := (keeps_reform ((s.advance t).censusBack.rosterDue f)).2.2.2 .tu
        (by decide)
      have roster : (s.advance t).censusBack.rosterFor f =
          ⟨f.number, f.stamp, f.count + 1, s.straps.period, d⟩ := by
        unfold State.rosterFor
        rw [show (s.advance t).censusBack.rc.dpub = some d from hd]
        rfl
      have kept : s.rc.reforming = false → ((s.advance t).censusBack.rosterDue f).reform.cp = s.cp := fun h => by
        rw [reform_unflagged (s := (s.advance t).censusBack.rosterDue f) h]
        rfl
      have reformed : s.rc.reforming = true → s.viewsReformed
          ((s.advance t).censusBack.rosterDue f).reform := fun h =>
        reform_reformed (s := (s.advance t).censusBack.rosterDue f) h
      rw [e, if_neg many]
      generalize ((s.advance t).censusBack.rosterDue f).reform = y at *
      have due : y.rc.ringFrameDue = some (.roster ⟨f.number, f.stamp, f.count + 1, s.straps.period, d⟩) :=
        (congrArg RC.ringFrameDue rc).trans (congrArg (fun r => some (RingFrameDue.roster r)) roster)
      have out : y.rc.outstandingRoster = some ⟨f.number, f.stamp, f.count + 1, s.straps.period, d⟩ :=
        (congrArg RC.outstandingRoster rc).trans (congrArg some roster)
      exact ⟨(congrArg RC.ringState rc).trans rfl, (congrArg RC.outstandingCensus rc).trans rfl, keeps.2.2.2 .su (by decide),
        keeps.2.2.2 .se (by decide), keeps.2.2.2 .is (by decide), keeps.2.2.2 .im (by decide),
        (congrArg RC.tooMany rc).trans rfl, (congrArg RC.hubCount rc).trans rfl, due, out,
        (congrArg RC.returnedClass rc).trans rfl, (congrArg RC.returnedMask rc).trans rfl, (congrArg RC.reforming rc).trans rfl,
        kept, (congrArg TU.carried tu).trans rfl, (congrArg TU.carriedMask tu).trans rfl,
        fun h => (reformed h).trails (.markDirty s y)⟩

/-- Settles O6: the entry to CONFLICT, and the frames that the master removes and counts. -/
theorem foreignCensusIsConflict : Obligations.ForeignCensusIsConflict := by
  intro s t hm
  refine ⟨fun c hr foreign => ?enter, fun f r kind length good => ⟨fun c hc => ?corrupt, fun hr c hc => ?conflict, ?unknown⟩⟩
  case enter =>
    have entered : exec c s = .next (markDirty s (s.advance t).enterConflict) := by
      rcases foreign with ⟨f, rfl, hf⟩ | ⟨f, rfl, hf⟩
      · exact congrArg (finish s) (takeReturnedCensus_foreign (s := s.advance t) hm hr hf)
      · exact congrArg (finish s) (takeReturnedRoster_foreign (s := s.advance t) hm hr hf)
    have lost := (enterConflict_lost (s.advance t)).dirty s
    refine ⟨_, entered, lost.rc.ring, lost.rc.census, lost.rc.origination, lost.rc.control, lost.rc.view, lost.rc.image,
      lost.rc.transit, lost.taken, lost.sections.waiting, lost.mover, lost.views, fun i => ?_⟩
    rw [lost.sections.slots i]
  case corrupt =>
    have counted : exec c s = .next (markDirty s (s.advance t).countCorrupt) := by
      rcases hc with ⟨rfl, bad⟩ | ⟨rfl, bad⟩
      · exact congrArg (finish s) (takeReturnedCensus_corrupt (s := s.advance t) hm ((censusCorrupt_iff f length good).2 bad))
      · exact congrArg (finish s) (takeReturnedRoster_corrupt (s := s.advance t) hm ((rosterCorrupt_iff r length good).2 bad))
    exact ⟨_, counted, frame_finish (keeps_onRc _ _), rfl⟩
  case conflict =>
    have still : exec c s = .next (markDirty s (s.advance t)) := by
      rcases List.mem_cons.1 hc with rfl | hc
      · exact congrArg (finish s) (takeReturnedCensus_conflict (s := s.advance t) hm hr)
      · cases List.mem_singleton.1 hc
        exact congrArg (finish s) (takeReturnedRoster_conflict (s := s.advance t) hm hr)
    exact ⟨_, still, finish_idle s t⟩
  case unknown =>
    have removed := frameForward_removed (s := s.advance t) (f := ⟨.unknown kind, length, good⟩) hm
    refine ⟨markDirty s ((s.advance t).frameForward ⟨.unknown kind, length, good⟩), rfl, frame_finish ?_, ?_⟩
    · rw [removed]
      exact (keeps_onRc _ _).trans (keeps_onRc _ _)
    · rw [markDirty_rc, removed]
      rfl

end

section
/-! SUPPORT. A command that no view watches, a delivery at a RUNNING hub, and the places of the control queue. -/

namespace Sys2Proof.Machine

variable {s a b x : State} {t : HubTime}

theorem onRc_same {f : RC → RC} (h : f s.rc = s.rc) : s.onRc f = s := by unfold State.onRc; rw [h]

theorem onSe_same {f : SE → SE} (h : f s.se = s.se) : s.onSe f = s := by unfold State.onSe; rw [h]

theorem onIm_same {f : IM → IM} (h : f s.im = s.im) : s.onIm f = s := by unfold State.onIm; rw [h]

theorem onVu_same {f : VU → VU} (h : f s.vu = s.vu) : s.onVu f = s := by unfold State.onVu; rw [h]

/-! ### Commands that no view watches -/

theorem content_quiet (straps : a.straps = s.straps) (su : a.su = s.su) (se : a.se = s.se) (ru : a.ru = s.ru) (tu : a.tu = s.tu)
    (is : a.is = s.is) (k : ViewKind) : a.content k = s.content k := by
  obtain ⟨_, _, _, _, _, _, _, _, _, _, _, _, _⟩ := s
  obtain ⟨_, _, _, _, _, _, _, _, _, _, _, _, _⟩ := a
  cases straps
  cases su
  cases se
  cases ru
  cases tu
  cases is
  cases k <;> rfl

theorem Table.map_option_same {α : Type} {n : Nat} (t : Table n (Option α)) {f : α → α} (h : ∀ x, f x = x) :
    t.map (Option.map f) = t := by
  rw [show f = id from funext h, Option.map_id]
  exact Table.ext_get fun i => Table.get_map _ _ _

/-- Work on no block that a view watches makes no view or export DIRTY. -/
theorem markDirty_same (straps : a.straps = s.straps) (su : a.su = s.su) (se : a.se = s.se) (ru : a.ru = s.ru)
    (tu : a.tu = s.tu) (is : a.is = s.is) : markDirty s a = a := by
  have still : ∀ k, contentChanged s a k = false := fun k =>
    decide_eq_false (not_not.2 (content_quiet straps su se ru tu is k).symm)
  have views : ∀ v, View.afterChange s a v = v := fun v => if_neg fun c => by
    rw [still] at c
    exact Bool.false_ne_true c.2.2
  have exports : ∀ e, ExportEntry.afterChange s a e = e := fun e => if_neg fun c => by
    rw [still] at c
    exact Bool.false_ne_true c.2
  unfold markDirty
  refine onVu_same ?_
  rw [Table.map_option_same _ views, Table.map_option_same _ exports]

/-- No block of the list is watched by a view. -/
abbrev unwatched (l : List Blk) : Prop := Blk.su ∉ l ∧ Blk.se ∉ l ∧ Blk.ru ∉ l ∧ Blk.tu ∉ l ∧ Blk.is ∉ l

theorem markDirty_quiet {l : List Blk} (k : Keeps l (s.advance t) a) (hl : unwatched l) : markDirty s a = a := by
  obtain ⟨hsu, hse, hru, htu, his⟩ := hl
  exact markDirty_same k.2.1 (k.2.2.2 .su hsu) (k.2.2.2 .se hse) (k.2.2.2 .ru hru) (k.2.2.2 .tu htu) (k.2.2.2 .is his)

/-! ### Deliveries -/

theorem deliverFrom_running (hr : s.rc.ringState = .running) {src : Nat} (hs : s.goodSource src = true) (n : Nat)
    (act : State → State) : s.deliverFrom src n act = act s := by
  have run : s.running = true := decide_eq_true hr
  have seen : s.examines (9 + n) = true := by
    unfold State.examines
    rw [run]
    rfl
  unfold State.deliverFrom State.whenRunning
  rw [if_neg (by rw [seen]; exact Bool.noConfusion), if_pos hs, if_pos run]

/-! ### The control queue -/

theorem dropStored_onRc (b : Block) (f : RC → RC) (s : State) : (s.onRc f).dropStored b = (s.dropStored b).onRc f := by
  cases b <;> rfl

theorem dropStored_nil {b : Block} (h : s.storeOf b = []) : s.dropStored b = s := by
  have tail {α : Type} {l : List α} (h : l = []) : l.tail = l := by rw [h]; rfl
  cases b with
  | sectionEngine => exact onSe_same (f := fun e => { e with replies := e.replies.tail }) (congrArg (fun l => { s.se with replies := l }) (tail h))
  | imageMover =>
    exact onIm_same (f := fun m => { m with store := m.store.tail })
      (congrArg (fun l => { s.im with store := l }) (tail (List.map_eq_nil_iff.1 h)))
  | viewUnit =>
    exact onVu_same (f := fun u => { u with controlList := u.controlList.tail })
      (congrArg (fun l => { s.vu with controlList := l }) (tail h))

theorem storeOf_dropStored (s : State) (b : Block) : (s.dropStored b).storeOf b = (s.storeOf b).tail := by
  cases b with
  | sectionEngine => rfl
  | imageMover => exact List.map_tail
  | viewUnit => rfl

/-- The oldest `n` frames of a block's store have left it. -/
noncomputable def State.dropMany (s : State) (b : Block) : Nat → State
  | 0 => s
  | n + 1 => (s.dropStored b).dropMany b n

theorem dropMany_nil {b : Block} (h : s.storeOf b = []) (n : Nat) : s.dropMany b n = s := by
  induction n with
  | zero => rfl
  | succ n ih => rw [State.dropMany, dropStored_nil h, ih]

theorem dropMany_onRc (b : Block) (f : RC → RC) (n : Nat) (s : State) : (s.onRc f).dropMany b n = (s.dropMany b n).onRc f := by
  induction n generalizing s with
  | zero => rfl
  | succ n ih => rw [State.dropMany, dropStored_onRc, ih]; rfl

theorem storeOf_onRc (b : Block) (f : RC → RC) (s : State) : (s.onRc f).storeOf b = s.storeOf b := by cases b <;> rfl

theorem dropStored_rc (b : Block) (s : State) : (s.dropStored b).rc = s.rc := by cases b <;> rfl

/-- The control queue has taken the frames of a block's store that it has places for, oldest first; a block that keeps a frame
waits. -/
noncomputable def RC.filled (b : Block) (l : List OwnFrame) (k : Nat) (r : RC) : RC := { r with
  controlQueue := r.controlQueue ++ l.take k
  controlWaiters := if l.length ≤ k ∨ r.controlWaiters.contains b = true then r.controlWaiters else r.controlWaiters ++ [b] }

theorem filled_nil (b : Block) (k : Nat) (r : RC) : r.filled b [] k = r := by
  unfold RC.filled
  rw [List.take_nil, List.append_nil, if_pos (.inl (Nat.zero_le k))]

theorem filled_cons (b : Block) (f : OwnFrame) (l : List OwnFrame) (k : Nat) (r : RC) :
    r.filled b (f :: l) (k + 1) = RC.filled b l k { r with controlQueue := r.controlQueue ++ [f] } := by
  unfold RC.filled
  simp only [List.take_succ_cons, List.append_assoc, List.singleton_append, List.length_cons, Nat.add_le_add_iff_right]

theorem offerStored_eq (b : Block) (l : List OwnFrame) (s : State) (h : s.storeOf b = l) : offerStored l.length b s =
    (s.dropMany b (8 - s.rc.controlQueue.length)).onRc (RC.filled b l (8 - s.rc.controlQueue.length)) := by
  induction l generalizing s with
  | nil =>
    rw [dropMany_nil h]
    exact (onRc_same (filled_nil _ _ _)).symm
  | cons f l ih =>
    rw [List.length_cons]
    unfold offerStored
    rw [h]
    dsimp only
    split
    next room =>
      obtain ⟨k, hk⟩ := Nat.exists_eq_add_one.mpr (Nat.sub_pos_of_lt room)
      have next := ih ((s.dropStored b).pushControl f) (by
        rw [State.pushControl, storeOf_onRc, storeOf_dropStored, h]; rfl)
      have left : 8 - ((s.dropStored b).pushControl f).rc.controlQueue.length = k := by
        show 8 - ((s.dropStored b).rc.controlQueue ++ [f]).length = k
        rw [dropStored_rc, List.length_append, List.length_singleton, Nat.sub_add_eq, hk, Nat.add_sub_cancel]
      rw [next, left, hk, State.pushControl, dropMany_onRc]
      show State.onRc ((s.dropStored b).dropMany b k) (fun r =>
        RC.filled b l k { r with controlQueue := r.controlQueue ++ [f] }) = _
      exact congrArg (State.onRc ((s.dropStored b).dropMany b k)) (funext fun r => (filled_cons b f l k r).symm)
    next full =>
      have none : 8 - s.rc.controlQueue.length = 0 := Nat.sub_eq_zero_of_le (Nat.le_of_not_lt full)
      rw [none]
      refine congrArg (State.onRc s) (funext fun r => ?_)
      unfold RC.filled
      rw [List.take_zero, List.append_nil]
      by_cases waits : r.controlWaiters.contains b = true
      · rw [if_pos waits, if_pos (.inr waits)]
      · rw [if_neg waits, if_neg (by rintro (c | c); exacts [absurd c (by simp), waits c])]

theorem offerControl_eq (s : State) (b : Block) : s.offerControl b =
    (s.dropMany b (8 - s.rc.controlQueue.length)).onRc (RC.filled b (s.storeOf b) (8 - s.rc.controlQueue.length)) :=
  offerStored_eq b _ s rfl

theorem dropMany_view (n : Nat) (s : State) :
    s.dropMany .viewUnit n = s.onVu (fun u => { u with controlList := u.controlList.drop n }) := by
  induction n generalizing s with
  | zero => rfl
  | succ n ih =>
    rw [State.dropMany, ih]
    exact congrArg (State.onVu s) (funext fun u => congrArg (fun l => { u with controlList := l }) List.drop_tail)

theorem dropMany_section (n : Nat) (s : State) :
    s.dropMany .sectionEngine n = s.onSe (fun e => { e with replies := e.replies.drop n }) := by
  induction n generalizing s with
  | zero => rfl
  | succ n ih =>
    rw [State.dropMany, ih]
    exact congrArg (State.onSe s) (funext fun e => congrArg (fun l => { e with replies := l }) List.drop_tail)

theorem dropMany_mover (n : Nat) (s : State) :
    s.dropMany .imageMover n = s.onIm (fun m => { m with store := m.store.drop n }) := by
  induction n generalizing s with
  | zero => rfl
  | succ n ih =>
    rw [State.dropMany, ih]
    exact congrArg (State.onIm s) (funext fun m => congrArg (fun l => { m with store := l }) List.drop_tail)

/-- A frame of the View Unit joins its control list and what the control queue has places for leaves it. -/
theorem makeControl_eq {f : OwnFrame} (room : s.vu.controlList.length < 16) : s.makeControl f =
    (s.onVu (fun u => { u with controlList := (s.vu.controlList ++ [f]).drop (8 - s.rc.controlQueue.length) })).onRc
      (RC.filled .viewUnit (s.vu.controlList ++ [f]) (8 - s.rc.controlQueue.length)) := by
  unfold State.makeControl
  rw [if_pos (show s.controlRoom = true from decide_eq_true room), offerControl_eq, dropMany_view]
  rfl

/-- With its control list empty and room in the control queue, the frame goes straight into the queue. -/
theorem makeControl_direct {f : OwnFrame} (empty : s.vu.controlList = []) (room : s.rc.controlQueue.length < 8) :
    s.makeControl f = s.onRc (fun r => { r with controlQueue := r.controlQueue ++ [f] }) := by
  rw [makeControl_eq (by rw [empty]; decide), empty, List.nil_append]
  obtain ⟨k, hk⟩ := Nat.exists_eq_add_one.mpr (Nat.sub_pos_of_lt room)
  rw [hk, List.drop_succ_cons, List.drop_nil, onVu_same (f := fun u => { u with controlList := [] }) (by rw [← empty])]
  exact congrArg (State.onRc s) (funext fun r => (filled_cons _ f [] k r).trans (filled_nil _ _ _))

end Sys2Proof.Machine
end

section
/-! SUPPORT. The imports of the View Unit. -/

namespace Sys2Proof.Machine

variable {s a : State} {t : HubTime} {src : Nat} {i : Fin 16} {v : View} {sub : BitVec 16}

theorem toFin_self {k : Nat} (i : Fin k) : toFin k i.val = some i := dif_pos i.isLt

theorem matchView_hit (hv : s.vu.views.get i = some v) (ht : v.target = some src) (hg : v.state ≠ .gone) (hs : v.sub = sub) :
    s.matchView src i.val sub = some (i, v) := by
  unfold State.matchView
  rw [toFin_self]
  dsimp only
  rw [hv]
  exact if_pos ⟨ht, hg, hs⟩

theorem matchView_miss (h : ∀ v ∈ s.vu.views.get i, v.target ≠ some src ∨ v.state = .gone ∨ v.sub ≠ sub) :
    s.matchView src i.val sub = none := by
  unfold State.matchView
  rw [toFin_self]
  dsimp only
  split
  next v hv =>
    refine if_neg fun ⟨ht, hg, hs⟩ => ?_
    rcases h v hv with c | c | c
    · exact c ht
    · exact hg c
    · exact c hs
  · rfl

theorem View.updated_eq (h : v.state ≠ .gone) (c : List Item) :
    v.updated c = if v.state = .clean ∧ v.received = some c then .clean else .dirty := by
  unfold View.updated
  cases e : v.state with
  | clean => exact if_congr ⟨fun h => ⟨rfl, h⟩, fun h => h.2⟩ rfl rfl
  | gone => exact absurd e h
  | initial => exact (if_neg fun c => nomatch c.1).symm
  | stale => exact (if_neg fun c => nomatch c.1).symm
  | dirty => exact (if_neg fun c => nomatch c.1).symm

theorem takeSubReply_hit (h : s.matchView src i.val sub = some (i, v)) (st : SubStatus) : s.takeSubReply src i.val sub st =
    match st with
    | .accept => s.putView i { v with stale := 0 }
    | .full | .badArgument => s.makeReady i { v with state := .gone }
    | .unlisted _ => s := by
  cases st <;> simp only [State.takeSubReply, h]

theorem takeSubReply_miss (h : s.matchView src i.val sub = none) (st : SubStatus) : s.takeSubReply src i.val sub st = s := by
  unfold State.takeSubReply
  rw [h]

/-- A view after a VIEW UPDATE that it matches. -/
noncomputable def View.afterUpdate (v : View) : Option (List Item) → View
  | none => { v with stale := 0 }
  | some c => { v with
      stale := 0, received := some c
      state := if v.state = .clean ∧ v.received = some c then .clean else .dirty }

theorem takeViewUpdate_hit (h : s.matchView src i.val sub = some (i, v)) (hg : v.state ≠ .gone) (content : Option (List Item)) :
    s.takeViewUpdate src i.val sub content = s.putView i (v.afterUpdate content) := by
  unfold State.takeViewUpdate
  rw [h]
  cases content with
  | none => rfl
  | some c =>
    dsimp only
    rw [View.updated_eq hg]
    rfl

theorem takeViewUpdate_miss (h : s.matchView src i.val sub = none) (content : Option (List Item)) (empty : s.vu.controlList = [])
    (room : s.rc.controlQueue.length < 8) : s.takeViewUpdate src i.val sub content =
      s.onRc (fun r => { r with controlQueue := r.controlQueue ++ [⟨src, .unsubscribe i.val sub⟩] }) := by
  unfold State.takeViewUpdate
  rw [h]
  dsimp only
  rw [if_neg (by rw [empty]; exact Bool.false_ne_true), makeControl_direct empty room]

theorem staleExpiry_due (hr : s.rc.ringState = .running) (hv : s.vu.views.get i = some v) (ht : v.target = some src)
    (hg : v.state ≠ .gone) (due : 10 ≤ v.stale) : s.staleExpiry i = if v.state = .stale then s.subscribeView i v src
      else (s.makeReady i { v with state := .stale, ready := true }).subscribeView i { v with state := .stale, ready := true } src := by
  unfold State.staleExpiry
  rw [hv]
  dsimp only
  rw [ht]
  exact if_pos ⟨decide_eq_true hr, hg, due⟩

theorem staleExpiry_early (hv : s.vu.views.get i = some v) (early : v.stale < 10) : s.staleExpiry i = s := by
  unfold State.staleExpiry
  rw [hv]
  dsimp only
  split
  · exact if_neg fun c => absurd c.2.2 (Nat.not_le.2 early)
  · rfl

theorem subscribeView_direct (empty : s.vu.controlList = []) (room : s.rc.controlQueue.length < 8) :
    s.subscribeView i v src = (s.onVu (fun u => { u with
        subCount := s.vu.subCount + 1, views := u.views.set i (some { v with sub := s.vu.subCount + 1, stale := 0 }) })).onRc
      (fun r => { r with controlQueue := r.controlQueue ++
        [⟨src, .subscribe i.val (s.vu.subCount + 1) v.kind.codes.1 v.kind.codes.2 v.rate.val⟩] }) :=
  makeControl_direct empty room

/-- A delivery at a RUNNING hub, from what its handling keeps. -/
theorem delivered {c : Instr} {n : Nat} {act : State → State} {l : List Blk}
    (he : exec c s = finish s ((s.advance t).deliverFrom src n act)) (hr : s.rc.ringState = .running)
    (hs : s.goodSource src = true) (k : Keeps l (s.advance t) (act (s.advance t))) (hl : unwatched l) :
    exec c s = .next (act (s.advance t)) ∧ s.frame (act (s.advance t)) t l := by
  rw [he, deliverFrom_running (s := s.advance t) hr hs]
  have e := markDirty_quiet k hl
  exact ⟨congrArg Host.Outcome.next e, e ▸ frame_finish k⟩

end Sys2Proof.Machine

open Sys2Proof Sys2Proof.Machine

/-- Settles O52: the frame finds its view or none, and each answer is one change of that view. -/
theorem imports : Obligations.Imports := by
  intro s t src i sub st content v hr hs
  refine ⟨fun hv ht hg => ⟨fun hsub => ⟨?reply, ?update⟩, fun due empty room => ?stale, fun early => ?early⟩,
    fun none => ⟨?unmatched, fun empty room => ?close⟩⟩
  case reply =>
    have act := takeSubReply_hit (matchView_hit (s := s.advance t) hv ht hg hsub) st
    have gone : (s.advance t).takeSubReply src i.val sub st = (s.advance t).makeReady i { v with state := .gone } →
        ∃ s', exec (.subscribeReply t src i.val sub st) s = .next s' ∧ s.frame s' t [.vu, .cp]
          ∧ s'.vu = { s.vu with views := s.vu.views.set i (some { v with state := .gone, ready := true }) }
          ∧ s'.cp = s.cp.withPort v.owner { s.port v.owner with pending := (s.port v.owner).pending ||| 4#11 } := fun act => by
      have k : Keeps [.vu, .cp] (s.advance t) ((s.advance t).takeSubReply src i.val sub st) := by
        rw [act]; exact keeps_makeReady _ _ _
      obtain ⟨e, f⟩ := delivered (c := .subscribeReply t src i.val sub st) rfl hr hs k (by decide)
      exact ⟨_, e, f, by rw [act]; rfl, by rw [act]; rfl⟩
    cases st with
    | full => exact gone act
    | badArgument => exact gone act
    | unlisted x =>
      have k : Keeps [] (s.advance t) ((s.advance t).takeSubReply src i.val sub (.unlisted x)) := by
        rw [act]; exact .refl _ _
      obtain ⟨e, f⟩ := delivered (c := .subscribeReply t src i.val sub (.unlisted x)) rfl hr hs k (by decide)
      have f' := frame_finish (k.mono (l' := [.vu, .cp]) (by decide))
      rw [markDirty_quiet k (by decide)] at f'
      exact ⟨_, e, f', f⟩
    | accept =>
      have k : Keeps [.vu] (s.advance t) ((s.advance t).takeSubReply src i.val sub .accept) := by
        rw [act]; exact keeps_onVu _ _
      obtain ⟨e, f⟩ := delivered (c := .subscribeReply t src i.val sub .accept) rfl hr hs (k.mono (l' := [.vu, .cp]) (by decide))
        (by decide)
      exact ⟨_, e, f, k.2.2.2 .cp (by decide), by rw [act]; rfl⟩
  case update =>
    have act := takeViewUpdate_hit (matchView_hit (s := s.advance t) hv ht hg hsub) hg content
    have k : Keeps [.vu] (s.advance t) ((s.advance t).takeViewUpdate src i.val sub content) := by
      rw [act]; exact keeps_onVu _ _
    obtain ⟨e, f⟩ := delivered (c := .viewUpdate t src i.val sub content) rfl hr hs k (by decide)
    refine ⟨_, e, f, ?_⟩
    rw [act]
    cases content <;> rfl
  case stale =>
    have act := staleExpiry_due (s := s.advance t) hr hv ht hg due
    by_cases h : v.state = .stale
    · rw [if_pos h, subscribeView_direct (s := s.advance t) empty room] at act
      have k : Keeps [.rc, .vu, .cp] (s.advance t) ((s.advance t).staleExpiry i) := by
        rw [act]; exact ((keeps_onVu _ _).mono (by decide)).trans ((keeps_onRc _ _).mono (by decide))
      refine ⟨_, congrArg Host.Outcome.next (markDirty_quiet k (by decide)), ?_, ?_, ?_, ?_⟩
      · exact (markDirty_quiet k (by decide)) ▸ frame_finish k
      · rw [act, if_pos h, ← h]; rfl
      · rw [act, if_pos h]; rfl
      · rw [act]; rfl
    · rw [if_neg h, subscribeView_direct (s := (s.advance t).makeReady i { v with state := .stale, ready := true }) empty room] at act
      have k : Keeps [.rc, .vu, .cp] (s.advance t) ((s.advance t).staleExpiry i) := by
        rw [act]
        exact ((keeps_makeReady _ _ _).mono (by decide)).trans
          (((keeps_onVu _ _).mono (by decide)).trans ((keeps_onRc _ _).mono (by decide)))
      refine ⟨_, congrArg Host.Outcome.next (markDirty_quiet k (by decide)), ?_, ?_, ?_, ?_⟩
      · exact (markDirty_quiet k (by decide)) ▸ frame_finish k
      · rw [act, if_neg h]
        exact congrArg (fun w => { s.vu with subCount := s.vu.subCount + 1, views := w }) (Table.set_set _ _ _ _)
      · rw [act, if_neg h]; rfl
      · rw [act]; rfl
  case early =>
    have act := staleExpiry_early (s := s.advance t) hv early
    exact ⟨_, congrArg (finish s) act, finish_idle s t⟩
  case unmatched =>
    have act := takeSubReply_miss (matchView_miss (s := s.advance t) none) st
    have k : Keeps [] (s.advance t) ((s.advance t).takeSubReply src i.val sub st) := by rw [act]; exact .refl _ _
    obtain ⟨e, f⟩ := delivered (c := .subscribeReply t src i.val sub st) rfl hr hs k (by decide)
    exact ⟨_, e, f⟩
  case close =>
    have act := takeViewUpdate_miss (matchView_miss (s := s.advance t) none) content empty room
    have k : Keeps [.rc] (s.advance t) ((s.advance t).takeViewUpdate src i.val sub content) := by
      rw [act]; exact keeps_onRc _ _
    obtain ⟨e, f⟩ := delivered (c := .viewUpdate t src i.val sub content) rfl hr hs k (by decide)
    exact ⟨_, e, f, by rw [act]; rfl⟩

end

section
/-! SUPPORT. The rate timers: the views that become ready, and the exports that are offered. -/

namespace Sys2Proof.Machine

variable {s a : State} {t : HubTime} {rate : Fin 4}

/-! ### A table of views, one view after another -/

/-- A step that handles one view and no other. -/
def eachView (f : State → Fin 16 → State) (g : View → View) : Prop :=
  ∀ s i j, (f s i).vu.views.get j = if i = j then (s.vu.views.get j).map g else s.vu.views.get j

theorem eachView_fold {f : State → Fin 16 → State} {g : View → View} (h : eachView f g) (l : List (Fin 16)) (hn : l.Nodup)
    (s : State) (j : Fin 16) :
    (l.foldl f s).vu.views.get j = if j ∈ l then (s.vu.views.get j).map g else s.vu.views.get j := by
  induction l generalizing s with
  | nil => rfl
  | cons i l ih =>
    obtain ⟨fresh, rest⟩ := List.nodup_cons.1 hn
    rw [List.foldl_cons, ih rest, h]
    by_cases e : i = j
    · subst e
      rw [if_neg fresh, if_pos rfl, if_pos (List.mem_cons_self ..)]
    · rw [if_neg e]
      refine if_congr ?_ rfl rfl
      rw [List.mem_cons]
      exact ⟨.inr, fun c => c.resolve_left (fun e' => e e'.symm)⟩

/-- What a fold over the views does at the owner of a view, where its step tells the owner. -/
theorem eachView_told {f : State → Fin 16 → State} {g : View → View} {P : View → Prop} (h : eachView f g)
    (kept : ∀ s i, Lawful 0 s (f s i))
    (told : ∀ s i v, s.vu.views.get i = some v → P v → ((f s i).port v.owner).pending.getLsbD 2 = true)
    (l : List (Fin 16)) (s : State) {j : Fin 16} {v : View} (hj : j ∈ l) (hv : s.vu.views.get j = some v) (hp : P v) :
    ((l.foldl f s).port v.owner).pending.getLsbD 2 = true := by
  induction l generalizing s with
  | nil => cases hj
  | cons i l ih =>
    rw [List.foldl_cons]
    by_cases e : i = j
    · subst e
      exact ((Lawful.foldl kept l (f s i)).sound.ports v.owner).pending 2 (told s i v hv hp)
    · refine ih _ ((List.mem_cons.1 hj).resolve_left (fun e' => e e'.symm)) ?_
      rw [h, if_neg e, hv]

/-! ### Views at the expiry of their rate timer -/

/-- A view of the class becomes ready. -/
abbrev View.expires (rate : Fin 4) (v : View) : Prop := v.rate = rate ∧ v.readyAtExpiry = true

/-- A view after the expiry of a rate timer. -/
noncomputable def View.atExpiry (rate : Fin 4) (v : View) : View := if v.expires rate then { v with ready := true } else v

theorem expireViews_some {i : Fin 16} {v : View} (h : s.vu.views.get i = some v) :
    State.expireViews rate s i = if v.expires rate then s.makeReady i v else s := by
  unfold State.expireViews
  rw [h]

theorem expireViews_none {i : Fin 16} (h : s.vu.views.get i = none) : State.expireViews rate s i = s := by
  unfold State.expireViews
  rw [h]

theorem expireViews_vu (rate : Fin 4) (s : State) (i : Fin 16) :
    (State.expireViews rate s i).vu = { s.vu with views := (State.expireViews rate s i).vu.views } := by
  cases h : s.vu.views.get i with
  | none => rw [expireViews_none h]
  | some v =>
    rw [expireViews_some h]
    split
    · rfl
    · rfl

theorem expireAll_vu (rate : Fin 4) (l : List (Fin 16)) (s : State) :
    (l.foldl (State.expireViews rate) s).vu = { s.vu with views := (l.foldl (State.expireViews rate) s).vu.views } := by
  induction l generalizing s with
  | nil => rfl
  | cons i l ih =>
    rw [List.foldl_cons, ih, expireViews_vu]

theorem keeps_expireViews (rate : Fin 4) (s : State) (i : Fin 16) : Keeps [.vu, .cp] s (State.expireViews rate s i) := by
  cases h : s.vu.views.get i with
  | none => rw [expireViews_none h]; exact .refl _ s
  | some v => rw [expireViews_some h]; exact .ite (keeps_makeReady _ _ _) (.refl _ s)

theorem eachView_expire (rate : Fin 4) : eachView (State.expireViews rate) (View.atExpiry rate) := by
  intro s i j
  cases h : s.vu.views.get i with
  | none =>
    rw [expireViews_none h]
    split
    next e => rw [← e, h]; rfl
    next => rfl
  | some v =>
    rw [expireViews_some h]
    by_cases x : v.expires rate
    · rw [if_pos x]
      show (s.vu.views.set i _).get j = _
      rw [Table.get_set]
      refine ite_congr rfl (fun e => ?_) (fun _ => rfl)
      rw [← e, h, Option.map_some, View.atExpiry, if_pos x]
    · rw [if_neg x]
      split
      next e => rw [← e, h, Option.map_some, View.atExpiry, if_neg x]
      next => rfl

theorem expire_told (s : State) (i : Fin 16) (v : View) (h : s.vu.views.get i = some v) (x : v.expires rate) :
    ((State.expireViews rate s i).port v.owner).pending.getLsbD 2 = true := by
  rw [expireViews_some h, if_pos x, State.makeReady, port_notifyPort, if_pos rfl]
  exact addNotice_self _ .views

/-! ### Exports that are offered -/

/-- A due export whose update has been taken into the view queue. -/
noncomputable def ExportEntry.sent (e : ExportEntry) : ExportEntry := if e.due = .none then e else e.offeredNow.taken

/-- The update of a due export. -/
noncomputable def State.updateOf (s : State) (e : ExportEntry) : Option OwnFrame := if e.due = .none then none else some (s.updateFrame e)

theorem updateOf_quiet {l : List Blk} (k : Keeps l s a) (hl : unwatched l) : a.updateOf = s.updateOf := by
  obtain ⟨hsu, hse, hru, htu, his⟩ := hl
  have content : a.content = s.content := funext fun c =>
    content_quiet k.2.1 (k.2.2.2 .su hsu) (k.2.2.2 .se hse) (k.2.2.2 .ru hru) (k.2.2.2 .tu htu) (k.2.2.2 .is his) c
  funext e
  unfold State.updateOf State.updateFrame
  rw [content]

/-- The offers of some exports, with room in the view queue for all of them. -/
structure Offered (l : List (Fin 16)) (s a : State) : Prop where
  exports : ∀ j, a.vu.exports.get j = if j ∈ l then (s.vu.exports.get j).map ExportEntry.sent else s.vu.exports.get j
  vu : a.vu = { s.vu with exports := a.vu.exports }
  rc : a.rc = { s.rc with viewQueue := s.rc.viewQueue ++ l.filterMap (fun i => (s.vu.exports.get i).bind s.updateOf) }
  keeps : Keeps [.rc, .vu] s a

theorem offerExport_offered (i : Fin 16) (free : s.vu.offered = none) (room : s.rc.viewQueue.length < 16) :
    Offered [i] s (s.offerExport i) := by
  have stays : ∀ e, s.vu.exports.get i = e → e.map ExportEntry.sent = e → e.bind s.updateOf = none →
      s.offerExport i = s → Offered [i] s (s.offerExport i) := fun e he same still act => by
    rw [act]
    refine ⟨fun j => ?_, rfl, ?_, .refl _ s⟩
    · split
      next m => rw [List.mem_singleton.1 m, he, same]
      next => rfl
    · rw [List.filterMap_cons, he, still]
      exact (congrArg (fun q => { s.rc with viewQueue := q }) (List.append_nil _)).symm
  cases h : s.vu.exports.get i with
  | none =>
    refine stays none h rfl rfl ?_
    unfold State.offerExport
    rw [h]
  | some e =>
    by_cases due : e.due = .none
    · refine stays (some e) h (congrArg some (if_pos due)) (if_pos due) ?_
      unfold State.offerExport
      rw [h, free]
      exact if_pos due
    · have act : s.offerExport i =
          (s.putExport i (some e.sent)).onRc (fun r => { r with viewQueue := r.viewQueue ++ [s.updateFrame e] }) := by
        unfold State.offerExport
        rw [h, free, ExportEntry.sent, if_neg due]
        exact (if_neg due).trans (if_pos room)
      rw [act]
      refine ⟨fun j => ?_, rfl, ?_, ((keeps_onVu _ _).mono (by decide)).trans ((keeps_onRc _ _).mono (by decide))⟩
      · show (s.vu.exports.set i _).get j = _
        rw [Table.get_set]
        split
        next m => rw [← m, if_pos (List.mem_singleton_self _), h]; rfl
        next m => rw [if_neg fun c => m (List.mem_singleton.1 c).symm]
      · rw [List.filterMap_cons, h, Option.bind_some, State.updateOf, if_neg due]
        rfl

theorem offerAll_offered (l : List (Fin 16)) (hn : l.Nodup) (s : State) (free : s.vu.offered = none)
    (room : s.rc.viewQueue.length + l.length ≤ 16) : Offered l s (l.foldl State.offerExport s) := by
  induction l generalizing s with
  | nil =>
    exact ⟨fun j => rfl, rfl, (congrArg (fun q => { s.rc with viewQueue := q }) (List.append_nil _)).symm, .refl _ s⟩
  | cons i l ih =>
    obtain ⟨fresh, rest⟩ := List.nodup_cons.1 hn
    rw [List.length_cons] at room
    have one := offerExport_offered i free (by omega)
    rw [List.foldl_cons]
    generalize s.offerExport i = b at one ⊢
    have all := ih rest b (by rw [one.vu]; exact free) (by
      rw [one.rc]
      show (s.rc.viewQueue ++ _).length + _ ≤ _
      have := List.length_filterMap_le (fun i => (s.vu.exports.get i).bind s.updateOf) [i]
      rw [List.length_append]
      rw [List.length_singleton] at this
      omega)
    have update := updateOf_quiet one.keeps (by decide)
    have apart : ∀ j ∈ l, j ∉ [i] := fun j hj c => fresh (by rw [← List.mem_singleton.1 c]; exact hj)
    have others : l.filterMap (fun j => (b.vu.exports.get j).bind s.updateOf)
        = l.filterMap (fun j => (s.vu.exports.get j).bind s.updateOf) :=
      List.filterMap_congr fun j hj => by rw [one.exports, if_neg (apart j hj)]
    refine ⟨fun j => ?_, ?_, ?_, one.keeps.trans all.keeps⟩
    · rw [all.exports, one.exports]
      by_cases hj : j ∈ l
      · rw [if_pos hj, if_neg (apart j hj), if_pos (List.mem_cons_of_mem _ hj)]
      · rw [if_neg hj]
        refine if_congr ?_ rfl rfl
        rw [List.mem_singleton, List.mem_cons]
        exact ⟨.inl, fun c => c.resolve_right hj⟩
    · rw [all.vu, one.vu]
    · rw [all.rc, one.rc, update]
      refine congrArg (fun q => { s.rc with viewQueue := q }) ?_
      rw [others, List.append_assoc, ← List.filterMap_append, List.singleton_append]

/-- Offering touches the exports, the update that waits and the view queue alone. -/
structure Offering (s a : State) : Prop where
  keeps : Keeps [.rc, .vu] s a
  views : a.vu.views = s.vu.views
  timers : a.vu.rateNext = s.vu.rateNext

theorem Offering.ite {c : Prop} [Decidable c] {b : State} (ha : Offering s a) (hb : Offering s b) :
    Offering s (if c then a else b) := by
  split
  · exact ha
  · exact hb

theorem offerExport_offering (s : State) (i : Fin 16) : Offering s (s.offerExport i) := by
  unfold State.offerExport
  rcases s.vu.exports.get i with _ | e
  · exact ⟨.refl _ s, rfl, rfl⟩
  rcases s.vu.offered with _ | o
  · refine .ite ⟨.refl _ s, rfl, rfl⟩ (.ite ⟨?_, rfl, rfl⟩ ⟨?_, rfl, rfl⟩)
    · exact ((keeps_onVu _ _).mono (by decide)).trans ((keeps_onRc _ _).mono (by decide))
    · exact (((keeps_onVu _ _).trans (keeps_onVu _ _)).mono (by decide))
  · exact ⟨.refl _ s, rfl, rfl⟩

theorem offerExports_offering (s : State) : Offering s s.offerExports := by
  refine .ite ?_ ⟨.refl _ s, rfl, rfl⟩
  generalize List.finRange 16 = l
  induction l generalizing s with
  | nil => exact ⟨.refl _ s, rfl, rfl⟩
  | cons i l ih =>
    have one := offerExport_offering s i
    have rest := ih (s.offerExport i)
    exact ⟨one.keeps.trans rest.keeps, rest.views.trans one.views, rest.timers.trans one.timers⟩

/-! ### The expiry of a rate timer -/

/-- The View Unit with the timer restarted and the exports of its class marked. -/
noncomputable def State.rateMarked (s : State) (rate : Fin 4) : State := s.onVu (fun u =>
  { u with
    rateNext := u.rateNext.set rate (later (s.vu.rateNext.get rate) (ratePeriod rate))
    exports := u.exports.map (Option.map (ExportEntry.expire rate)) })

/-- The views of the class have been made ready. -/
noncomputable def State.rateReadied (s : State) (rate : Fin 4) : State :=
  (List.finRange 16).foldl (State.expireViews rate) (s.rateMarked rate)

theorem rateExpiry_due (due : isDue (s.vu.rateNext.get rate) s.hubTime = true) :
    s.rateExpiry rate = (s.rateReadied rate).offerExports := if_pos due

theorem keeps_rateReadied (s : State) (rate : Fin 4) : Keeps [.vu, .cp] s (s.rateReadied rate) :=
  ((keeps_onVu s _).mono (by decide)).trans (.foldl (keeps_expireViews rate) _ _)

theorem rateReadied_vu (s : State) (rate : Fin 4) :
    (s.rateReadied rate).vu = { (s.rateMarked rate).vu with views := (s.rateReadied rate).vu.views } := by
  rw [State.rateReadied]
  generalize s.rateMarked rate = b
  exact expireAll_vu rate _ b

theorem rateReadied_views (s : State) (rate : Fin 4) (i : Fin 16) :
    (s.rateReadied rate).vu.views.get i = (s.vu.views.get i).map (View.atExpiry rate) := by
  rw [State.rateReadied, eachView_fold (eachView_expire rate) _ (List.nodup_finRange 16), if_pos (List.mem_finRange i)]
  rfl

theorem rateReadied_told {i : Fin 16} {v : View} (h : s.vu.views.get i = some v) (x : v.expires rate) :
    ((s.rateReadied rate).port v.owner).pending.getLsbD 2 = true :=
  eachView_told (eachView_expire rate) (lawful_expireViews rate) expire_told _ _ (List.mem_finRange i) h x

theorem readyAtExpiry_iff (v : View) : v.readyAtExpiry = true ↔
    v.ready = false ∧ (v.state = .dirty ∨ (v.target = none ∧ v.state = .initial)) := by
  simp only [View.readyAtExpiry, Bool.and_eq_true, Bool.or_eq_true, Bool.not_eq_true', decide_eq_true_eq, Option.isNone_iff_eq_none]

theorem offerExports_still (h : s.rc.ringState ≠ .running) : s.offerExports = s := if_neg fun c => h (of_decide_eq_true c)

theorem offerExports_offered (h : s.rc.ringState = .running) (empty : s.rc.viewQueue = []) (free : s.vu.offered = none) :
    Offered (List.finRange 16) s s.offerExports := by
  have e : s.offerExports = (List.finRange 16).foldl State.offerExport s := if_pos (decide_eq_true h)
  rw [e]
  exact offerAll_offered _ (List.nodup_finRange 16) s free (by rw [empty, List.length_finRange]; decide)

/-- An export that has been marked and, where it is due, sent. -/
theorem sent_expire (rate : Fin 4) (e : ExportEntry) : (e.expire rate).sent =
    if e.rate = rate ∧ (e.state = .initial ∨ e.state = .dirty) then { e with due := .none, steps := 0, state := .clean }
    else if e.due = .content then { e with due := .none, steps := 0, state := .clean }
    else if e.due = .keepAlive then { e with due := .none, steps := 0 } else e := by
  unfold ExportEntry.expire
  split
  · rfl
  · unfold ExportEntry.sent ExportEntry.offeredNow
    cases h : e.due with
    | none => rfl
    | content => rfl
    | keepAlive => rfl

theorem updateOf_expire (s : State) (rate : Fin 4) (e : ExportEntry) : s.updateOf (e.expire rate) =
    if (e.rate = rate ∧ (e.state = .initial ∨ e.state = .dirty)) ∨ e.due = .content then
      some ⟨e.hub, .viewUpdate e.view e.sub (some (s.content e.kind))⟩
    else if e.due = .keepAlive then some ⟨e.hub, .viewUpdate e.view e.sub none⟩ else none := by
  unfold ExportEntry.expire
  by_cases x : e.rate = rate ∧ (e.state = .initial ∨ e.state = .dirty)
  · rw [if_pos x, if_pos (.inl x)]
    rfl
  · rw [if_neg x]
    refine Eq.trans ?_ (if_congr (or_iff_right x) rfl rfl).symm
    unfold State.updateOf State.updateFrame
    cases h : e.due with
    | none => rfl
    | content => rfl
    | keepAlive => rfl

end Sys2Proof.Machine

open Sys2Proof Sys2Proof.Machine

/-- Settles O50: the timer is restarted, the views of its class become ready one after another, and the due exports are offered. -/
theorem rateTimers : Obligations.RateTimers := by
  intro s t rate
  refine ⟨markDirty s ((s.advance t).rateExpiry rate), rfl, ?_⟩
  by_cases early : isDue (s.vu.rateNext.get rate) t = false
  · have act : (s.advance t).rateExpiry rate = s.advance t := if_neg (by
      rw [show isDue ((s.advance t).vu.rateNext.get rate) (s.advance t).hubTime = false from early]
      exact Bool.false_ne_true)
    rw [if_pos early, act]
    exact finish_idle s t
  · rw [if_neg early, rateExpiry_due (s := s.advance t) (Bool.not_eq_false _ ▸ early)]
    have readied := keeps_rateReadied (s.advance t) rate
    have unit := rateReadied_vu (s.advance t) rate
    have views := rateReadied_views (s.advance t) rate
    have told := fun i v => rateReadied_told (s := s.advance t) (rate := rate) (i := i) (v := v)
    have dueExport : ∀ i, ((s.advance t).rateReadied rate).vu.exports.get i = (s.vu.exports.get i).map (ExportEntry.expire rate) :=
      fun i => by
        rw [unit]
        exact Table.get_map _ _ _
    generalize (s.advance t).rateReadied rate = b at readied unit views told dueExport ⊢
    have still : b.rc.ringState ≠ .running → b.offerExports = b := offerExports_still
    have sent : b.rc.ringState = .running → b.rc.viewQueue = [] → b.vu.offered = none → Offered (List.finRange 16) b b.offerExports :=
      offerExports_offered
    have rc : b.rc = (s.advance t).rc := readied.2.2.2 .rc (by decide)
    obtain ⟨offers, same, timers⟩ := offerExports_offering b
    generalize b.offerExports = d at still sent offers same timers ⊢
    have k : Keeps [.rc, .vu, .cp] (s.advance t) d := (readied.mono (by decide)).trans (offers.mono (by decide))
    rw [markDirty_quiet k (by decide)]
    have ports : d.cp = b.cp := offers.2.2.2 .cp (by decide)
    refine ⟨(markDirty_quiet k (by decide)) ▸ frame_finish k, ?_, fun i => ?_, fun idle => ?_, fun run empty free => ⟨fun i => ?_, ?_⟩⟩
    · rw [timers, unit]
      refine congrArg (fun n => s.vu.rateNext.set rate (s.vu.rateNext.get rate + n)) ?_
      clear * -
      revert rate
      decide
    · rw [same, views]
      cases h : s.vu.views.get i with
      | none => exact congrArg (Option.map (View.atExpiry rate)) h
      | some v =>
        rw [show (s.advance t).vu.views.get i = some v from h]
        dsimp only
        split
        next x =>
          have x' : v.expires rate := ⟨x.1, (readyAtExpiry_iff v).2 x.2⟩
          refine ⟨congrArg some (if_pos x'), ?_⟩
          show ((d.cp.ports.get v.owner).pending.getLsbD 2) = true
          rw [ports]
          exact told i v h x'
        next x => exact congrArg some (if_neg fun c => x ⟨c.1, (readyAtExpiry_iff v).1 c.2⟩)
    · have e := still (by rw [rc]; exact idle)
      rw [e]
      exact ⟨rc, dueExport⟩
    · have o := sent (by rw [rc]; exact run) (by rw [rc]; exact empty) (by rw [unit]; exact free)
      rw [o.exports, if_pos (List.mem_finRange i), dueExport, Option.map_map]
      exact congrArg (fun f => Option.map f (s.vu.exports.get i)) (funext fun e => sent_expire rate e)
    · have o := sent (by rw [rc]; exact run) (by rw [rc]; exact empty) (by rw [unit]; exact free)
      rw [o.rc, rc]
      refine congrArg (fun q => { (s.advance t).rc with viewQueue := q }) ?_
      rw [show (s.advance t).rc.viewQueue = [] from empty, List.nil_append, updateOf_quiet readied (by decide)]
      refine List.filterMap_congr fun i _ => ?_
      rw [dueExport, Option.bind_map]
      exact congrArg (Option.bind (s.vu.exports.get i)) (funext fun e => updateOf_expire (s.advance t) rate e)

end

section
/-! SUPPORT. Nudges: posted at the hub itself, sent to another hub, and answered. -/

namespace Sys2Proof.Machine

variable {s a b : State} {t : HubTime} {p : PortNo} {g : Tag} {i : SlotNo}

/-- A nudge of an existing slot is checked in this order. -/
theorem postNudge_eq (s : State) (poster : Option PortNo) (i : SlotNo) (a : Int) {c : Int}
    (hc : c = max (-((s.slot i).latest.nudgeLimit : Int)) (min a (s.slot i).latest.nudgeLimit)) :
    s.postNudge poster (some i.val) (some a) =
      if s.rc.ringState = .conflict then (s, .notRunning, 0)
      else if (s.slot i).state = .vacant ∧ (s.slot i).posted = [] then (s, .badState, 0)
      else if 8 ≤ (s.slot i).posted.length then (s, .full, 0)
      else (s.onSlot i (fun y => y.post ⟨poster, .nudge c⟩), if c = a then .posted else .clamped, c) := by
  unfold State.postNudge
  rw [argFin_val]
  dsimp only
  rw [clampInt_eq _ _ _ (by omega), ← hc, ite_not]

theorem knownHub_none (s : State) (h : Nat) : s.knownHub h = false ↔ ∀ x ∈ s.rc.hubCount, x ≤ h := by
  unfold State.knownHub
  cases s.rc.hubCount with
  | none => exact ⟨fun _ x hx => absurd hx (by simp), fun _ => rfl⟩
  | some n =>
    show decide (h < n) = false ↔ _
    rw [decide_eq_false_iff_not, Nat.not_lt]
    exact ⟨fun c x hx => Option.some.inj hx ▸ c, fun c => c n rfl⟩

/-- A permitted request that its block has wait. -/
theorem request_waiting {roles : List Role} {block : State → State × Reply} {l l' : List Blk} (h : s.takes p g roles)
    (hb : block (s.handed t p g) = (a, none)) (k : Keeps l (s.handed t p g) a) (hc : Blk.cp ∉ l) (hl : ∀ b ∈ Blk.cp :: l, b ∈ l')
    (hu : unwatched l') : finishRequest s t p g roles block = .next a ∧ s.frame a t l' ∧ a.cp = s.cp.waiting p g := by
  have kept : Keeps l' (s.advance t) a :=
    ((keeps_onPort (s.advance t) p _).mono (by intro b hb; rw [List.mem_singleton.1 hb]; exact hl _ (List.mem_cons_self ..))).trans
      (k.mono fun b hb => hl b (List.mem_cons_of_mem _ hb))
  have still := markDirty_quiet kept hu
  refine ⟨?_, still ▸ frame_finish kept, k.2.2.2 .cp hc⟩
  rw [finishRequest_taken h, hb]
  exact congrArg Host.Outcome.next still

/-- A frame of the Section Engine joins its reply store and what the control queue has places for leaves it. -/
theorem replyStored_eq (s : State) (f : OwnFrame) :
    (s.onSe (fun e => { e with replies := e.replies ++ [f] })).offerControl .sectionEngine =
      (s.onSe (fun e => { e with replies := (e.replies ++ [f]).drop (8 - s.rc.controlQueue.length) })).onRc
        (RC.filled .sectionEngine (s.se.replies ++ [f]) (8 - s.rc.controlQueue.length)) := by
  rw [offerControl_eq, dropMany_section]
  rfl

/-- An EDIT whose judgement leaves everything but the sections. -/
theorem edit_replied {src : Nat} {ref : BitVec 16} {slot : Nat} {a : Int} {slots : Table 16 Section} {st : Status} {c : Int}
    {f : OwnFrame} (hr : s.rc.ringState = .running) (hs : s.goodSource src = true) (room : ¬ 4 ≤ s.se.replies.length)
    (judged : (s.advance t).postNudge none (some slot) (some a) = ((s.advance t).onSe (fun e => { e with slots := slots }), st, c))
    (hf : f = ⟨src, .editReply ref st c (((s.advance t).onSe (fun e => { e with slots := slots })).replySerial slot)⟩) :
    ∃ s', exec (.edit t src ref slot a) s = .next s' ∧ s.frame s' t [.rc, .se]
      ∧ s'.se = { s.se with slots := slots, replies := (s.se.replies ++ [f]).drop (8 - s.rc.controlQueue.length) }
      ∧ s'.rc.controlQueue = s.rc.controlQueue ++ (s.se.replies ++ [f]).take (8 - s.rc.controlQueue.length) := by
  have act : (s.advance t).takeEdit src ref slot a =
      (((s.advance t).onSe (fun e => { e with slots := slots })).onSe
        (fun e => { e with replies := e.replies ++ [f] })).offerControl .sectionEngine := by
    unfold State.takeEdit
    rw [if_neg (show ¬ 4 ≤ (s.advance t).se.replies.length from room), judged, hf]
  rw [replyStored_eq] at act
  have k : Keeps [.rc, .se] (s.advance t) ((s.advance t).takeEdit src ref slot a) := by
    rw [act]
    exact (((keeps_onSe _ _).trans (keeps_onSe _ _)).mono (by decide)).trans ((keeps_onRc _ _).mono (by decide))
  have he : exec (.edit t src ref slot a) s = finish s ((s.advance t).takeEdit src ref slot a) :=
    congrArg (finish s) (deliverFrom_running (s := s.advance t) hr hs 7 _)
  refine ⟨_, he, frame_finish k, ?_, ?_⟩
  · show ((s.advance t).takeEdit src ref slot a).se = _
    rw [act]
    rfl
  · show ((s.advance t).takeEdit src ref slot a).rc.controlQueue = _
    rw [act]
    rfl

/-- A waiting nudge that is answered. -/
noncomputable def State.nudgeAnswered (s : State) (n : Nudge) (st : Status) (bytes : List Byte) : State :=
  (s.onVu (fun u => { u with nudges := u.nudges.erase n })).respond n.port n.tag st bytes

theorem nudge_leaves {x : Instr} {n : Nudge} {st : Status} {bytes : List Byte}
    (he : exec x s = finish s ((s.advance t).nudgeAnswered n st bytes)) :
    ∃ s', exec x s = .next s' ∧ s.frame s' t [.vu, .cp] ∧ s'.vu = { s.vu with nudges := s.vu.nudges.erase n }
      ∧ s'.cp = s.cp.withPort n.port ((s.port n.port).ready n.tag st bytes) := by
  have k : Keeps [.vu, .cp] (s.advance t) ((s.advance t).nudgeAnswered n st bytes) :=
    ((keeps_onVu _ _).mono (by decide)).trans ((keeps_respond _ _ _ _ _).mono (by decide))
  have still := markDirty_quiet k (by decide)
  exact ⟨_, he.trans (congrArg Host.Outcome.next still), still ▸ frame_finish k, rfl, rfl⟩

theorem replySerial_slot (s : State) (i : SlotNo) :
    s.replySerial i.val = (s.slot i).serial + BitVec.ofNat 16 (s.slot i).posted.length := by
  unfold State.replySerial
  rw [toFin_self]

end Sys2Proof.Machine

open Sys2Proof Sys2Proof.Machine

/-- Settles O53: the checks of a nudge in their order, then how its EDIT and the answers travel. -/
theorem nudges : Obligations.Nudges := by
  intro s t p g i a h src ref serial st n c hc
  refine ⟨fun ht here => ?own, fun ht other => ?remote, fun hr hs => ⟨?edit, fun slot beyond room => ?absent⟩,
    fun hr hs => ?answer, fun due => ?timeout, fun early => ?wait⟩
  case own =>
    have judged := postNudge_eq (s.handed t p g) (some p) i a hc
    have request : ∀ {r}, (s.handed t p g).postNudge (some p) (some i.val) (some a) = r →
        reqTrimNudge p g (some h) (some i.val) (some a) (s.handed t p g) = (r.1, status r.2.1) := fun e => by
      refine (if_pos ?_).trans (e ▸ rfl)
      exact here.imp id fun o => decide_eq_true o
    have refused : ∀ {st}, (s.handed t p g).postNudge (some p) (some i.val) (some a) = (s.handed t p g, st, 0) →
        ∃ s', exec (.trimNudge t p g (some h) (some i.val) (some a)) s = .next s' ∧ s.frame s' t [.se, .cp]
          ∧ s'.se = s.se ∧ s'.cp = s.cp.answered p g st [] := fun e => by
      exact (request_refused (l := [.se, .cp]) ht (request e) (by decide)).imp fun s' a =>
        ⟨a.1, a.2.1, a.2.2.se, a.2.2.cp⟩
    by_cases c1 : s.rc.ringState = .conflict
    · exact (refused (judged.trans (if_pos c1))).imp fun s' a =>
        ⟨a.1, a.2.1, (if_pos c1).mpr a.2.2⟩
    replace judged := judged.trans (if_neg c1)
    by_cases c2 : (s.slot i).state = .vacant ∧ (s.slot i).posted = []
    · exact (refused (judged.trans (if_pos c2))).imp fun s' a =>
        ⟨a.1, a.2.1, (if_neg c1).mpr ((if_pos c2).mpr a.2.2)⟩
    replace judged := judged.trans (if_neg c2)
    by_cases c3 : 8 ≤ (s.slot i).posted.length
    · exact (refused (judged.trans (if_pos c3))).imp fun s' a =>
        ⟨a.1, a.2.1, (if_neg c1).mpr ((if_neg c2).mpr ((if_pos c3).mpr a.2.2))⟩
    obtain ⟨s', a1, a2, a3⟩ := request_answered (l' := [.se, .cp]) ht (request (judged.trans (if_neg c3))) (keeps_onSlot _ _ _)
      (by decide) (by decide)
    exact ⟨s', a1, a2, (if_neg c1).mpr ((if_neg c2).mpr ((if_neg c3).mpr ⟨a3.se, a3.cp⟩))⟩
  case remote =>
    obtain ⟨x, hx, hne⟩ := other
    have request : reqTrimNudge p g (some h) (some i.val) (some a) (s.handed t p g) =
        reqRemoteNudge p g h (some i.val) (some a) (s.handed t p g) := if_neg (by
      have held : (s.handed t p g).rc.hubAddress = some x := hx
      rw [State.ownAddress, held]
      rintro (c | c)
      · cases c
      · exact hne (Option.some.inj (of_decide_eq_true c)))
    have act : ∀ b : State, reqRemoteNudge p g h (some i.val) (some a) b =
        if b.knownHub h = false then (b, status .badArgument)
        else if b.running = false then (b, status .notRunning)
        else if b.controlRoom = false then (b, status .busy)
        else ((b.onVu (fun u => { u with
          refCount := b.vu.refCount + 1
          nudges := u.nudges ++ [⟨p, g, h, b.vu.refCount + 1, 0⟩] })).makeControl ⟨h, .edit (b.vu.refCount + 1) i.val a⟩, none) :=
      fun b => by unfold reqRemoteNudge; rw [argFin_val]
    replace act := request.trans (act _)
    have refused : ∀ {st}, reqTrimNudge p g (some h) (some i.val) (some a) (s.handed t p g) = (s.handed t p g, status st) →
        ∃ s', exec (.trimNudge t p g (some h) (some i.val) (some a)) s = .next s' ∧ s.frame s' t [.cp]
          ∧ s'.cp = s.cp.answered p g st [] := fun e => by
      exact (request_refused (l := [.cp]) ht e (by decide)).imp fun s' a =>
        ⟨a.1, a.2.1, a.2.2.cp⟩
    by_cases c1 : ∀ x ∈ s.rc.hubCount, x ≤ h
    · exact (refused (act.trans (if_pos ((knownHub_none _ h).2 c1)))).imp fun s' a =>
        ⟨a.1, (if_pos c1).mpr a.2⟩
    replace act := act.trans (if_neg fun e => c1 ((knownHub_none _ h).1 e))
    by_cases c2 : s.rc.ringState ≠ .running
    · exact (refused (act.trans (if_pos (decide_eq_false c2)))).imp fun s' a =>
        ⟨a.1, (if_neg c1).mpr ((if_pos c2).mpr a.2)⟩
    replace act := act.trans (if_neg fun e => c2 (of_decide_eq_false e))
    by_cases c3 : 16 ≤ s.vu.controlList.length
    · exact (refused (act.trans (if_pos (decide_eq_false (Nat.not_lt.2 c3))))).imp fun s' a =>
        ⟨a.1, (if_neg c1).mpr ((if_neg c2).mpr ((if_pos c3).mpr a.2))⟩
    replace act := act.trans (if_neg fun e => c3 (Nat.not_lt.1 (of_decide_eq_false e)))
    replace act := act.trans (congrArg (fun b => (b, none)) (makeControl_eq (by exact Nat.not_le.1 c3)))
    obtain ⟨e, f, w⟩ := request_waiting (l := [.rc, .vu]) (l' := [.rc, .vu, .cp]) ht act
      ((((keeps_onVu _ _).trans (keeps_onVu _ _)).mono (by decide)).trans ((keeps_onRc _ _).mono (by decide))) (by decide)
      (by decide) (by decide)
    exact ⟨_, e, (if_neg c1).mpr ((if_neg c2).mpr ((if_neg c3).mpr ⟨f, rfl, rfl, w⟩))⟩
  case edit =>
    by_cases full : 4 ≤ s.se.replies.length
    · exact ⟨_, congrArg (finish s) ((deliverFrom_running (s := s.advance t) hr hs 7 _).trans (if_pos full)),
        (if_pos full).mpr (finish_idle s t)⟩
    have calm : s.rc.ringState ≠ .conflict := by rw [hr]; exact RingState.noConfusion
    have judged := (postNudge_eq (s.advance t) none i a hc).trans (if_neg calm)
    by_cases c2 : (s.slot i).state = .vacant ∧ (s.slot i).posted = []
    · obtain ⟨s', a1, a2⟩ := edit_replied (ref := ref) (f := ⟨src, .editReply ref .badState 0 (s.slot i).serial⟩) hr hs full
        (judged.trans (if_pos c2)) (by
          rw [replySerial_slot, show (State.onSe _ _).slot i = s.slot i from rfl, c2.2]
          exact congrArg (fun x => (⟨src, .editReply ref .badState 0 x⟩ : OwnFrame)) (BitVec.add_zero _).symm)
      exact ⟨s', a1, (if_neg full).mpr ((if_pos c2).mpr a2)⟩
    replace judged := judged.trans (if_neg c2)
    by_cases c3 : 8 ≤ (s.slot i).posted.length
    · obtain ⟨s', a1, a2⟩ := edit_replied (ref := ref) (slots := s.se.slots) hr hs full (judged.trans (if_pos c3))
        (by rw [replySerial_slot])
      exact ⟨s', a1, (if_neg full).mpr ((if_neg c2).mpr ((if_pos c3).mpr a2))⟩
    have stored : ((s.advance t).onSe (fun e => { e with
        slots := s.se.slots.set i { s.slot i with posted := (s.slot i).posted ++ [⟨none, .nudge c⟩] } })).slot i =
        { s.slot i with posted := (s.slot i).posted ++ [⟨none, .nudge c⟩] } := Table.get_set_self _ _ _
    obtain ⟨s', a1, a2⟩ := edit_replied (ref := ref)
      (slots := s.se.slots.set i { s.slot i with posted := (s.slot i).posted ++ [⟨none, .nudge c⟩] }) hr hs full
      (judged.trans (if_neg c3)) (by rw [replySerial_slot, stored, List.length_append])
    exact ⟨s', a1, (if_neg full).mpr ((if_neg c2).mpr ((if_neg c3).mpr a2))⟩
  case absent =>
    obtain ⟨s', e, f⟩ := edit_replied (t := t) (ref := ref) (slot := slot) (a := a) (slots := s.se.slots) (st := .badArgument) (c := 0)
      hr hs (Nat.not_le.2 room) (by unfold State.postNudge; rw [argFin_beyond beyond]; rfl) rfl
    exact ⟨s', _, e, f⟩
  case answer =>
    have search : (s.advance t).vu.nudges.find? (fun n => n.matches src ref) =
        s.vu.nudges.find? (fun n => decide (n.dst = src) && decide (n.ref = ref)) := rfl
    have act : ∀ o, (s.advance t).vu.nudges.find? (fun n => n.matches src ref) = o →
        (s.advance t).takeEditReply src ref st a serial = o.elim (s.advance t) (fun n =>
          (s.advance t).nudgeAnswered n st (valuesBytes [val 4 a, vbits 2 serial])) := fun o ho => by
      unfold State.takeEditReply
      rw [ho]
      cases o <;> rfl
    rw [search] at act
    have he : exec (.editReply t src ref st a serial) s = finish s ((s.advance t).takeEditReply src ref st a serial) :=
      congrArg (finish s) (deliverFrom_running (s := s.advance t) hr hs 9 _)
    cases ho : s.vu.nudges.find? (fun n => decide (n.dst = src) && decide (n.ref = ref)) with
    | none =>
      rw [act _ ho] at he
      exact ⟨_, he, finish_idle s t⟩
    | some n =>
      rw [act _ ho] at he
      exact nudge_leaves he
  case timeout =>
    refine nudge_leaves (congrArg (finish s) ?_)
    unfold State.nudgeTimeout
    rw [show (s.advance t).vu.nudges.find? (fun n => decide (n.ref = ref) && decide (16 ≤ n.steps)) = some n from due]
    rfl
  case wait =>
    have none : (s.advance t).vu.nudges.find? (fun n => decide (n.ref = ref) && decide (16 ≤ n.steps)) = none :=
      List.find?_eq_none.2 fun n hn => by
        rw [Bool.and_eq_true, decide_eq_true_eq, decide_eq_true_eq]
        exact fun c => absurd c.2 (Nat.not_le.2 (early n hn c.1))
    refine ⟨_, congrArg (finish s) ?_, finish_idle s t⟩
    unfold State.nudgeTimeout
    rw [none]

end

section
/-! SUPPORT. The sender: how an attempt begins, how the head of the queue is taken, and how a transfer ends. -/

namespace Sys2Proof.Machine

variable {s a b : State} {t : HubTime} {id dst : Nat} {rest : List (Nat × Nat)} {x : Strip} {k : Transfer} {c : StepTimer}

theorem begin_eq (x : Strip) (dst : Nat) (n : BitVec 16) : (⟨dst, .imageBegin (x.begin n)⟩ : OwnFrame) = beginFor x dst n := by
  obtain ⟨id, origin, camera, mode, width, rows, byteSize, tiles, fill, complete, stamp, _, _, _, _, _, _⟩ := x
  cases mode <;> cases stamp <;> rfl

theorem offerImage_free (pend : s.rc.imagePending = none) (none : s.im.offered = []) (f : OwnFrame) :
    s.offerImage f = s.onRc (fun r => { r with imagePending := some f }) := if_pos ⟨pend, none⟩

theorem beginAttempt_eq (hk : s.im.transfer = some k) (hx : s.strip k.strip = some x) :
    s.beginAttempt = (s.onIm (fun m => { m with
      transferCount := s.im.transferCount + 1, transfer := some { k with number := s.im.transferCount + 1 }
      sender := .beginSent, timer := none })).offerImage (beginFor x k.dst (s.im.transferCount + 1)) := by
  unfold State.beginAttempt
  rw [hk]
  dsimp only
  rw [hx]
  dsimp only
  rw [begin_eq]

/-- The sender has taken a pair and begun the first attempt. -/
noncomputable def State.headTaken (s : State) (id dst : Nat) (rest : List (Nat × Nat)) (x : Strip) : State :=
  (s.onIm (fun m => { m with
    sendQueue := rest, sender := .beginSent, timer := none, transferCount := s.im.transferCount + 1
    transfer := some ⟨id, dst, s.im.transferCount + 1, 1, (x.byteSize + 1023) / 1024, 0, none⟩ })).offerImage
    (beginFor x dst (s.im.transferCount + 1))

theorem takeHead_takes (hq : s.im.sendQueue = (id, dst) :: rest) (hx : s.strip id = some x) (idle : s.im.sender = .idle)
    (run : s.rc.ringState = .running) (known : x.stamp.isPending = false) : s.takeHead = s.headTaken id dst rest x := by
  unfold State.takeHead
  rw [hq]
  dsimp only
  rw [hx]
  refine (if_pos ⟨idle, decide_eq_true run, known⟩).trans ?_
  refine (beginAttempt_eq (k := ⟨id, dst, 0, 1, segmentsFor x.byteSize, 0, none⟩) (x := x) ?_ ?_).trans ?_
  · rfl
  · exact hx
  · rfl

theorem takeHead_stays (h : s.im.sendQueue = [] ∨ s.rc.ringState ≠ .running
    ∨ ∃ id dst rest x, s.im.sendQueue = (id, dst) :: rest ∧ s.strip id = some x ∧ x.stamp.isPending = true) :
    s.takeHead = s := by
  unfold State.takeHead
  split
  · rfl
  next id dst rest hq =>
    split
    · rfl
    next x hx =>
      refine if_neg fun ⟨_, run, known⟩ => ?_
      rcases h with h | h | ⟨_, _, _, y, hq', hy, pending⟩
      · exact List.cons_ne_nil _ _ (hq.symm.trans h)
      · exact h (of_decide_eq_true run)
      · obtain ⟨e, -⟩ := List.cons.inj (hq.symm.trans hq')
        rw [(Prod.mk.inj e).1, hy] at hx
        rw [← Option.some.inj hx, pending] at known
        cases known

/-- A look for a new head touches the sender and the image pending frame alone. -/
structure Looked (s a : State) : Prop where
  keeps : Keeps [.rc, .im] s a
  rc : a.rc = { s.rc with imagePending := a.rc.imagePending }
  im : a.im = { s.im with
    sendQueue := a.im.sendQueue, sender := a.im.sender, timer := a.im.timer, transferCount := a.im.transferCount
    transfer := a.im.transfer, offered := a.im.offered }
  timer : s.im.timer = none → a.im.timer = none

theorem headTaken_looked (s : State) (id dst : Nat) (rest : List (Nat × Nat)) (x : Strip) :
    Looked s (s.headTaken id dst rest x) := by
  unfold State.headTaken State.offerImage
  split
  · exact ⟨((keeps_onIm _ _).mono (by decide)).trans ((keeps_onRc _ _).mono (by decide)), rfl, rfl, fun _ => rfl⟩
  · exact ⟨((keeps_onIm _ _).trans (keeps_onIm _ _)).mono (by decide), rfl, rfl, fun _ => rfl⟩

theorem takeHead_looked (s : State) : Looked s s.takeHead := by
  have stays : s.takeHead = s → Looked s s.takeHead := fun e => by rw [e]; exact ⟨.refl _ s, rfl, rfl, id⟩
  cases hq : s.im.sendQueue with
  | nil => exact stays (takeHead_stays (.inl hq))
  | cons p rest =>
    cases hx : s.strip p.1 with
    | none => exact stays (by unfold State.takeHead; rw [hq]; dsimp only; rw [hx])
    | some x =>
      by_cases go : s.im.sender = .idle ∧ s.running = true ∧ x.stamp.isPending = false
      · rw [takeHead_takes hq hx go.1 (of_decide_eq_true go.2.1) go.2.2]
        exact headTaken_looked s _ _ _ _
      · exact stays (by unfold State.takeHead; rw [hq]; dsimp only; rw [hx]; exact if_neg go)

theorem headTaken_rc (s : State) (pend : s.rc.imagePending = none) (free : s.im.offered = []) (id dst : Nat)
    (rest : List (Nat × Nat)) (x : Strip) : s.headTaken id dst rest x = (s.onIm (fun m => { m with
      sendQueue := rest, sender := .beginSent, timer := none, transferCount := s.im.transferCount + 1
      transfer := some ⟨id, dst, s.im.transferCount + 1, 1, (x.byteSize + 1023) / 1024, 0, none⟩ })).onRc
      (fun r => { r with imagePending := some (beginFor x dst (s.im.transferCount + 1)) }) :=
  offerImage_free (by exact pend) (by exact free) _

theorem takeHead_newHead (idle : s.im.sender = .idle) (timer : s.im.timer = none) (transfer : s.im.transfer = none) :
    s.newHead s.takeHead := by
  refine ⟨fun id dst rest x hq hx run known => ?_, fun h => ?_⟩
  · rw [takeHead_takes hq hx idle run known]
    have same : (s.headTaken id dst rest x).im = { s.im with
        sendQueue := rest, sender := .beginSent, timer := none, transferCount := s.im.transferCount + 1
        transfer := some ⟨id, dst, s.im.transferCount + 1, 1, (x.byteSize + 1023) / 1024, 0, none⟩
        offered := (s.headTaken id dst rest x).im.offered } := by
      unfold State.headTaken State.offerImage
      split <;> rfl
    rw [same]
    refine ⟨rfl, rfl, rfl, rfl, rfl, fun pend free => ?_⟩
    rw [headTaken_rc s pend free]
    exact ⟨free, rfl⟩
  · rw [takeHead_stays h]
    exact ⟨rfl, idle, timer, transfer, rfl, rfl, rfl⟩

/-- The look for a new head, told of a state before the transfer in hand ended. -/
theorem State.newHead.of (h : b.newHead a) (queue : b.im.sendQueue = s.im.sendQueue) (count : b.im.transferCount = s.im.transferCount)
    (offered : b.im.offered = s.im.offered) (ring : b.rc.ringState = s.rc.ringState)
    (pend : b.rc.imagePending = s.rc.imagePending)
    (strips : ∀ id x, s.strip id = some x → ∃ l, b.strip id = some { x with sending := l }) : s.newHead a := by
  obtain ⟨takes, stays⟩ := h
  rw [queue, count, ring, pend, offered] at takes
  rw [queue, count, ring, pend, offered] at stays
  refine ⟨fun id dst rest x hq hx run known => ?_, fun h => stays (h.imp_right (.imp_right ?_))⟩
  · obtain ⟨l, hl⟩ := strips id x hx
    exact takes id dst rest { x with sending := l } hq hl run known
  · rintro ⟨id, dst, rest, x, hq, hx, known⟩
    obtain ⟨l, hl⟩ := strips id x hx
    exact ⟨id, dst, rest, _, hq, hl, known⟩

theorem closeTransfer_strip {k : Transfer} {done : Bool} (hx : s.strip id = some x) :
    ∃ l, (s.closeTransfer k done).strip id = some { x with sending := l } := by
  have strips : (s.closeTransfer k done).is.strips = s.is.strips.map (fun p => if p.id = k.strip then
      { p with sending := p.sending.filter (fun h => h != k.dst) } else p) := by cases done <;> rfl
  unfold State.strip
  rw [strips, List.find?_map]
  have same : (fun p : Strip => p.id == id) ∘ (fun p : Strip => if p.id = k.strip then
      { p with sending := p.sending.filter (fun h => h != k.dst) } else p) = fun p => p.id == id := by
    funext p
    rw [Function.comp]
    split <;> rfl
  have hx' : s.is.strips.find? (fun p => p.id == id) = some x := hx
  rw [same, hx', Option.map_some]
  split
  · exact ⟨_, rfl⟩
  · exact ⟨x.sending, rfl⟩

/-- A transfer in hand that ends. -/
structure Ended (s a : State) (k : Transfer) (done : Bool) : Prop where
  keeps : Keeps (if done then [.rc, .is, .im] else [.rc, .is, .im, .cp]) s a
  head : s.newHead a
  rc : a.rc = { s.rc with imagePending := a.rc.imagePending }
  im : a.im = { s.im with
    sendQueue := a.im.sendQueue, sender := a.im.sender, timer := none, transferCount := a.im.transferCount
    transfer := a.im.transfer, offered := a.im.offered
    transfersDone := if done then satInc s.im.transfersDone else s.im.transfersDone
    transfersDropped := if done then s.im.transfersDropped else satInc s.im.transfersDropped }
  is : a.is = { s.is with strips := s.is.strips.map (fun y =>
    if y.id = k.strip then { y with sending := y.sending.filter (fun h => h != k.dst) } else y) }
  cp : a.cp = if done then s.cp else s.cp.notified s.cp.routes.imageDropped 256#11

theorem endTransfer_ended (hk : s.im.transfer = some k) (done : Bool) : Ended s (s.endTransfer done) k done := by
  have e : s.endTransfer done = (s.closeTransfer k done).takeHead := by unfold State.endTransfer; rw [hk]
  have strips := fun id x => closeTransfer_strip (s := s) (id := id) (x := x) (k := k) (done := done)
  have kept : Keeps (if done then [.is, .im] else [.is, .im, .cp]) s (s.closeTransfer k done) := by
    cases done with
    | true => exact ((keeps_onStrip _ _ _).mono (by decide)).trans ((keeps_onIm _ _).mono (by decide))
    | false =>
      exact (((keeps_onStrip _ _ _).mono (by decide)).trans ((keeps_notify _ _).mono (by decide))).trans
        ((keeps_onIm _ _).mono (by decide))
  have rc : (s.closeTransfer k done).rc = s.rc := by cases done <;> rfl
  have im : (s.closeTransfer k done).im = { s.im with
      timer := none, transfer := none, sender := .idle
      transfersDone := if done then satInc s.im.transfersDone else s.im.transfersDone
      transfersDropped := if done then s.im.transfersDropped else satInc s.im.transfersDropped } := by cases done <;> rfl
  have is : (s.closeTransfer k done).is = { s.is with strips := s.is.strips.map (fun y =>
      if y.id = k.strip then { y with sending := y.sending.filter (fun h => h != k.dst) } else y) } := by cases done <;> rfl
  have cp : (s.closeTransfer k done).cp = if done then s.cp else s.cp.notified s.cp.routes.imageDropped 256#11 := by
    cases done <;> rfl
  rw [e]
  generalize s.closeTransfer k done = b at *
  have look := takeHead_looked b
  have head := takeHead_newHead (s := b) (by rw [im]) (by rw [im]) (by rw [im])
  have timer := look.timer (by rw [im])
  generalize b.takeHead = a at look head timer ⊢
  obtain ⟨keeps, hrc, him, -⟩ := look
  refine ⟨?_, head.of (by rw [im]) (by rw [im]) (by rw [im]) (by rw [rc]) (by rw [rc]) strips, by rw [hrc, rc], ?_, ?_, ?_⟩
  · cases done with
    | true => exact (kept.mono (by decide)).trans (keeps.mono (by decide))
    | false => exact (kept.mono (by decide)).trans (keeps.mono (by decide))
  · rw [him, im, timer]
  · rw [← is]
    exact keeps.2.2.2 .is (by decide)
  · rw [← cp]
    exact keeps.2.2.2 .cp (by decide)

/-! ### The control store -/

theorem storeControl_eq (s : State) (e : StoreEntry) : s.storeControl e =
    (s.onIm (fun m => { m with store := (m.store ++ [e]).drop (8 - s.rc.controlQueue.length) })).onRc
      (RC.filled .imageMover ((s.im.store ++ [e]).map (fun e => e.frame)) (8 - s.rc.controlQueue.length)) := by
  unfold State.storeControl
  rw [offerControl_eq, dropMany_mover]
  rfl

/-- With the store empty and room in the control queue, the frame goes straight into the queue. -/
theorem storeControl_direct (empty : s.im.store = []) (room : s.rc.controlQueue.length < 8) (e : StoreEntry) :
    s.storeControl e = s.onRc (fun r => { r with controlQueue := r.controlQueue ++ [e.frame] }) := by
  rw [storeControl_eq, empty]
  obtain ⟨n, hn⟩ := Nat.exists_eq_add_one.mpr (Nat.sub_pos_of_lt room)
  rw [hn, onIm_same (f := fun m => { m with store := (m.store ++ [e]).drop (n + 1) }) (by
    rw [empty, List.nil_append, List.drop_succ_cons, List.drop_nil, ← empty])]
  exact congrArg (State.onRc s) (funext fun r => (filled_cons _ _ [] n r).trans (filled_nil _ _ _))

/-- A frame that needs a general place touches the control store and the control queue alone. -/
theorem makeGeneral_fields (s : State) (f : OwnFrame) : Keeps [.rc, .im] s (s.makeGeneral f)
    ∧ (s.makeGeneral f).im = { s.im with store := (s.makeGeneral f).im.store, notMade := (s.makeGeneral f).im.notMade }
    ∧ (s.makeGeneral f).rc = { s.rc with
        controlQueue := (s.makeGeneral f).rc.controlQueue, controlWaiters := (s.makeGeneral f).rc.controlWaiters } := by
  unfold State.makeGeneral
  split
  · rw [storeControl_eq]
    exact ⟨((keeps_onIm _ _).mono (by decide)).trans ((keeps_onRc _ _).mono (by decide)), rfl, rfl⟩
  · exact ⟨(keeps_onIm _ _).mono (by decide), rfl, rfl⟩

/-! ### The timeouts of the sender -/

theorem senderTimedOut_due {st : SenderState} (hs : s.im.sender = st) (hc : s.im.timer = some c) (due : c.limit ≤ c.count) :
    s.senderTimedOut st = true := by
  unfold State.senderTimedOut
  rw [hs, hc, decide_eq_true rfl]
  exact decide_eq_true due

theorem senderTimedOut_off {st : SenderState} (h : s.im.timer = none) : s.senderTimedOut st = false := by
  unfold State.senderTimedOut
  rw [h]
  exact Bool.and_false _

theorem attemptFailed_retries (hk : s.im.transfer = some k) (h : k.attempt < 8) : s.attemptFailed = s.onIm (fun m => { m with
    transfer := some { k with attempt := k.attempt + 1 }, timer := some ⟨0, 2⟩, sender := .retryWait }) := by
  unfold State.attemptFailed
  rw [hk]
  exact if_pos h

theorem attemptFailed_ends (hk : s.im.transfer = some k) (h : 8 ≤ k.attempt) : s.attemptFailed = s.endTransfer false := by
  unfold State.attemptFailed
  rw [hk]
  exact if_neg (Nat.not_lt.2 h)

theorem offerSegment_free (hx : s.strip k.strip = some x) (pend : s.rc.imagePending = none) (free : s.im.offered = []) :
    s.offerSegment k = s.onRc (fun r => { r with imagePending := some (s.segment k x k.nextSeg) }) := by
  unfold State.offerSegment
  rw [hx]
  exact offerImage_free pend free _

theorem segment_first (x : Strip) (first : k.nextSeg = 0) : s.segment k x k.nextSeg = ⟨k.dst, .imageSegment k.strip k.number 0
    (if 1 < k.segCount then 1024 else x.byteSize - (k.segCount - 1) * 1024)
    ((List.range (if 1 < k.segCount then 1024 else x.byteSize - (k.segCount - 1) * 1024)).map
      (fun j => memRead s.is.mem (tileAddr x.tiles j)))⟩ := by
  rw [first]
  unfold State.segment tileBytes tileByte
  simp only [Nat.zero_mul, Nat.zero_add]

theorem inHand_named (hk : s.im.transfer = some k) : s.inHand k.dst k.number = some k := by
  unfold State.inHand
  rw [hk, Option.filter_some, if_pos]
  rw [decide_eq_true rfl, decide_eq_true rfl]
  rfl

theorem inHand_other {src : Nat} {number : BitVec 16}
    (h : s.im.transfer.all (fun k => decide (k.dst ≠ src) || decide (k.number ≠ number)) = true) : s.inHand src number = none := by
  unfold State.inHand
  cases hk : s.im.transfer with
  | none => rfl
  | some k =>
    rw [hk, Option.all_some, Bool.or_eq_true, decide_eq_true_eq, decide_eq_true_eq] at h
    rw [Option.filter_some, if_neg]
    rw [Bool.and_eq_true, decide_eq_true_eq, decide_eq_true_eq]
    exact fun c => h.elim (· c.1) (· c.2)

end Sys2Proof.Machine

open Sys2Proof Sys2Proof.Machine

/-- Settles O44: each row is one step of the sender, and a transfer that ends looks at once for a new head. -/
theorem senderAttempts : Obligations.SenderAttempts := by
  intro s t id dst rest x k c
  refine ⟨fun idle run hq hx known pend free => ?take, fun hs hc due hk hx pend free => ?retry, fun hs hc due hk more => ?fails,
    fun hc due hk q hq => ?drops, fun off i hi => ?off⟩
  case take =>
    have act : (s.advance t).takeHead = _ := (takeHead_takes (s := s.advance t) hq hx idle run known).trans
      (headTaken_rc (s.advance t) pend free _ _ _ _)
    refine ⟨_, congrArg (finish s) act, frame_finish ?_, rfl, rfl⟩
    exact ((keeps_onIm _ _).mono (by decide)).trans ((keeps_onRc _ _).mono (by decide))
  case retry =>
    have act : (s.advance t).retryWaitExpiry = _ := (if_pos (senderTimedOut_due (s := s.advance t) hs hc due)).trans
      ((beginAttempt_eq (s := s.advance t) hk hx).trans (offerImage_free (by exact pend) (by exact free) _))
    refine ⟨_, congrArg (finish s) act, frame_finish ?_, rfl, rfl⟩
    exact ((keeps_onIm _ _).mono (by decide)).trans ((keeps_onRc _ _).mono (by decide))
  case fails =>
    have act : (s.advance t).beginTimeout = _ := (if_pos (senderTimedOut_due (s := s.advance t) hs hc due)).trans
      (attemptFailed_retries (s := s.advance t) hk more)
    exact ⟨_, congrArg (finish s) act, frame_finish (keeps_onIm _ _), rfl⟩
  case drops =>
    rcases List.mem_cons.1 hq with rfl | hq
    · intro hs last
      have act : (s.advance t).beginTimeout = _ := (if_pos (senderTimedOut_due (s := s.advance t) hs hc due)).trans
        (attemptFailed_ends (s := s.advance t) hk (last rfl))
      have e := endTransfer_ended (s := s.advance t) hk false
      refine ⟨_, congrArg (finish s) act, frame_finish e.keeps, e.head,
        (congrArg IM.transfersDropped e.im).trans rfl, (congrArg IM.transfersDone e.im).trans rfl,
        (congrArg IM.contexts e.im).trans rfl, e.is, e.cp, fun _ => e.rc, fun c => SenderState.noConfusion c, fun c => SenderState.noConfusion c⟩
    · obtain rfl := List.mem_singleton.1 hq
      intro hs _
      obtain ⟨keeps, im, rc⟩ := makeGeneral_fields (s.advance t) ⟨k.dst, .imageAbort true k.strip k.number .timeout⟩
      have act : (s.advance t).awaitCompleteTimeout =
          ((s.advance t).makeGeneral ⟨k.dst, .imageAbort true k.strip k.number .timeout⟩).endTransfer false := by
        refine (if_pos (senderTimedOut_due (s := s.advance t) hs hc due)).trans ?_
        rw [show (s.advance t).im.transfer = some k from hk]
      have made : s.im.generalFree = true → s.im.store = [] → s.rc.controlQueue.length < 8 →
          (s.advance t).makeGeneral ⟨k.dst, .imageAbort true k.strip k.number .timeout⟩ = (s.advance t).onRc (fun r => { r with
            controlQueue := r.controlQueue ++ [⟨k.dst, .imageAbort true k.strip k.number .timeout⟩] }) := fun free empty room =>
        (if_pos free).trans (storeControl_direct (s := s.advance t) empty room _)
      have notMade : s.im.generalFree = false →
          (s.advance t).makeGeneral ⟨k.dst, .imageAbort true k.strip k.number .timeout⟩ = (s.advance t).countNotMade := fun full =>
        if_neg (by rw [show (s.advance t).im.generalFree = false from full]; exact Bool.false_ne_true)
      generalize (s.advance t).makeGeneral ⟨k.dst, .imageAbort true k.strip k.number .timeout⟩ = b at keeps im rc act made notMade
      have strips : b.is = s.is := keeps.2.2.2 .is (by decide)
      have e := endTransfer_ended (s := b) (by rw [im]; exact hk) false
      have im' := e.im
      rw [im] at im'
      refine ⟨_, congrArg (finish s) act, frame_finish ((keeps.mono (by decide)).trans e.keeps),
        e.head.of (by rw [im]; rfl) (by rw [im]; rfl) (by rw [im]; rfl) (by rw [rc]; rfl) (by rw [rc]; rfl) (fun i y hy => ⟨y.sending, ?_⟩),
        (congrArg IM.transfersDropped im').trans rfl, (congrArg IM.transfersDone im').trans rfl,
        (congrArg IM.contexts im').trans rfl, e.is.trans (by rw [strips]), e.cp.trans ?_, fun c => SenderState.noConfusion c, fun _ free empty room => ?_, fun _ full => ?_⟩
      · unfold State.strip
        rw [strips]
        exact hy
      · rw [keeps.2.2.2 .cp (by decide)]
        rfl
      · refine (congrArg RC.controlQueue e.rc).trans ?_
        rw [made free empty room]
        rfl
      · refine (congrArg IM.notMade e.im).trans ?_
        rw [notMade full]
        rfl
  case off =>
    have still : ∀ st, (s.advance t).senderTimedOut st = false := fun st => senderTimedOut_off off
    have idle : ∀ {b : State} st, (if (s.advance t).senderTimedOut st then b else s.advance t) = s.advance t := fun st =>
      if_neg (by rw [still]; exact Bool.false_ne_true)
    simp only [List.mem_cons, List.not_mem_nil, or_false] at hi
    rcases hi with rfl | rfl | rfl
    · exact ⟨_, congrArg (finish s) (idle _), finish_idle s t⟩
    · exact ⟨_, congrArg (finish s) (idle _), finish_idle s t⟩
    · exact ⟨_, congrArg (finish s) (idle _), finish_idle s t⟩

/-- Settles O45: the frame names the transfer in hand or none, and each answer is one step of the sender. -/
theorem senderAnswers : Obligations.SenderAnswers := by
  intro s t k x src strip rx number st reason run hs
  have reply : ∀ st, exec (.imageReply t src strip number st rx) s = finish s ((s.advance t).takeReply src number st rx) :=
    fun st => congrArg (finish s) (deliverFrom_running (s := s.advance t) run hs 7 _)
  have aborts : exec (.imageAbortToSender t src strip number reason) s =
      finish s ((s.advance t).takeAbortToSender src number reason) :=
    congrArg (finish s) (deliverFrom_running (s := s.advance t) run hs 6 _)
  refine ⟨fun hk hd hn => ?_, fun none => ⟨⟨_, ?_, finish_idle s t⟩,
    ⟨markDirty s ((s.advance t).onIm (fun m => { m with abortsToSender := satInc m.abortsToSender })), ?_,
      frame_finish (keeps_onIm _ _), rfl⟩⟩⟩
  · subst hd hn
    have named : (s.advance t).inHand k.dst k.number = some k := inHand_named hk
    refine ⟨fun sent hx pend free => ?accept, fun sent more => ?busy, fun wait => ?complete, fun active => ?abort, fun c => ?unlisted⟩
    case accept =>
      have act : (s.advance t).takeReply k.dst k.number .accept rx = ((s.advance t).onIm (fun m => { m with
          transfer := some { k with receiverStrip := some rx, nextSeg := 0 }, timer := none, sender := .sending })).offerSegment
            { k with receiverStrip := some rx, nextSeg := 0 } := by
        unfold State.takeReply
        rw [named, show (s.advance t).im.sender = .beginSent from sent]
      replace act := act.trans (offerSegment_free (by exact hx) (by exact pend) (by exact free))
      refine ⟨_, (reply _).trans (congrArg (finish s) act), frame_finish ?_, rfl, ?_⟩
      · exact ((keeps_onIm _ _).mono (by decide)).trans ((keeps_onRc _ _).mono (by decide))
      · rw [segment_first (s := State.onIm _ _) (k := { k with receiverStrip := some rx, nextSeg := 0 }) x rfl]
        rfl
    case busy =>
      have act : (s.advance t).takeReply k.dst k.number .busy rx = (s.advance t).attemptFailed := by
        unfold State.takeReply
        rw [named, show (s.advance t).im.sender = .beginSent from sent]
      replace act := act.trans (attemptFailed_retries (s := s.advance t) hk more)
      exact ⟨_, (reply _).trans (congrArg (finish s) act), frame_finish (keeps_onIm _ _), rfl⟩
    case complete =>
      have act : (s.advance t).takeReply k.dst k.number .complete rx = (s.advance t).endTransfer true := by
        unfold State.takeReply
        rw [named, show (s.advance t).im.sender = .awaitComplete from wait]
      have e := endTransfer_ended (s := s.advance t) hk true
      exact ⟨_, (reply _).trans (congrArg (finish s) act), frame_finish e.keeps, e.head, e.rc, e.im, e.is⟩
    case abort =>
      have act : (s.advance t).takeAbortToSender k.dst k.number reason = ((s.advance t).onIm (fun m => { m with
          abortsToSender := satInc m.abortsToSender, lastAbort := some reason })).endTransfer false := by
        unfold State.takeAbortToSender
        rw [named]
        rcases active with h | h | h <;> rw [show (s.advance t).im.sender = _ from h] <;> rfl
      have e := endTransfer_ended (s := (s.advance t).onIm (fun m => { m with
          abortsToSender := satInc m.abortsToSender, lastAbort := some reason })) hk false
      exact ⟨_, aborts.trans (congrArg (finish s) act), frame_finish (((keeps_onIm _ _).mono (by decide)).trans e.keeps), e.head, e.rc,
        e.im, e.is, e.cp⟩
    case unlisted =>
      have act : (s.advance t).takeReply k.dst k.number (.unlisted c) rx = s.advance t := by
        unfold State.takeReply
        rw [named]
      exact ⟨_, (reply _).trans (congrArg (finish s) act), finish_idle s t⟩
  · rw [reply]
    unfold State.takeReply
    rw [inHand_other (s := s.advance t) none]
    rfl
  · rw [aborts]
    unfold State.takeAbortToSender
    rw [inHand_other (s := s.advance t) none]
    rfl

end

section
/-! SUPPORT. Reception: which context a frame finds, how an IMAGE BEGIN is judged, and how a reception ends. -/

namespace Sys2Proof.Machine

variable {s a b : State} {t : HubTime} {src : Nat} {f : BeginFields} {c : Fin 2} {r : Reception} {x : Strip}
  {p : Reception → Bool}

/-! ### Contexts -/

theorem findContext_none (h : ∀ i : Fin 2, ∀ r ∈ s.im.contexts.get i, p r = false) : s.findContext p = none := by
  have fails : ∀ i r, s.im.contexts.get i = some r → ¬ p r = true := fun i r hr => by
    rw [h i r hr]; exact Bool.false_ne_true
  unfold State.findContext
  cases h0 : s.im.contexts.get 0 with
  | none =>
    cases h1 : s.im.contexts.get 1 with
    | none => rfl
    | some q => exact if_neg (fails 1 q h1)
  | some r =>
    refine (if_neg (fails 0 r h0)).trans ?_
    cases h1 : s.im.contexts.get 1 with
    | none => rfl
    | some q => exact if_neg (fails 1 q h1)

/-- The context that is found: context 1 where context 0 does not match. -/
theorem findContext_some (hc : s.im.contexts.get c = some r) (hp : p r = true)
    (first : c = 1 → ∀ q ∈ s.im.contexts.get 0, p q = false) : s.findContext p = some (c, r) := by
  unfold State.findContext
  match c with
  | 0 =>
    rw [hc]
    exact if_pos hp
  | 1 =>
    rw [hc]
    cases h0 : s.im.contexts.get 0 with
    | none => exact if_pos hp
    | some q => exact (if_neg (by rw [first rfl q h0]; exact Bool.false_ne_true)).trans (if_pos hp)

theorem matchContext_none {number : BitVec 16} (h : ∀ i : Fin 2, ∀ r ∈ s.im.contexts.get i, r.src ≠ src ∨ r.number ≠ number) :
    s.matchContext src number = none :=
  findContext_none fun i r hr => by
    rw [Bool.and_eq_false_iff, decide_eq_false_iff_not, decide_eq_false_iff_not]
    exact h i r hr

theorem matchContext_some (hc : s.im.contexts.get c = some r)
    (first : c = 1 → ∀ q ∈ s.im.contexts.get 0, q.src ≠ r.src ∨ q.number ≠ r.number) :
    s.matchContext r.src r.number = some (c, r) :=
  findContext_some hc (by rw [decide_eq_true rfl, decide_eq_true rfl]; rfl) fun e q hq => by
    rw [Bool.and_eq_false_iff, decide_eq_false_iff_not, decide_eq_false_iff_not]
    exact first e q hq

/-- With an empty store the claims of the two contexts leave a general place. -/
theorem generalFree_empty (h : s.im.store = []) : s.im.generalFree = true := by
  have two := List.length_filter_le (fun c => s.im.emptyClaim c) (List.finRange 2)
  rw [List.length_finRange] at two
  refine decide_eq_true ?_
  unfold IM.placesTaken
  rw [h, List.length_nil]
  omega

theorem makeGeneral_direct (empty : s.im.store = []) (room : s.rc.controlQueue.length < 8) (f : OwnFrame) :
    s.makeGeneral f = s.onRc (fun r => { r with controlQueue := r.controlQueue ++ [f] }) :=
  (if_pos (generalFree_empty empty)).trans (storeControl_direct empty room _)

theorem makeFinal_direct (empty : s.im.store = []) (room : s.rc.controlQueue.length < 8) (c : Fin 2) (f : OwnFrame) :
    s.makeFinal c f = s.onRc (fun r => { r with controlQueue := r.controlQueue ++ [f] }) := by
  have same : s.onIm (fun m => { m with store := placeFinal m.store c f }) =
      s.onIm (fun m => { m with store := m.store ++ [⟨f, .final⟩] }) :=
    congrArg (fun l => s.onIm (fun m => { m with store := l })) (show placeFinal s.im.store c f = s.im.store ++ [⟨f, .final⟩] by
      rw [empty]; rfl)
  unfold State.makeFinal
  rw [same]
  exact storeControl_direct empty room ⟨f, .final⟩

/-! ### The judgement of an IMAGE BEGIN -/

/-- A BEGIN is well formed. -/
def soundBegin (f : BeginFields) : Prop :=
  f.camera ≤ 3 ∧ f.mode ≤ 1 ∧ 1 ≤ f.width ∧ f.width ≤ 4096 ∧ 1 ≤ f.rows ∧ f.rows ≤ 64
    ∧ f.byteSize = f.width * (if f.mode = 0 then 1 else 4) * f.rows ∧ f.byteSize ≤ 524288 ∧ f.segCount = (f.byteSize + 1023) / 1024

theorem modeOf_some {n : Nat} (h : n ≤ 1) : ∃ m, modeOf n = some m ∧ m = (if n = 0 then .grey else .cmyk)
    ∧ Mode.bytesPerPixel m = if n = 0 then 1 else 4 := by
  match n, h with
  | 0, _ => exact ⟨_, rfl, rfl, rfl⟩
  | 1, _ => exact ⟨_, rfl, rfl, rfl⟩

theorem modeOf_none {n : Nat} (h : ¬ n ≤ 1) : modeOf n = none := by
  match n with
  | 0 => exact absurd (by decide) h
  | 1 => exact absurd (by decide) h
  | n + 2 => rfl

theorem beginOk_sound (h : soundBegin f) : beginOk f = some (Fin.ofNat 4 f.camera, if f.mode = 0 then .grey else .cmyk) := by
  obtain ⟨camera, mode, rest⟩ := h
  obtain ⟨m, hm, rfl, size⟩ := modeOf_some mode
  unfold beginOk
  rw [toFin_some (k := 4) (Nat.lt_succ_of_le camera), hm]
  refine (if_pos ?_).trans ?_
  · rw [size]
    exact rest
  · exact congrArg (fun k => some (k, _)) (Fin.ext (Nat.mod_eq_of_lt (Nat.lt_succ_of_le camera)).symm)

theorem beginOk_malformed (h : ¬ soundBegin f) : beginOk f = none := by
  unfold beginOk
  by_cases camera : f.camera ≤ 3
  · by_cases mode : f.mode ≤ 1
    · obtain ⟨m, hm, -, size⟩ := modeOf_some mode
      rw [toFin_some (k := 4) (Nat.lt_succ_of_le camera), hm]
      refine if_neg fun rest => h ⟨camera, mode, ?_⟩
      rw [size] at rest
      exact rest
    · rw [modeOf_none mode]
      cases toFin 4 f.camera <;> rfl
  · rw [toFin_none (k := 4) (by omega)]

theorem takeBegin_new (h : ∀ i : Fin 2, ∀ r ∈ s.im.contexts.get i, r.src ≠ src ∨ r.srcStrip ≠ f.strip) :
    s.takeBegin src f = s.judgeBegin src f := by
  unfold State.takeBegin
  rw [findContext_none fun i r hr => by
    rw [Bool.and_eq_false_iff, decide_eq_false_iff_not, decide_eq_false_iff_not]
    exact h i r hr]

theorem judgeBegin_malformed (free : s.im.generalFree = true) (h : ¬ soundBegin f) :
    s.judgeBegin src f = s.makeGeneral (abortToSender src f.strip f.number .badBegin) := by
  unfold State.judgeBegin
  rw [if_neg (by rw [free]; exact Bool.noConfusion), beginOk_malformed h]

theorem freeContext_none (h : (s.im.contexts.get 0).isSome ∧ (s.im.contexts.get 1).isSome) : s.freeContext = none := by
  unfold State.freeContext
  rw [← Option.not_isSome, ← Option.not_isSome, h.1, h.2]
  rfl

theorem freeContext_lower (free : s.im.contexts.get c = none) (first : c = 1 → (s.im.contexts.get 0).isSome) :
    s.freeContext = some c := by
  unfold State.freeContext
  match c with
  | 0 => rw [free]; rfl
  | 1 =>
    rw [← Option.not_isSome, first rfl, free]
    rfl

theorem judgeBegin_busy (free : s.im.generalFree = true) (h : soundBegin f)
    (both : (s.im.contexts.get 0).isSome ∧ (s.im.contexts.get 1).isSome) :
    s.judgeBegin src f = s.makeGeneral (replyFrame src f .busy 0) := by
  unfold State.judgeBegin
  rw [if_neg (by rw [free]; exact Bool.noConfusion), beginOk_sound h, freeContext_none both]

/-- The strip that an accepted BEGIN creates. -/
noncomputable def State.arriving (s : State) (src : Nat) (f : BeginFields) : Strip :=
  newStrip s.newId (.remote src f.strip) (Fin.ofNat 4 f.camera) (if f.mode = 0 then .grey else .cmyk) f.width f.rows f.byteSize []
    (match f.stamp with
      | .known a n => .known a n
      | .unknown => .unknown) true

theorem reserve_eq (few : s.is.strips.length < 256) (room : tilesFor f.byteSize ≤ s.is.free.length) :
    s.reserve src f (Fin.ofNat 4 f.camera) (if f.mode = 0 then .grey else .cmyk) =
      some (s.addStrip (s.arriving src f) (tilesFor f.byteSize), s.newId, s.is.free.take (tilesFor f.byteSize)) := by
  unfold State.reserve State.room
  rw [if_neg (Nat.not_le.2 few), if_pos room]
  rfl

theorem judgeBegin_accepts (free : s.im.generalFree = true) (h : soundBegin f) (few : s.is.strips.length < 256)
    (room : tilesFor f.byteSize ≤ s.is.free.length) (hc : s.freeContext = some c) :
    s.judgeBegin src f = ((s.addStrip (s.arriving src f) (tilesFor f.byteSize)).onIm (fun m => { m with
      contexts := m.contexts.set c (some
        { src := src, srcStrip := f.strip, number := f.number, strip := s.newId
          reservation := s.is.free.take (tilesFor f.byteSize), segCount := f.segCount, nextSeg := 0, timer := 0 }) })).storeControl
      ⟨replyFrame src f .accept s.newId, .accept c⟩ := by
  unfold State.judgeBegin
  rw [if_neg (by rw [free]; exact Bool.noConfusion), beginOk_sound h, hc]
  dsimp only
  rw [reserve_eq few room]

end Sys2Proof.Machine

open Sys2Proof Sys2Proof.Machine

/-- Settles O46: the checks of R143 in their order. -/
theorem imageBeginIsJudged : Obligations.ImageBeginIsJudged := by
  intro s t src f c run hs new
  have act : exec (.imageBegin t src f) s = finish s ((s.advance t).judgeBegin src f) :=
    congrArg (finish s) ((deliverFrom_running (s := s.advance t) run hs 21 _).trans (takeBegin_new (s := s.advance t) new))
  refine ⟨fun full => ⟨_, act.trans (congrArg (finish s) (if_pos (decide_eq_false (Nat.not_lt.2 full)))),
    frame_finish (keeps_onIm _ _), rfl⟩, fun empty room => ?_⟩
  have free : (s.advance t).im.generalFree = true := generalFree_empty empty
  have general : ∀ g, (s.advance t).makeGeneral g = _ := makeGeneral_direct (s := s.advance t) empty room
  refine ⟨_, act, ?_⟩
  by_cases malformed : ¬ soundBegin f
  · refine Eq.mpr (if_pos malformed) ?_
    rw [judgeBegin_malformed free malformed, general]
    exact ⟨frame_finish (keeps_onRc _ _), rfl⟩
  refine Eq.mpr (if_neg malformed) ?_
  have sound := not_not.1 malformed
  by_cases both : (s.im.contexts.get 0).isSome ∧ (s.im.contexts.get 1).isSome
  · rw [if_pos both, judgeBegin_busy free sound both, general]
    exact ⟨frame_finish (keeps_onRc _ _), rfl⟩
  rw [if_neg both]
  intro few tiles hc first
  rw [judgeBegin_accepts (s := s.advance t) free sound few tiles (freeContext_lower hc first),
    storeControl_direct (s := State.onIm _ _) (by exact empty) (by exact room)]
  have range := freshId_range (s.is.strips.map (fun x => x.id)) 256 s.is.idCount
  refine ⟨frame_finish ?_, freshId_fresh (by rw [List.length_map]; exact few) _, range.1, range.2, rfl, rfl, rfl⟩
  exact (((keeps_onIs _ _).mono (by decide)).trans ((keeps_onIm _ _).mono (by decide))).trans ((keeps_onRc _ _).mono (by decide))

end

section
/-! SUPPORT. How a reception goes on and how it ends. -/

namespace Sys2Proof.Machine

variable {s a b : State} {t : HubTime} {c : Fin 2} {r : Reception} {x : Strip}

/-- A reception has been abandoned: its context is FREE, its strip gone, and its tiles are back on the free list. -/
structure Abandoned (s a : State) (c : Fin 2) (r : Reception) (x : Strip) : Prop where
  context : a.im.contexts.get c = none
  count : a.im.receptionsAbandoned = satInc s.im.receptionsAbandoned
  strip : a.strip r.strip = none
  free : a.is.free = s.is.free ++ r.reservation ++ x.tiles

theorem abandon_abandoned (hx : s.strip r.strip = some x) : Abandoned s (s.abandon c r) c r x where
  context := Table.get_set_self _ _ _
  count := rfl
  strip := (strip_removeStrip _ r.strip r.strip).trans (if_pos rfl)
  free := by rw [abandon_is, hx]; rfl

/-- With an empty control store and room in the control queue, an abandoned reception is told at once. -/
theorem abortReception_eq (empty : s.im.store = []) (room : s.rc.controlQueue.length < 8) (reason : AbortReason) :
    s.abortReception c r reason = (s.abandon c r).onRc (fun q => { q with
      controlQueue := q.controlQueue ++ [⟨r.src, .imageAbort false r.srcStrip r.number reason⟩] }) :=
  makeFinal_direct (s := s.abandon c r) empty room c _

theorem dropClaim_none (h : s.im.store = []) (c : Fin 2) : s.dropClaim c = s := by
  unfold State.dropClaim
  rw [h]
  exact onIm_same (f := fun m => { m with store := [] }) (by rw [← h])

/-- The ACCEPT of an abandoned reception, its mover's only waiting frame, is withdrawn, and the mover's wait is over. -/
theorem dropClaim_last {f : OwnFrame} (h : s.im.store = [⟨f, .accept c⟩]) : s.dropClaim c =
    (s.onIm (fun m => { m with store := [] })).onRc (fun q => { q with
      controlWaiters := q.controlWaiters.filter (fun b => b != .imageMover) }) := by
  have left : s.im.store.filter (fun e => e.place != .accept c) = [] := by
    rw [h]
    exact List.filter_cons_of_neg (by simp)
  unfold State.dropClaim
  rw [left]
  exact if_pos ⟨rfl, by rw [h]; exact List.cons_ne_nil _ _⟩

theorem segmentSize_eq (hx : s.strip r.strip = some x) (seg : Nat) :
    s.segmentSize r seg = if seg + 1 < r.segCount then 1024 else x.byteSize - (r.segCount - 1) * 1024 := by
  unfold State.segmentSize
  rw [hx]

theorem takeSegment_known {src strip seg count : Nat} {number : BitVec 16} {bytes : List Byte}
    (h : s.matchContext src number = some (c, r)) : s.takeSegment src strip number seg count bytes =
      if seg ≠ r.nextSeg ∨ count ≠ s.segmentSize r seg then s.abortReception c r .sequence else s.storeSegment c r bytes := by
  unfold State.takeSegment
  rw [h]

theorem takeSegment_unknown {src strip seg count : Nat} {number : BitVec 16} {bytes : List Byte}
    (h : s.matchContext src number = none) :
    s.takeSegment src strip number seg count bytes = s.makeGeneral (abortToSender src strip number .noTransfer) := by
  unfold State.takeSegment
  rw [h]

theorem takeAbortToReceiver_known {src : Nat} {number : BitVec 16} (h : s.matchContext src number = some (c, r)) :
    s.takeAbortToReceiver src number = (s.abandon c r).dropClaim c := by
  unfold State.takeAbortToReceiver
  rw [h]

theorem takeAbortToReceiver_unknown {src : Nat} {number : BitVec 16} (h : s.matchContext src number = none) :
    s.takeAbortToReceiver src number = s := by
  unfold State.takeAbortToReceiver
  rw [h]

/-- The bytes of a good segment are in the reservation, and its context goes on. -/
noncomputable def State.segmentKept (s : State) (c : Fin 2) (r : Reception) (bytes : List Byte) : State :=
  (s.onIs (fun st => { st with mem := tileStore st.mem r.reservation (r.nextSeg * 1024) bytes })).onIm (fun m =>
    { m with contexts := m.contexts.set c (some { r with nextSeg := r.nextSeg + 1, timer := 0 }) })

theorem storeSegment_eq (s : State) (c : Fin 2) (r : Reception) (bytes : List Byte) : s.storeSegment c r bytes =
    if r.nextSeg + 1 = r.segCount then
      (s.segmentKept c r bytes).completeReception c { r with nextSeg := r.nextSeg + 1, timer := 0 }
    else s.segmentKept c r bytes := rfl

theorem keeps_segmentKept (s : State) (c : Fin 2) (r : Reception) (bytes : List Byte) :
    Keeps [.is, .im] s (s.segmentKept c r bytes) :=
  ((keeps_onIs _ _).mono (by decide)).trans ((keeps_onIm _ _).mono (by decide))

/-- A reception has completed. -/
structure Completed (s a : State) (c : Fin 2) (r : Reception) (x : Strip) : Prop where
  keeps : Keeps [.rc, .is, .im] s a
  mem : a.is.mem = s.is.mem
  context : a.im.contexts.get c = none
  count : a.im.receptionsDone = satInc s.im.receptionsDone
  queue : a.rc.controlQueue = s.rc.controlQueue ++ [⟨r.src, .imageReply r.srcStrip r.number .complete r.strip⟩]
  strip : a.strip r.strip = some { x with tiles := r.reservation, fill := x.byteSize, receiving := false, complete := true }
  age : a.is.age = s.is.age ++ [r.strip]
  free : a.is.free = s.is.free

theorem fillStrip_strip {id : Nat} (hx : s.strip id = some x) (tiles : List Nat) : (s.fillStrip id tiles).strip id =
    some { x with tiles := tiles, fill := x.byteSize, receiving := false, complete := true } := by
  have filled : (s.onStrip id (fun x => { x with tiles := tiles, fill := x.byteSize, receiving := false })).strip id =
      some { x with tiles := tiles, fill := x.byteSize, receiving := false } := by
    rw [strip_map (s := s) id (fun x => { x with tiles := tiles, fill := x.byteSize, receiving := false }) (fun _ => rfl) rfl, hx]
    rfl
  unfold State.fillStrip
  rw [strip_map (s := State.onStrip _ _ _) id (fun x => { x with complete := true }) (fun _ => rfl) rfl, filled]
  rfl

theorem completeReception_completed (empty : s.im.store = []) (room : s.rc.controlQueue.length < 8)
    (hx : s.strip r.strip = some x) : Completed s (s.completeReception c r) c r x := by
  have e := makeFinal_direct (s := (s.fillStrip r.strip r.reservation).onIm (fun m => { m with
    contexts := m.contexts.set c none, receptionsDone := satInc m.receptionsDone })) empty room c
    ⟨r.src, .imageReply r.srcStrip r.number .complete r.strip⟩
  unfold State.completeReception
  rw [e]
  refine ⟨?_, rfl, Table.get_set_self _ _ _, rfl, rfl, fillStrip_strip hx _, rfl, rfl⟩
  have fills : Keeps [.is] s (s.fillStrip r.strip r.reservation) :=
    (keeps_onStrip _ _ _).trans ((keeps_onStrip _ _ _).trans (keeps_onIs _ _))
  exact (fills.mono (by decide)).trans (((keeps_onIm _ _).mono (by decide)).trans ((keeps_onRc _ _).mono (by decide)))

end Sys2Proof.Machine

open Sys2Proof Sys2Proof.Machine

/-- Settles O47: which context the frame is for, then the way in which the reception goes on or ends. -/
theorem receptionGoesOn : Obligations.ReceptionGoesOn := by
  intro s t src strip seg number bytes reason r x ctx run hs
  have segment : exec (.imageSegment t src strip number seg bytes.length bytes) s =
      finish s ((s.advance t).takeSegment src strip number seg bytes.length bytes) :=
    congrArg (finish s) (deliverFrom_running (s := s.advance t) run hs _ _)
  have aborts : exec (.imageAbortToReceiver t src strip number reason) s =
      finish s ((s.advance t).takeAbortToReceiver src number) :=
    congrArg (finish s) (deliverFrom_running (s := s.advance t) run hs _ _)
  refine ⟨fun hc hsrc hn first hx => ?_, fun none => ⟨fun empty room => ⟨_, segment.trans (congrArg (finish s)
    ((takeSegment_unknown (matchContext_none (s := s.advance t) none)).trans (makeGeneral_direct (s := s.advance t) empty room _))),
    frame_finish (keeps_onRc _ _), rfl⟩, _, aborts.trans (congrArg (finish s)
    (takeAbortToReceiver_unknown (matchContext_none (s := s.advance t) none))), finish_idle s t⟩⟩
  subst hsrc hn
  have found : (s.advance t).matchContext r.src r.number = some (ctx, r) := matchContext_some hc first
  have gone := abandon_abandoned (s := s.advance t) (c := ctx) (r := r) hx
  have kept := keeps_abandon (s.advance t) ctx r
  refine ⟨fun empty room => ⟨?segment, ?timeout, ?abort⟩, fun f last => ?withdrawn⟩
  case segment =>
    have act := takeSegment_known (s := s.advance t) (strip := strip) (seg := seg) (count := bytes.length) (bytes := bytes) found
    rw [segmentSize_eq (s := s.advance t) hx] at act
    by_cases good : seg = r.nextSeg ∧ bytes.length =
        (if seg + 1 < r.segCount then 1024 else x.byteSize - (r.segCount - 1) * 1024)
    · replace act := act.trans ((if_neg (by rw [not_or, not_not, not_not]; exact good)).trans (storeSegment_eq _ _ _ _))
      have good' := good
      obtain ⟨rfl, -⟩ := good
      have stored := keeps_segmentKept (s.advance t) ctx r bytes
      by_cases last : r.nextSeg + 1 = r.segCount
      · rw [if_pos last] at act
        have done := completeReception_completed (s := (s.advance t).segmentKept ctx r bytes) (c := ctx)
          (r := { r with nextSeg := r.nextSeg + 1, timer := 0 }) empty room hx
        refine ⟨_, segment.trans (congrArg (finish s) act), frame_finish ((stored.mono (by decide)).trans (done.keeps.mono (by decide))), ?_⟩
        rw [if_pos good', if_pos last]
        exact ⟨done.mem, done.context, done.count, done.queue, done.strip, done.age, done.free⟩
      · rw [if_neg last] at act
        refine ⟨_, segment.trans (congrArg (finish s) act), frame_finish (stored.mono (by decide)), ?_⟩
        rw [if_pos good', if_neg last]
        exact ⟨rfl, frame_finish stored, rfl, rfl⟩
    · replace act := act.trans ((if_pos (by rw [← not_and_or]; exact good)).trans (abortReception_eq (s := s.advance t) empty room _))
      refine ⟨_, segment.trans (congrArg (finish s) act), frame_finish ((kept.mono (by decide)).trans ((keeps_onRc _ _).mono (by decide))), ?_⟩
      rw [if_neg good]
      exact ⟨gone.context, gone.count, gone.strip, gone.free, rfl⟩
  case timeout =>
    have act : (s.advance t).segmentTimeout ctx =
        if 8 ≤ r.timer then (s.advance t).abortReception ctx r .timeout else s.advance t := by
      unfold State.segmentTimeout
      rw [show (s.advance t).im.contexts.get ctx = some r from hc]
    by_cases early : r.timer < 8
    · refine ⟨_, congrArg (finish s) (act.trans (if_neg (Nat.not_le.2 early))), ?_⟩
      rw [if_pos early]
      exact finish_idle s t
    · refine ⟨_, congrArg (finish s) (act.trans ((if_pos (Nat.not_lt.1 early)).trans
        (abortReception_eq (s := s.advance t) empty room _))), ?_⟩
      rw [if_neg early]
      exact ⟨frame_finish ((kept.mono (by decide)).trans ((keeps_onRc _ _).mono (by decide))), gone.context, gone.count, gone.strip,
        gone.free, rfl⟩
  case abort =>
    have act := (takeAbortToReceiver_known found).trans (dropClaim_none (s := (s.advance t).abandon ctx r) empty ctx)
    exact ⟨_, aborts.trans (congrArg (finish s) act), frame_finish kept, gone.context, gone.count, gone.strip, gone.free⟩
  case withdrawn =>
    have act := (takeAbortToReceiver_known found).trans (dropClaim_last (s := (s.advance t).abandon ctx r) last)
    refine ⟨_, aborts.trans (congrArg (finish s) act), frame_finish ?_, gone.context, rfl, ?_⟩
    · exact (kept.mono (by decide)).trans (((keeps_onIm _ _).mono (by decide)).trans ((keeps_onRc _ _).mono (by decide)))
    · rfl

end

section
/-! SUPPORT. The arbiter: which frame may start, and what its start frees. -/

namespace Sys2Proof.Machine

variable {s a : State} {t : HubTime} {c : Candidate} {f : OwnFrame} {k : Transfer} {x : Strip}

theorem windowOpen_iff (s : State) (t : HubTime) (n : Nat) : (s.advance t).windowOpen n = true ↔ s.opensFor t n := by
  unfold State.windowOpen State.opensFor
  by_cases down : s.isMaster = true ∧ s.rc.ringState = .down
  · exact iff_of_true (if_pos down) (.inl down)
  · refine Iff.trans (Eq.to_iff (congrArg (· = true) (if_neg down))) ?_
    refine Iff.trans ?_ (or_iff_right down).symm
    show (match (if s.isMaster then s.rc.nextOrigination else s.rc.expectedNext) with
      | some x => decide ((2 * n + 200 : Int) ≤ sdiff x t)
      | none => false) = true ↔ _
    cases (if s.isMaster then s.rc.nextOrigination else s.rc.expectedNext) with
    | none => exact iff_of_false Bool.false_ne_true (fun ⟨_, e, _⟩ => nomatch e)
    | some x =>
      rw [decide_eq_true_eq]
      exact ⟨fun h => ⟨x, rfl, h⟩, fun ⟨_, e, h⟩ => Option.some.inj e ▸ h⟩

/-- RING OUT is free and nothing is held. -/
structure OutFree (s : State) (t : HubTime) : Prop where
  transit : s.rc.transit = []
  out : s.rc.outLeft - (t - s.hubTime).toNat = 0

theorem ownFrameStart_opens (free : OutFree s t) (hc : s.rc.candidate = some c) (may : s.mayStart c = true)
    (opens : s.opensFor t ((s.advance t).candidateFrame c).length) :
    (s.advance t).ownFrameStart = ((s.advance t).startFrame ((s.advance t).candidateFrame c)).freePlace c := by
  unfold State.ownFrameStart
  rw [show (s.advance t).rc.candidate = some c from hc]
  exact if_pos ⟨free.transit, free.out, may, (windowOpen_iff s t _).2 opens⟩

/-- A data frame of the hub's own, whole. -/
noncomputable def State.wholeFrame (s : State) (f : OwnFrame) : Frame :=
  ⟨.data (f.fields (s.rc.hubAddress.getD 0)), 9 + f.payload.bytes.length, true⟩

theorem ownFrameStart_whole (free : OutFree s t) (hc : s.rc.candidate = some c) (run : s.rc.ringState = .running)
    (hf : (s.advance t).candidateFrame c = s.wholeFrame f) (may : s.mayStart c = s.running)
    (opens : s.opensFor t (9 + f.payload.bytes.length)) :
    exec (.ownFrameStart t) s = finish s (((s.advance t).startFrame (s.wholeFrame f)).freePlace c) := by
  have act := ownFrameStart_opens free hc (may.trans (decide_eq_true run)) (by rw [hf]; exact opens)
  rw [hf] at act
  exact congrArg (finish s) act

theorem ownFrameStart_shut (hc : s.rc.candidate = some c)
    (shut : ¬ s.opensFor t ((s.advance t).candidateFrame c).length) : (s.advance t).ownFrameStart = s.advance t := by
  unfold State.ownFrameStart
  rw [show (s.advance t).rc.candidate = some c from hc]
  exact if_neg fun h => shut ((windowOpen_iff s t _).1 h.2.2.2)

theorem ownFrameStart_waits (hc : s.rc.candidate = some c) (hf : (s.advance t).candidateFrame c = s.wholeFrame f)
    (shut : ¬ s.opensFor t (9 + f.payload.bytes.length)) : exec (.ownFrameStart t) s = finish s (s.advance t) :=
  congrArg (finish s) (ownFrameStart_shut hc (by rw [hf]; exact shut))

/-- The candidate starts, or no frame does. -/
theorem own_start {P : State → Prop} {l : List Blk} (free : OutFree s t) (hc : s.rc.candidate = some c) (may : s.mayStart c = true)
    {n : Nat} (hn : ((s.advance t).candidateFrame c).length = n)
    (k : Keeps l (s.advance t) (((s.advance t).startFrame ((s.advance t).candidateFrame c)).freePlace c))
    (h : P (markDirty s (((s.advance t).startFrame ((s.advance t).candidateFrame c)).freePlace c))) :
    ∃ s', exec (.ownFrameStart t) s = .next s' ∧ s.frame s' t l ∧ (s.opensFor t n → P s') ∧ (¬ s.opensFor t n → s.frame s' t []) := by
  subst hn
  by_cases opens : s.opensFor t ((s.advance t).candidateFrame c).length
  · exact ⟨_, congrArg (finish s) (ownFrameStart_opens free hc may opens), frame_finish k, fun _ => h, fun shut => absurd opens shut⟩
  · exact ⟨_, congrArg (finish s) (ownFrameStart_shut hc opens), frame_finish (.refl _ _), fun o => absurd o opens,
      fun _ => finish_idle s t⟩

theorem candidate_ring {g : RingFrameDue} (h : s.rc.ringFrameDue = some g) : s.rc.candidate = some (.ring g) := by
  unfold RC.candidate
  rw [h]

theorem candidate_control {q : List OwnFrame} (h : s.rc.ringFrameDue = none) (hq : s.rc.controlQueue = f :: q) :
    s.rc.candidate = some (.control f) := by
  unfold RC.candidate
  rw [h, hq]
  rfl

theorem candidate_view {q : List OwnFrame} (h : s.rc.ringFrameDue = none) (hc : s.rc.controlQueue = []) (hq : s.rc.viewQueue = f :: q) :
    s.rc.candidate = some (.view f) := by
  unfold RC.candidate
  rw [h, hc, hq]
  rfl

theorem candidate_image (h : s.rc.ringFrameDue = none) (hc : s.rc.controlQueue = []) (hv : s.rc.viewQueue = [])
    (hi : s.rc.imagePending = some f) : s.rc.candidate = some (.image f) := by
  unfold RC.candidate
  rw [h, hc, hv, hi]
  rfl

/-! ### Places that are freed -/

theorem startFrame_view (n : Frame) : (((s.advance t).startFrame n).onRc (fun r => { r with viewQueue := r.viewQueue.tail })).rc =
    { s.rc with ringOut := some ⟨n, t⟩, outLeft := 2 * n.length, outHeld := false, viewQueue := s.rc.viewQueue.tail } := rfl

theorem keeps_startFrame (s : State) (f : Frame) : Keeps [.rc] s (s.startFrame f) := keeps_onRc _ _

theorem giveControlPlace_none (h : s.rc.controlWaiters = []) : s.giveControlPlace = s := by
  unfold State.giveControlPlace
  rw [h]

/-- The oldest frame of the block that has waited longest takes the freed place. -/
theorem giveControlPlace_next {b : Block} {w : List Block} {g : OwnFrame} {gs : List OwnFrame} (h : s.rc.controlWaiters = b :: w)
    (new : b ∉ w) (hs : s.storeOf b = g :: gs) (room : s.rc.controlQueue.length = 7) : s.giveControlPlace =
      (s.dropStored b).onRc (fun r => { r with
        controlQueue := r.controlQueue ++ [g], controlWaiters := if gs = [] then w else w ++ [b] }) := by
  have e := offerControl_eq (s.onRc (fun r => { r with controlWaiters := w })) b
  have one : 8 - (s.onRc (fun r => { r with controlWaiters := w })).rc.controlQueue.length = 1 := by
    show 8 - s.rc.controlQueue.length = 1
    rw [room]
  rw [storeOf_onRc, hs, one, dropMany_onRc] at e
  unfold State.giveControlPlace
  rw [h]
  refine e.trans (show State.onRc (s.dropStored b) (fun r => RC.filled b (g :: gs) 1 { r with controlWaiters := w }) = _ from
    congrArg (State.onRc (s.dropStored b)) (funext fun r => ?_))
  refine congrArg (fun l => { r with controlQueue := r.controlQueue ++ [g], controlWaiters := l })
    (show (if (g :: gs).length ≤ 1 ∨ w.contains b = true then w else w ++ [b]) = if gs = [] then w else w ++ [b] from
      if_congr ?_ rfl rfl)
  rw [List.length_cons, Nat.succ_le_succ_iff, Nat.le_zero, List.length_eq_zero_iff, List.contains_iff_mem]
  exact or_iff_left new

theorem offerExports_none (h : ∀ i, ∀ e ∈ s.vu.exports.get i, e.due = .none) : s.offerExports = s := by
  have one : ∀ i, s.offerExport i = s := fun i => by
    unfold State.offerExport
    cases he : s.vu.exports.get i with
    | none => rfl
    | some e =>
      cases s.vu.offered with
      | none => exact if_pos (h i e he)
      | some o => rfl
  unfold State.offerExports
  split
  · generalize List.finRange 16 = l
    induction l with
    | nil => rfl
    | cons i l ih => rw [List.foldl_cons, one, ih]
  · rfl

theorem giveViewPlace_none (free : s.vu.offered = none) (h : ∀ i, ∀ e ∈ s.vu.exports.get i, e.due = .none) : s.giveViewPlace = s := by
  unfold State.giveViewPlace
  rw [free]
  exact offerExports_none h

theorem freeImagePlace_empty (h : s.im.offered = []) : s.freeImagePlace = s.onRc (fun r => { r with imagePending := none }) := by
  unfold State.freeImagePlace
  rw [h]
  exact onIm_same (s := State.onRc s _) (f := fun m => { m with offered := m.offered.tail }) 
    (congrArg (fun l => { s.im with offered := l }) (show s.im.offered.tail = s.im.offered by rw [h]; rfl))

/-- The sender touches itself and the image pending frame alone when its frame has gone. -/
theorem imageGone_fields (s : State) (f : OwnFrame) :
    Keeps [.rc, .im] s (s.imageGone f) ∧ (s.imageGone f).rc = { s.rc with imagePending := (s.imageGone f).rc.imagePending } := by
  have offered : ∀ b : State, ∀ k : Transfer, Keeps [.rc, .im] b (b.offerSegment k)
      ∧ (b.offerSegment k).rc = { b.rc with imagePending := (b.offerSegment k).rc.imagePending } := fun b k => by
    unfold State.offerSegment State.offerImage
    split
    · split
      · exact ⟨(keeps_onRc _ _).mono (by decide), rfl⟩
      · exact ⟨(keeps_onIm _ _).mono (by decide), rfl⟩
    · exact ⟨.refl _ b, rfl⟩
  unfold State.imageGone
  cases s.im.transfer with
  | none => exact ⟨.refl _ s, rfl⟩
  | some k =>
    cases f.payload with
    | imageBegin b =>
      dsimp only
      split
      · exact ⟨(keeps_onIm _ _).mono (by decide), rfl⟩
      · exact ⟨.refl _ s, rfl⟩
    | imageSegment _ _ _ _ _ =>
      dsimp only
      split
      · split
        · exact ⟨(keeps_onIm _ _).mono (by decide), rfl⟩
        · obtain ⟨o1, o2⟩ := offered (State.onIm s _) _
          exact ⟨((keeps_onIm _ _).mono (by decide)).trans o1, o2⟩
      · exact ⟨.refl _ s, rfl⟩
    | _ => exact ⟨.refl _ s, rfl⟩

theorem imageGone_begin {b : BeginFields} (hp : f.payload = .imageBegin b) : s.imageGone f =
    if s.im.sender = .beginSent ∧ s.im.transfer.any (fun k => decide (b.number = k.number)) = true then
      s.onIm (fun m => { m with timer := some ⟨0, 4⟩ }) else s := by
  unfold State.imageGone
  rw [hp]
  cases s.im.transfer with
  | none => exact (if_neg fun c => Bool.false_ne_true c.2).symm
  | some k =>
    refine if_congr ?_ rfl rfl
    rw [Option.any_some, decide_eq_true_eq]

theorem imageGone_segment {strip sg ct : Nat} {nb : BitVec 16} {bs : List Byte} (hp : f.payload = .imageSegment strip nb sg ct bs)
    (hs : s.im.sender = .sending) (hk : s.im.transfer = some k) (hn : k.number = nb) : s.imageGone f =
      if k.nextSeg + 1 = k.segCount then s.onIm (fun m => { m with
        transfer := some { k with nextSeg := k.nextSeg + 1 }, sender := .awaitComplete, timer := some ⟨0, 8⟩ })
      else (s.onIm (fun m => { m with transfer := some { k with nextSeg := k.nextSeg + 1 } })).offerSegment
        { k with nextSeg := k.nextSeg + 1 } := by
  unfold State.imageGone
  rw [hp, hk]
  exact if_pos ⟨hs, hn.symm⟩

theorem imageGone_stale {strip sg ct : Nat} {nb : BitVec 16} {bs : List Byte} (hp : f.payload = .imageSegment strip nb sg ct bs)
    (h : s.im.sender ≠ .sending ∨ s.im.transfer.all (fun k => decide (k.number ≠ nb)) = true) : s.imageGone f = s := by
  unfold State.imageGone
  rw [hp]
  cases hk : s.im.transfer with
  | none => rfl
  | some k =>
    refine if_neg fun c => h.elim (fun h => h c.1) fun h => ?_
    rw [hk, Option.all_some, decide_eq_true_eq] at h
    exact h c.2.symm

/-- The IMAGE BEGIN of the transfer in hand has started, or another one. -/
theorem placeFreed_begin {b : BeginFields} (empty : s.im.offered = []) (hp : f.payload = .imageBegin b) :
    (s.freeImagePlace.imageGone f).rc = { s.rc with imagePending := none }
      ∧ (s.freeImagePlace.imageGone f).im =
        (if s.im.sender = .beginSent ∧ s.im.transfer.any (fun k => decide (b.number = k.number)) = true then
          { s.im with timer := some ⟨0, 4⟩ } else s.im) := by
  rw [freeImagePlace_empty empty, imageGone_begin hp]
  by_cases named : s.im.sender = .beginSent ∧ s.im.transfer.any (fun k => decide (b.number = k.number)) = true
  · rw [if_pos named, if_pos (by exact named)]
    exact ⟨rfl, rfl⟩
  · rw [if_neg named, if_neg (by exact named)]
    exact ⟨rfl, rfl⟩

/-- A segment of the transfer in hand has started: the next one is offered, or it was the last. -/
theorem placeFreed_segment {strip sg ct : Nat} {nb : BitVec 16} {bs : List Byte} (empty : s.im.offered = [])
    (hp : f.payload = .imageSegment strip nb sg ct bs) (hs : s.im.sender = .sending) (hk : s.im.transfer = some k)
    (hn : k.number = nb) (hx : s.strip k.strip = some x) :
    (s.freeImagePlace.imageGone f).rc = { s.rc with
        imagePending := if k.nextSeg + 1 = k.segCount then none
          else some (s.segment { k with nextSeg := k.nextSeg + 1 } x (k.nextSeg + 1)) }
      ∧ (s.freeImagePlace.imageGone f).im = (if k.nextSeg + 1 = k.segCount then
          { s.im with transfer := some { k with nextSeg := k.nextSeg + 1 }, sender := .awaitComplete, timer := some ⟨0, 8⟩ }
        else { s.im with transfer := some { k with nextSeg := k.nextSeg + 1 } }) := by
  rw [freeImagePlace_empty empty, imageGone_segment (s := State.onRc _ _) hp hs hk hn]
  by_cases last : k.nextSeg + 1 = k.segCount
  · rw [if_pos last, if_pos last, if_pos last]
    exact ⟨rfl, rfl⟩
  · rw [if_neg last, if_neg last, if_neg last, offerSegment_free (s := State.onIm _ _) (by exact hx) rfl (by exact empty)]
    exact ⟨rfl, rfl⟩

theorem placeFreed_stale {strip sg ct : Nat} {nb : BitVec 16} {bs : List Byte} (empty : s.im.offered = [])
    (hp : f.payload = .imageSegment strip nb sg ct bs)
    (h : s.im.sender ≠ .sending ∨ s.im.transfer.all (fun k => decide (k.number ≠ nb)) = true) :
    (s.freeImagePlace.imageGone f).im = s.im ∧ (s.freeImagePlace.imageGone f).rc = { s.rc with imagePending := none } := by
  rw [freeImagePlace_empty empty, imageGone_stale hp (by exact h)]
  exact ⟨rfl, rfl⟩

/-- A frame of the image pending place has started. -/
theorem imageStart_fields (n : Frame) (f : OwnFrame) :
    Keeps [.rc, .im] (s.advance t) (((s.advance t).startFrame n).freePlace (.image f))
      ∧ (((s.advance t).startFrame n).freePlace (.image f)).rc.ringOut = some ⟨n, t⟩
      ∧ (((s.advance t).startFrame n).freePlace (.image f)).rc.outLeft = 2 * n.length := by
  have frees : ∀ b : State, Keeps [.rc, .im] b b.freeImagePlace := fun b =>
    ((keeps_onRc _ _).mono (by decide)).trans ((keeps_onIm _ _).mono (by decide))
  obtain ⟨gone, rc⟩ := imageGone_fields ((s.advance t).startFrame n).freeImagePlace f
  exact ⟨(((keeps_startFrame _ _).mono (by decide)).trans (frees _)).trans gone, (congrArg RC.ringOut rc).trans rfl,
    (congrArg RC.outLeft rc).trans rfl⟩

theorem imageStart_begin (n : Frame) {b : BeginFields} (empty : s.im.offered = []) (hp : f.payload = .imageBegin b) :
    (((s.advance t).startFrame n).freePlace (.image f)).rc =
        { s.rc with ringOut := some ⟨n, t⟩, outLeft := 2 * n.length, outHeld := false, imagePending := none }
      ∧ (((s.advance t).startFrame n).freePlace (.image f)).im =
        (if s.im.sender = .beginSent ∧ s.im.transfer.any (fun k => decide (b.number = k.number)) = true then
          { s.im with timer := some ⟨0, 4⟩ } else s.im) :=
  placeFreed_begin (s := (s.advance t).startFrame n) empty hp

theorem imageStart_segment (n : Frame) {strip sg ct : Nat} {nb : BitVec 16} {bs : List Byte} (empty : s.im.offered = [])
    (hp : f.payload = .imageSegment strip nb sg ct bs) (hs : s.im.sender = .sending) (hk : s.im.transfer = some k)
    (hn : k.number = nb) (hx : s.strip k.strip = some x) :
    (((s.advance t).startFrame n).freePlace (.image f)).rc = { s.rc with
        ringOut := some ⟨n, t⟩, outLeft := 2 * n.length, outHeld := false
        imagePending := if k.nextSeg + 1 = k.segCount then none
          else some (s.segment { k with nextSeg := k.nextSeg + 1 } x (k.nextSeg + 1)) }
      ∧ (((s.advance t).startFrame n).freePlace (.image f)).im = (if k.nextSeg + 1 = k.segCount then
          { s.im with transfer := some { k with nextSeg := k.nextSeg + 1 }, sender := .awaitComplete, timer := some ⟨0, 8⟩ }
        else { s.im with transfer := some { k with nextSeg := k.nextSeg + 1 } }) :=
  placeFreed_segment (s := (s.advance t).startFrame n) empty hp hs hk hn hx

theorem imageStart_stale (n : Frame) {strip sg ct : Nat} {nb : BitVec 16} {bs : List Byte} (empty : s.im.offered = [])
    (hp : f.payload = .imageSegment strip nb sg ct bs)
    (h : s.im.sender ≠ .sending ∨ s.im.transfer.all (fun k => decide (k.number ≠ nb)) = true) :
    (((s.advance t).startFrame n).freePlace (.image f)).im = s.im
      ∧ (((s.advance t).startFrame n).freePlace (.image f)).rc =
        { s.rc with ringOut := some ⟨n, t⟩, outLeft := 2 * n.length, outHeld := false, imagePending := none } := by
  exact placeFreed_stale (s := (s.advance t).startFrame n) empty hp h

/-- The oldest frame of the block that has waited longest has taken the freed place. -/
structure PlaceGiven (s a : State) (b : Block) (w : List Block) (g : OwnFrame) (gs : List OwnFrame) : Prop where
  keeps : Keeps [.rc, .se, .im, .vu] s a
  store : a.storeOf b = gs
  se : a.se = if b = .sectionEngine then { s.se with replies := gs } else s.se
  im : a.im = if b = .imageMover then { s.im with store := s.im.store.tail } else s.im
  vu : a.vu = if b = .viewUnit then { s.vu with controlList := gs } else s.vu
  rc : a.rc = { s.rc with controlQueue := s.rc.controlQueue ++ [g], controlWaiters := if gs = [] then w else w ++ [b] }

theorem giveControlPlace_given {b : Block} {w : List Block} {g : OwnFrame} {gs : List OwnFrame} (h : s.rc.controlWaiters = b :: w)
    (new : b ∉ w) (hs : s.storeOf b = g :: gs) (room : s.rc.controlQueue.length = 7) : PlaceGiven s s.giveControlPlace b w g gs := by
  rw [giveControlPlace_next h new hs room]
  have tail : (s.storeOf b).tail = gs := by rw [hs]; rfl
  have store := (storeOf_dropStored s b).trans tail
  subst tail
  cases b with
  | sectionEngine => exact ⟨((keeps_onSe _ _).mono (by decide)).trans ((keeps_onRc _ _).mono (by decide)), store, rfl, rfl, rfl, rfl⟩
  | imageMover => exact ⟨((keeps_onIm _ _).mono (by decide)).trans ((keeps_onRc _ _).mono (by decide)), store, rfl, rfl, rfl, rfl⟩
  | viewUnit => exact ⟨((keeps_onVu _ _).mono (by decide)).trans ((keeps_onRc _ _).mono (by decide)), store, rfl, rfl, rfl, rfl⟩

theorem PlaceGiven.started {b : Block} {w : List Block} {g : OwnFrame} {gs : List OwnFrame} {n : Frame}
    (hw : s.rc.controlWaiters = b :: w) (new : b ∉ w) (hs : s.storeOf b = g :: gs) (room : s.rc.controlQueue.tail.length = 7) :
    let a := (s.startFrame n).freePlace (.control f)
    Keeps [.rc, .se, .im, .vu] s a ∧ a.storeOf b = gs
      ∧ a.se = (if b = .sectionEngine then { s.se with replies := gs } else s.se)
      ∧ a.im = (if b = .imageMover then { s.im with store := s.im.store.tail } else s.im)
      ∧ a.vu = (if b = .viewUnit then { s.vu with controlList := gs } else s.vu)
      ∧ a.rc = { s.rc with
          ringOut := some ⟨n, s.hubTime⟩, outLeft := 2 * n.length, outHeld := false
          controlQueue := s.rc.controlQueue.tail ++ [g], controlWaiters := if gs = [] then w else w ++ [b] } := by
  obtain ⟨keeps, store, se, im, vu, rc⟩ := giveControlPlace_given (s := (s.startFrame n).onRc
    (fun r => { r with controlQueue := r.controlQueue.tail })) hw new (by cases b <;> exact hs) room
  exact ⟨(((keeps_startFrame s n).trans (keeps_onRc _ _)).mono (by decide)).trans keeps, store, se, im, vu, rc⟩

theorem storeOf_markDirty (s a : State) (b : Block) : (markDirty s a).storeOf b = a.storeOf b := by cases b <;> rfl

end Sys2Proof.Machine

open Sys2Proof Sys2Proof.Machine

/-- Settles O14: the window, then the place that the frame of each kind frees. -/
theorem ownFrameStarts : Obligations.OwnFrameStarts := by
  intro s t transit out
  have free : OutFree s t := ⟨transit, out⟩
  refine ⟨fun c hm due => ?census, fun r hm due => ?roster, fun f run due =>
    ⟨fun q hq => ?control, fun q hc hq offered due' => ?view, fun hc hv hi => ?image⟩⟩
  case census =>
    exact own_start (P := fun s' => s'.rc = _) free (candidate_ring due) hm rfl
      (((keeps_onRc _ _).trans (keeps_onRc _ _)).mono (by decide)) rfl
  case roster =>
    exact own_start (P := fun s' => s'.rc = _) free (candidate_ring due) hm rfl
      (((keeps_onRc _ _).trans (keeps_onRc _ _)).mono (by decide)) rfl
  case control =>
    obtain rfl : q = s.rc.controlQueue.tail := by rw [hq]; rfl
    by_cases opens : s.opensFor t (9 + f.payload.bytes.length)
    · have act := ownFrameStart_whole free (candidate_control due hq) run rfl rfl opens
      refine ⟨_, act, fun _ => ⟨fun none => ?_, fun b w g gs hw new hs room => ?_⟩, fun shut => absurd opens shut⟩
      · have still := giveControlPlace_none (s := ((s.advance t).startFrame (s.wholeFrame f)).onRc
          (fun r => { r with controlQueue := r.controlQueue.tail })) none
        rw [show State.freePlace _ (.control f) = _ from still]
        exact ⟨frame_finish ((keeps_startFrame _ _).trans (keeps_onRc _ _)), rfl⟩
      · obtain ⟨keeps, store, se, im, vu, rc⟩ := PlaceGiven.started (s := s.advance t) (f := f) (n := s.wholeFrame f) hw new
          (by cases b <;> exact hs) room
        generalize ((s.advance t).startFrame (s.wholeFrame f)).freePlace (.control f) = a at *
        replace vu : a.vu = if b = .viewUnit then { s.vu with controlList := gs } else s.vu := vu
        rw [← vu]
        exact ⟨frame_finish keeps, (storeOf_markDirty _ _ _).trans store, se, im, kept_markDirty s a, rc⟩
    · exact ⟨_, ownFrameStart_waits (candidate_control due hq) rfl opens, fun o => absurd o opens,
        fun _ => finish_idle s t⟩
  case view =>
    obtain rfl : q = s.rc.viewQueue.tail := by rw [hq]; rfl
    by_cases opens : s.opensFor t (9 + f.payload.bytes.length)
    · have act := ownFrameStart_whole free (candidate_view due hc hq) run rfl rfl opens
      have still := giveViewPlace_none (s := ((s.advance t).startFrame (s.wholeFrame f)).onRc
        (fun r => { r with viewQueue := r.viewQueue.tail })) offered due'
      refine ⟨_, act, ?_⟩
      rw [show State.freePlace _ (.view f) = _ from still]
      exact ⟨frame_finish ((keeps_startFrame _ _).trans (keeps_onRc _ _)), fun _ => startFrame_view (s.wholeFrame f), fun shut =>
        absurd opens shut⟩
    · exact ⟨_, ownFrameStart_waits (candidate_view due hc hq) rfl opens, frame_finish (.refl _ _),
        fun o => absurd o opens, fun _ => finish_idle s t⟩
  case image =>
    by_cases opens : s.opensFor t (9 + f.payload.bytes.length)
    · have act := ownFrameStart_whole free (candidate_image due hc hv hi) run rfl rfl opens
      obtain ⟨keeps, out, left⟩ := imageStart_fields (s := s) (t := t) (s.wholeFrame f) f
      exact ⟨_, act, frame_finish keeps, fun _ => ⟨out, left, fun b hp empty => imageStart_begin (s.wholeFrame f) empty hp⟩,
        fun _ strip nb sg ct bs hp empty => ⟨fun k x hs hk hn hx => imageStart_segment (s.wholeFrame f) empty hp hs hk hn hx,
          fun h => imageStart_stale (s.wholeFrame f) empty hp h⟩, fun shut => absurd opens shut⟩
    · exact ⟨_, ownFrameStart_waits (candidate_image due hc hv hi) rfl opens, frame_finish (.refl _ _),
        fun o => absurd o opens, fun o => absurd o opens, fun _ => finish_idle s t⟩

end

section
/-! SUPPORT. STRIP OPEN: which strips are reclaimed, and the strip that is created. -/

namespace Sys2Proof.Machine

variable {s a b : State} {t : HubTime} {p : PortNo} {g : Tag} {x : Strip} {l rest : List Strip} {n : Nat} {c : Fin 4} {trig w h : Nat}

/-! ### Reclaimed strips -/

/-- The ids of some strips. -/
abbrev idsOf (l : List Strip) : List Nat := l.map (fun x => x.id)

/-- The Image Store without some strips: their tiles have joined the free list. -/
noncomputable def IS.without (st : IS) (l : List Strip) : IS := { st with
  free := st.free ++ l.flatMap (fun x => x.tiles)
  age := st.age.filter (fun a => decide (a ∉ idsOf l))
  walk := st.walk.map (fun w => { w with
    candidates := w.candidates.map (fun c => if ∃ x ∈ l, c = some x.id then none else c) })
  strips := st.strips.filter (fun x : Strip => decide (x.id ∉ idsOf l)) }

/-- The Mark Scanner without the jobs of some strips. -/
noncomputable def MS.without (m : MS) (l : List Strip) : MS := { m with
  queue := m.queue.filter (fun q => decide (q.strip ∉ idsOf l))
  removed := if l = [] then m.removed
    else min 65535 (m.removed + (m.queue.filter (fun q => decide (q.strip ∈ idsOf l))).length) }

/-- Some strips have been reclaimed, one after another. -/
structure Reclaimed (s a : State) (l : List Strip) : Prop where
  keeps : Keeps [.is, .ms] s a
  is : a.is = s.is.without l
  ms : a.ms = s.ms.without l

theorem filter_length_disjoint {α : Type} (q : List α) (f g : α → Bool) (h : ∀ x, f x = true → g x = false) :
    (q.filter (fun x => f x || g x)).length = (q.filter f).length + (q.filter g).length := by
  induction q with
  | nil => rfl
  | cons x q ih =>
    rw [List.filter_cons, List.filter_cons, List.filter_cons]
    cases hf : f x with
    | true =>
      rw [h x hf]
      simp only [Bool.true_or, if_true, Bool.false_eq_true, if_false, List.length_cons, ih, Nat.add_right_comm]
    | false =>
      cases hg : g x with
      | true =>
        simp only [Bool.false_or, if_true, Bool.false_eq_true, if_false, List.length_cons, ih, Nat.add_assoc]
      | false => exact ih

theorem and_true_of_imp {p q : Bool} (h : p = true → q = true) : (p && q) = p := by
  cases p with
  | false => rfl
  | true => exact h rfl

theorem without_nil (s : State) : Reclaimed s s [] := by
  refine ⟨.refl _ s, ?_, ?_⟩
  · unfold IS.without
    simp only [List.flatMap_nil, List.append_nil, List.map_nil, List.not_mem_nil, not_false_eq_true, decide_true,
      List.filter_true, false_and, exists_false, if_false, List.map_id', Option.map_id']
  · unfold MS.without
    simp only [List.map_nil, List.not_mem_nil, not_false_eq_true, decide_true, List.filter_true, if_true]

theorem not_mem_ids_snoc (l : List Strip) (x : Strip) (i : Nat) :
    decide (i ∉ idsOf (l ++ [x])) = (decide (i ∉ idsOf l) && (i != x.id)) := by
  rw [Bool.eq_iff_iff, Bool.and_eq_true, decide_eq_true_eq, decide_eq_true_eq, bne_iff_ne, idsOf, List.map_append, List.mem_append,
    not_or]
  exact and_congr_right' (not_congr List.mem_singleton)

theorem IS.without_snoc (st : IS) (l : List Strip) (x : Strip) : ({ st.without l with
    strips := (st.without l).strips.filter (fun y => y.id != x.id)
    age := (st.without l).age.filter (fun a => a != x.id)
    free := (st.without l).free ++ x.tiles
    walk := (st.without l).walk.map (fun w => w.lose x.id) } : IS) = st.without (l ++ [x]) := by
  have strips : (st.without l).strips.filter (fun y => y.id != x.id) = (st.without (l ++ [x])).strips := by
    refine List.filter_filter.trans (List.filter_congr fun y _ => ?_)
    rw [not_mem_ids_snoc, Bool.and_comm]
  have age : (st.without l).age.filter (fun a => a != x.id) = (st.without (l ++ [x])).age := by
    refine List.filter_filter.trans (List.filter_congr fun y _ => ?_)
    rw [not_mem_ids_snoc, Bool.and_comm]
  have free : (st.without l).free ++ x.tiles = (st.without (l ++ [x])).free := by
    show st.free ++ _ ++ _ = st.free ++ _
    rw [List.flatMap_append, List.append_assoc, List.flatMap_singleton]
  have walk : (st.without l).walk.map (fun w => w.lose x.id) = (st.without (l ++ [x])).walk := by
    refine (Option.map_map _ _ _).trans (congrArg (fun f => Option.map f st.walk) (funext fun w => ?_))
    refine congrArg (fun q => { w with candidates := q }) (List.map_map.trans (congrArg (fun f => List.map f w.candidates) (funext fun c => ?_)))
    show (if (if ∃ y ∈ l, c = some y.id then none else c) = some x.id then none else (if ∃ y ∈ l, c = some y.id then none else c)) =
      if ∃ y ∈ l ++ [x], c = some y.id then none else c
    by_cases lost : ∃ y ∈ l, c = some y.id
    · have more : ∃ y ∈ l ++ [x], c = some y.id := lost.imp fun y hy => ⟨List.mem_append_left _ hy.1, hy.2⟩
      rw [if_pos lost, if_pos more]
      exact ite_self none
    · rw [if_neg lost]
      refine if_congr ⟨fun e => ⟨x, List.mem_append_right _ (List.mem_singleton_self x), e⟩, fun ⟨y, hy, e⟩ => ?_⟩ rfl rfl
      rcases List.mem_append.1 hy with hy | hy
      · exact absurd ⟨y, hy, e⟩ lost
      · rwa [← List.mem_singleton.1 hy]
  rw [strips, age, free, walk]
  rfl

theorem min_min_add (a b c : Nat) : min c (min c a + b) = min c (a + b) := by
  rcases Nat.le_total c a with h | h
  · rw [Nat.min_eq_left h, Nat.min_eq_left (Nat.le_add_right c b), Nat.min_eq_left (h.trans (Nat.le_add_right a b))]
  · rw [Nat.min_eq_right h]

theorem MS.without_snoc (m : MS) (l : List Strip) (x : Strip) (new : x.id ∉ idsOf l) :
    (m.without l).removeJobs x.id = m.without (l ++ [x]) := by
  have queue : (m.without l).queue.filter (fun j => j.strip != x.id) = (m.without (l ++ [x])).queue := by
    refine List.filter_filter.trans (List.filter_congr fun j _ => ?_)
    rw [not_mem_ids_snoc, Bool.and_comm]
  have left : ((m.without l).queue.filter (fun j => j.strip == x.id)).length = (m.queue.filter (fun j => j.strip == x.id)).length := by
    refine congrArg List.length (List.filter_filter.trans (List.filter_congr fun j _ => ?_))
    refine and_true_of_imp fun e => ?_
    rw [eq_of_beq e]
    exact decide_eq_true new
  have count : (m.queue.filter (fun q => decide (q.strip ∈ idsOf (l ++ [x])))).length =
      (m.queue.filter (fun q => decide (q.strip ∈ idsOf l))).length + (m.queue.filter (fun j => j.strip == x.id)).length := by
    rw [← filter_length_disjoint _ _ _ (fun j hj => ?_)]
    · refine congrArg List.length (List.filter_congr fun j _ => ?_)
      rw [Bool.eq_iff_iff, Bool.or_eq_true, decide_eq_true_eq, decide_eq_true_eq, beq_iff_eq, idsOf, List.map_append, List.mem_append]
      exact or_congr_right List.mem_singleton
    · rw [beq_eq_false_iff_ne]
      exact fun e => new (e ▸ of_decide_eq_true hj)
  have removed : ((m.without l).removeJobs x.id).removed = (m.without (l ++ [x])).removed := by
    show min 65535 ((if l = [] then m.removed else min 65535 (m.removed + _)) + _) = if l ++ [x] = [] then m.removed else _
    rw [left, if_neg (List.append_ne_nil_of_right_ne_nil l (List.cons_ne_nil x [])), count]
    by_cases none : l = []
    · rw [if_pos none, none]
      simp only [List.map_nil, List.not_mem_nil, decide_false, List.filter_false, List.length_nil, Nat.zero_add]
    · rw [if_neg none, min_min_add, Nat.add_assoc]
  show ({ m.without l with queue := _, removed := ((m.without l).removeJobs x.id).removed } : MS) = _
  rw [queue, removed]
  rfl

theorem Reclaimed.snoc (h : Reclaimed s a l) (hx : s.strip x.id = some x) (new : x.id ∉ idsOf l) :
    Reclaimed s (a.removeStrip x.id) (l ++ [x]) := by
  have there : a.strip x.id = some x := by
    unfold State.strip
    rw [h.is]
    refine (List.find?_filter ..).trans (Eq.trans (congrArg (fun f => List.find? f s.is.strips) (funext fun y => ?_)) hx)
    rw [Bool.eq_iff_iff, decide_eq_true_eq]
    refine and_iff_right_of_imp fun e => ?_
    rw [eq_of_beq e]
    exact decide_eq_true new
  refine ⟨h.keeps.trans (keeps_removeStrip a x.id), ?_, ?_⟩
  · rw [removeStrip_is, there, h.is]
    exact IS.without_snoc _ _ _
  · exact (congrArg (MS.removeJobs · x.id) h.ms).trans (MS.without_snoc _ _ _ new)

/-- The first strips of a list are reclaimed, as many as it takes and no more. -/
theorem reclaimList_least (rest : List Strip) (h : Reclaimed s a l) (there : ∀ x ∈ rest, s.strip x.id = some x)
    (nodup : (idsOf (l ++ rest)).Nodup) :
    ∃ k ≤ rest.length, Reclaimed s (reclaimList n rest a) (l ++ rest.take k)
      ∧ (n ≤ (reclaimList n rest a).is.free.length ∨ k = rest.length)
      ∧ ∀ j < k, (s.is.without (l ++ rest.take j)).free.length < n := by
  induction rest generalizing a l with
  | nil => exact ⟨0, Nat.le_refl 0, by rw [List.take_nil, List.append_nil]; exact h, .inr rfl, fun j hj => absurd hj (Nat.not_lt_zero j)⟩
  | cons x rest ih =>
    by_cases enough : n ≤ a.is.free.length
    · refine ⟨0, Nat.zero_le _, ?_, .inl ?_, fun j hj => absurd hj (Nat.not_lt_zero j)⟩
      · rw [List.take_zero, List.append_nil, reclaimList, if_pos enough]
        exact h
      · rw [reclaimList, if_pos enough]
        exact enough
    · have split : l ++ x :: rest = (l ++ [x]) ++ rest := (List.append_cons l x rest)
      have new : x.id ∉ idsOf l := by
        rw [split, idsOf, List.map_append, List.map_append] at nodup
        exact fun hm => (List.nodup_append.1 (List.nodup_append.1 nodup).1).2.2 _ hm _ (List.mem_singleton_self _) rfl
      obtain ⟨k, hk, done, ends, least⟩ := ih (h.snoc (there x (List.mem_cons_self ..)) new)
        (fun y hy => there y (List.mem_cons_of_mem x hy)) (split ▸ nodup)
      refine ⟨k + 1, Nat.succ_le_succ hk, ?_, ?_, fun j hj => ?_⟩
      · rw [List.take_succ_cons, List.append_cons, reclaimList, if_neg enough]
        exact done
      · rw [reclaimList, if_neg enough]
        exact ends.imp_right (congrArg (· + 1))
      · cases j with
        | zero =>
          rw [List.take_zero, List.append_nil, ← h.is]
          exact Nat.not_le.1 enough
        | succ j =>
          rw [List.take_succ_cons, List.append_cons]
          exact least j (Nat.lt_of_succ_lt_succ hj)

theorem reclaimList_stays (l : List Strip) (s : State) (hx : x ∈ s.is.strips) (apart : ∀ y ∈ l, x.id ≠ y.id) :
    x ∈ (reclaimList n l s).is.strips := by
  induction l generalizing s with
  | nil => exact hx
  | cons y l ih =>
    unfold reclaimList
    split
    · exact hx
    · refine ih _ ?_ (fun z hz => apart z (List.mem_cons_of_mem y hz))
      rw [removeStrip_is]
      exact List.mem_filter.2 ⟨hx, bne_iff_ne.2 (apart y (List.mem_cons_self ..))⟩

/-- A strip that is pinned or not COMPLETE is never reclaimed. -/
theorem mayReclaim_apart (nodup : (idsOf s.is.strips).Nodup) (hx : x ∈ s.is.strips) (kept : x.pinned = true ∨ x.complete = false) :
    ∀ y ∈ s.mayReclaim, x.id ≠ y.id := fun y hy e => by
  obtain ⟨there, complete, unpinned⟩ := mayReclaim_complete s hy
  obtain rfl := List.inj_on_of_nodup_map nodup hx (strip_some there).1 e
  rcases kept with c | c
  · exact Bool.false_ne_true (unpinned.symm.trans c)
  · exact Bool.false_ne_true (c.symm.trans complete)

theorem mayReclaim_nodup (h : s.is.age.Nodup) : (idsOf s.mayReclaim).Nodup := by
  have ids : ∀ q : List Nat, List.Sublist (idsOf (q.filterMap (fun id => (s.strip id).filter (fun x => x.complete && !x.pinned)))) q := fun q => by
    induction q with
    | nil => exact .slnil
    | cons i q ih =>
      rw [List.filterMap_cons]
      split
      · exact ih.cons i
      next x hx =>
        obtain ⟨h1, -⟩ := Option.filter_eq_some_iff.1 hx
        rw [idsOf, List.map_cons, (strip_some h1).2]
        exact ih.cons_cons i
  exact h.sublist (ids _)

/-! ### The request -/

theorem bytesPerPixel_eq (m : Mode) : Mode.bytesPerPixel m = if m = .grey then 1 else 4 := by cases m <;> rfl

/-- The strip that a STRIP OPEN creates. -/
noncomputable def State.opened (s : State) (p : PortNo) (c : Fin 4) (trig w h id : Nat) (tiles : List Nat) : Strip :=
  newStrip id (.here p) c (s.camera c).mode w h (w * Mode.bytesPerPixel (s.camera c).mode * h) tiles ((s.camera c).stampOf trig) false

/-- A STRIP OPEN whose values are in range. -/
structure OpenFits (s : State) (c : Fin 4) (w h n : Nat) : Prop where
  low : 1 ≤ w
  high : w ≤ 4096
  rows : 1 ≤ h
  most : h ≤ 64
  size : w * Mode.bytesPerPixel (s.camera c).mode * h ≤ 524288
  tiles : n = tilesFor (w * Mode.bytesPerPixel (s.camera c).mode * h)

theorem reqStripOpen_eq (fit : OpenFits s c w h n) : reqStripOpen p (some c.val) (some trig) (some w) (some h) s =
    if 256 ≤ s.is.strips.length then (s, status .full)
    else (s.room n).elim (s, status .noRoom) (fun b =>
      (b.addStrip (s.opened p c trig w h b.newId (b.is.free.take n)) n,
        some (.done, valuesBytes [val 2 b.newId, some ((s.camera c).stampOf trig).bytes]))) := by
  obtain ⟨low, high, rows, most, size, rfl⟩ := fit
  unfold reqStripOpen
  rw [argFin_val]
  refine (if_neg (not_or.2 ⟨Nat.not_lt.2 low, not_or.2 ⟨Nat.not_lt.2 high, not_or.2 ⟨Nat.not_lt.2 rows,
    not_or.2 ⟨Nat.not_lt.2 most, Nat.not_lt.2 size⟩⟩⟩⟩)).trans (congrArg (fun r => if 256 ≤ s.is.strips.length then (s, status .full) else r) ?_)
  cases s.room (tilesFor (w * Mode.bytesPerPixel (s.camera c).mode * h)) <;> rfl

theorem room_held (h : n ≤ s.is.free.length) : s.room n = some s := if_pos h

theorem room_none (few : s.is.free.length < n)
    (h : s.tu.state = .capture ∨ s.is.free.length + (s.mayReclaim.flatMap (fun x => x.tiles)).length < n) : s.room n = none := by
  unfold State.room
  rw [if_neg (Nat.not_le.2 few)]
  by_cases c : s.tu.state = .capture
  · rw [if_pos c]
  · rw [if_neg c, if_pos]
    rw [← List.length_flatMap]
    exact h.resolve_left c

theorem room_reclaims (few : s.is.free.length < n) (c : s.tu.state ≠ .capture)
    (h : n ≤ s.is.free.length + (s.mayReclaim.flatMap (fun x => x.tiles)).length) :
    s.room n = some (reclaimList n s.mayReclaim s) := by
  unfold State.room
  rw [if_neg (Nat.not_le.2 few), if_neg c, if_neg]
  rw [← List.length_flatMap]
  exact Nat.not_lt.2 h

theorem keeps_reclaimList (n : Nat) (l : List Strip) (s : State) : Keeps [.is, .ms] s (reclaimList n l s) := by
  induction l generalizing s with
  | nil => exact .refl _ s
  | cons x l ih =>
    unfold reclaimList
    exact .ite (.refl _ s) ((keeps_removeStrip s x.id).trans (ih _))

/-- What has been reclaimed where the free list did not hold the tiles. -/
theorem reclaimed_least (few : s.is.free.length < n) (h : n ≤ s.is.free.length + (s.mayReclaim.flatMap (fun x => x.tiles)).length)
    (nodup : s.is.age.Nodup) :
    ∃ k ≤ s.mayReclaim.length, n ≤ s.is.free.length + ((s.mayReclaim.take k).flatMap (fun x => x.tiles)).length
      ∧ (∀ j < k, s.is.free.length + ((s.mayReclaim.take j).flatMap (fun x => x.tiles)).length < n)
      ∧ s.mayReclaim.take k ≠ [] ∧ Reclaimed s (reclaimList n s.mayReclaim s) (s.mayReclaim.take k) := by
  obtain ⟨k, hk, done, ends, least⟩ := reclaimList_least (n := n) s.mayReclaim (without_nil s)
    (fun x hx => (mayReclaim_complete s hx).1) (mayReclaim_nodup nodup)
  rw [List.nil_append] at done
  have enough : n ≤ s.is.free.length + ((s.mayReclaim.take k).flatMap (fun x => x.tiles)).length := by
    rcases ends with e | rfl
    · rw [done.is] at e
      exact e.trans (List.length_append).le
    · rw [List.take_length]
      exact h
  refine ⟨k, hk, enough, fun j hj => ?_, fun none => ?_, done⟩
  · rw [← List.length_append]
    exact least j hj
  · rw [none] at enough
    exact absurd (enough.trans (Nat.add_zero _).le) (Nat.not_le.2 few)

end Sys2Proof.Machine

open Sys2Proof Sys2Proof.Machine

/-- Settles O39: the free list holds the tiles, or the oldest strips give them, or there is no room. -/
theorem stripOpen : Obligations.StripOpen := by
  intro s t p g c trig w h n ht low high rows most size tiles
  rw [← bytesPerPixel_eq] at size tiles ⊢
  have fit : OpenFits (s.handed t p g) c w h n := ⟨low, high, rows, most, size, tiles⟩
  have act := reqStripOpen_eq (p := p) (trig := trig) fit
  intro stamp made old freed
  by_cases full : 256 ≤ s.is.strips.length
  · exact (request_refused (l := [.cp]) ht (act.trans (if_pos full)) (by decide)).imp fun s' a =>
      ⟨a.1, fun _ => ⟨a.2.1, a.2.2.cp⟩, fun few => absurd full (Nat.not_le.2 few)⟩
  replace act := act.trans (if_neg full)
  by_cases held : n ≤ s.is.free.length
  · rw [room_held (s := s.handed t p g) held] at act
    obtain ⟨s', a1, a2, a3⟩ := request_answered (l' := [.is, .cp]) ht act (keeps_onIs _ _) (by decide) (by decide)
    have new : s'.is.idCount = s.newId := (congrArg IS.idCount a3.is).trans rfl
    have range := freshId_range (s.is.strips.map (fun x => x.id)) 256 s.is.idCount
    refine ⟨s', a1, fun c => absurd c full, fun few _ => ⟨fun x hx _ => ?_, fun lack => absurd held (Nat.not_le.2 lack),
      fun _ => ⟨a2, ?_⟩, fun lack => absurd held (Nat.not_le.2 lack)⟩⟩
    · rw [a3.is]
      exact List.mem_append_left _ hx
    · rw [new]
      exact ⟨range.1, range.2, freshId_fresh (by rw [List.length_map]; exact few) _, a3.is, a3.cp⟩
  have lack := Nat.not_le.1 held
  by_cases no : s.tu.state = .capture ∨ s.is.free.length + (s.mayReclaim.flatMap (fun x => x.tiles)).length < n
  · rw [room_none (s := s.handed t p g) lack no] at act
    obtain ⟨s', a1, a2, a3⟩ := request_refused (l := [.cp]) ht act (by decide)
    refine ⟨s', a1, fun c => absurd c full, fun few _ => ⟨fun x hx _ => ?_, fun _ _ => ⟨a2, a3.cp⟩, fun c => absurd c held,
      fun _ calm enough => ?_⟩⟩
    · rw [a3.is]
      exact hx
    · refine absurd no (not_or.2 ⟨calm, Nat.not_lt.2 (enough.trans ?_)⟩)
      exact (congrArg (fun l => s.is.free.length + (List.flatMap (fun x : Strip => x.tiles) l).length) (List.take_length)).le
  obtain ⟨calm, enough⟩ := not_or.1 no
  have reclaims := room_reclaims (s := s.handed t p g) lack calm (Nat.not_lt.1 enough)
  rw [reclaims] at act
  obtain ⟨s', a1, a2, a3⟩ := request_answered (l' := [.is, .ms, .cp]) ht act
    ((keeps_reclaimList _ _ _).trans ((keeps_onIs _ _).mono (by decide))) (by decide) (by decide)
  refine ⟨s', a1, fun c => absurd c full, fun few nodup => ⟨fun x hx kept => ?_, fun _ c => absurd ?_ no, fun c => absurd c held,
    fun _ _ _ ageNodup => ?_⟩⟩
  · rw [a3.is]
    exact List.mem_append_left _ (reclaimList_stays _ _ hx (mayReclaim_apart (s := s.handed t p g) nodup hx kept))
  · refine c.imp_right fun c => lt_of_le_of_lt ?_ c
    exact (congrArg (fun l => s.is.free.length + (List.flatMap (fun x : Strip => x.tiles) l).length) (List.take_length).symm).le
  · obtain ⟨k, hk, most, least, some, done⟩ := reclaimed_least (s := s.handed t p g) lack (Nat.not_lt.1 enough) ageNodup
    have few' := lt_of_le_of_lt (reclaimList_strips n (s.handed t p g).mayReclaim (s.handed t p g)) few
    have is := a3.is
    have ms := a3.ms
    have cp := a3.cp
    have strips := congrArg IS.strips done.is
    generalize hb : reclaimList n (s.handed t p g).mayReclaim (s.handed t p g) = b at *
    have new : s'.is.idCount = b.newId := (congrArg IS.idCount is).trans rfl
    have range := freshId_range (b.is.strips.map (fun x => x.id)) 256 b.is.idCount
    have fresh : b.newId ∉ b.is.strips.map (fun x => x.id) := freshId_fresh (by rw [List.length_map]; exact few') b.is.idCount
    rw [strips] at fresh
    refine ⟨k, hk, most, least, a2, ?_⟩
    rw [new]
    refine ⟨range.1, range.2, is.trans ?_, fresh, ms.trans (done.ms.trans ?_), cp⟩
    · show ({ b.is with
        strips := b.is.strips ++ [(s.handed t p g).opened p c trig w h b.newId (b.is.free.take n)]
        idCount := b.newId, free := b.is.free.drop n } : IS) = _
      generalize b.newId = id
      rw [done.is]
      rfl
    · exact congrArg (fun r => { s.ms.without (s.mayReclaim.take k) with removed := r }) (if_neg some)

end

section
/-! SUPPORT. STRIP CLOSE: the cut, the transfers offered, and the jobs offered. -/

namespace Sys2Proof.Machine

variable {s a : State} {t : HubTime} {p : PortNo} {g : Tag} {id : Nat} {x y : Strip}

/-- After a request answered at once, where its block may have changed the ports: the blocks that it has not changed are as they
were, and of the others the Image Store, the Image Mover, the Mark Scanner and the Client Ports as it left them. -/
structure AnsweredWith (s a s' : State) (l : List Blk) (p : PortNo) (g : Tag) (st : Status) (bytes : List Byte) : Prop where
  su : Blk.su ∉ l → s'.su = s.su
  se : Blk.se ∉ l → s'.se = s.se
  tu : Blk.tu ∉ l → s'.tu = s.tu
  ru : Blk.ru ∉ l → s'.ru = s.ru
  is : s'.is = a.is
  im : s'.im = a.im
  ms : s'.ms = a.ms
  cp : s'.cp = a.cp.withPort p ((a.port p).ready g st bytes)

/-- A permitted request whose block answers at once, where the block changes the ports beside. -/
theorem request_replied {roles : List Role} {block : State → State × Reply} {st : Status} {bytes : List Byte} {l : List Blk}
    (h : s.takes p g roles) (hb : block (s.handed t p g) = (a, some (st, bytes))) (hk : Keeps l (s.handed t p g) a) :
    ∃ s', finishRequest s t p g roles block = .next s' ∧ AnsweredWith s a s' l p g st bytes := by
  refine ⟨_, finishRequest_taken h, ?_⟩
  rw [hb]
  exact ⟨fun c => hk.2.2.2 .su c, fun c => hk.2.2.2 .se c, fun c => hk.2.2.2 .tu c, fun c => hk.2.2.2 .ru c, rfl, rfl, rfl, rfl⟩

theorem strip_onStrip (f : Strip → Strip) (hf : ∀ x, (f x).id = x.id) (h : s.strip id = some x) :
    (s.onStrip id f).strip id = some (f x) := (strip_map id f hf rfl).trans (congrArg (Option.map f) h)

theorem strip_onStrip_other (f : Strip → Strip) (hf : ∀ x, (f x).id = x.id) {i : Nat} (h : i ≠ id) :
    (s.onStrip i f).strip id = s.strip id := by
  unfold State.strip State.onStrip State.onIs
  dsimp only
  induction s.is.strips with
  | nil => rfl
  | cons z l ih =>
    by_cases hz : z.id = i
    · have no : (z.id == id) = false := beq_false_of_ne (hz ▸ h)
      rw [List.map_cons, if_pos hz, List.find?_cons_of_neg (by rw [hf, no]; exact Bool.false_ne_true),
        List.find?_cons_of_neg (by rw [no]; exact Bool.false_ne_true), ih]
    · simp only [List.map_cons, if_neg hz, List.find?_cons, ih]

theorem onStrip_onStrip (f f' : Strip → Strip) (hf : ∀ x, (f x).id = x.id) :
    (s.onStrip id f).onStrip id f' = s.onStrip id (fun x => f' (f x)) := by
  unfold State.onStrip State.onIs
  refine congrArg (fun l => ({ s with is := { s.is with strips := l } } : State)) (List.map_map.trans (List.map_congr_left fun x _ => ?_))
  by_cases h : x.id = id
  · simp only [Function.comp_def, if_pos h, hf]
  · simp only [Function.comp_def, if_neg h]

/-- A strip that is being sent to some hubs beside. -/
noncomputable def Strip.sentTo (l : List Nat) (x : Strip) : Strip := { x with sending := x.sending ++ l }

/-! ### The transfers of a closed strip -/

/-- The pairs of a strip with some hubs join the send queue, and its SENDING pins it. -/
noncomputable def State.paired (s : State) (id : Nat) (l : List Nat) : State :=
  (s.onIm (fun m => { m with sendQueue := m.sendQueue ++ l.map (fun d => (id, d)) })).onStrip id
    (Strip.sentTo l)

theorem sentTo_nil (x : Strip) : x.sentTo [] = x :=
  congrArg (fun l => ({ x with sending := l } : Strip)) (List.append_nil _)

theorem paired_nil : s.paired id [] = s := by
  unfold State.paired State.onStrip State.onIs State.onIm
  simp only [List.map_nil, List.append_nil, sentTo_nil, ite_self, List.map_id']

theorem paired_paired (l l' : List Nat) : (s.paired id l).paired id l' = s.paired id (l ++ l') := by
  show (((s.onIm (fun m => { m with sendQueue := m.sendQueue ++ l.map (fun d => (id, d)) })).onIm (fun m =>
    { m with sendQueue := m.sendQueue ++ l'.map (fun d => (id, d)) })).onStrip id (Strip.sentTo l)).onStrip id (Strip.sentTo l') = _
  rw [onStrip_onStrip (Strip.sentTo l) (Strip.sentTo l') fun _ => rfl]
  unfold State.paired State.onIm
  simp only [List.map_append, List.append_assoc, Strip.sentTo]
  rfl

/-- The pairs with hubs that have none join the queue as far as it has room. -/
theorem offerTransfers_new (l : List Nat) (s : State) (nodup : l.Nodup)
    (new : ∀ d ∈ l, (id, d) ∉ s.im.sendQueue ∧ s.im.transfer.map (fun k => (k.strip, k.dst)) ≠ some (id, d)) :
    offerTransfers id l s = if 32 - s.im.sendQueue.length < l.length
      then (s.paired id (l.take (32 - s.im.sendQueue.length))).notify .imageDropped
      else s.paired id (l.take (32 - s.im.sendQueue.length)) := by
  induction l generalizing s with
  | nil => rw [List.take_nil, List.length_nil, if_neg (Nat.not_lt_zero _), paired_nil, offerTransfers]
  | cons d l ih =>
    obtain ⟨apart, nodup⟩ := List.nodup_cons.1 nodup
    obtain ⟨notQueued, notSent⟩ := new d (List.mem_cons_self ..)
    have fresh : ¬ (s.im.sendQueue.contains (id, d)
        || decide (s.im.transfer.map (fun k => (k.strip, k.dst)) = some (id, d))) = true := by
      rw [Bool.or_eq_true, List.contains_iff_mem, decide_eq_true_iff]
      exact not_or.2 ⟨notQueued, notSent⟩
    rw [offerTransfers, if_neg fresh]
    by_cases room : s.im.sendQueue.length < 32
    · obtain ⟨n, hn⟩ := Nat.exists_eq_add_one.mpr (Nat.sub_pos_of_lt room)
      have left : 32 - (s.paired id [d]).im.sendQueue.length = n := by
        show 32 - (s.im.sendQueue ++ [(id, d)]).length = n
        rw [List.length_append, List.length_singleton, Nat.sub_add_eq, hn, Nat.add_sub_cancel]
      have next := ih (s.paired id [d]) nodup (fun e he => by
        obtain ⟨h1, h2⟩ := new e (List.mem_cons_of_mem d he)
        refine ⟨fun h => (List.mem_append.1 h).elim h1 fun h => apart ?_, h2⟩
        cases List.mem_singleton.1 h
        exact he)
      rw [if_pos room, hn, List.take_succ_cons, List.length_cons]
      refine next.trans ?_
      rw [left, paired_paired, List.singleton_append]
      exact if_congr Nat.succ_lt_succ_iff.symm rfl rfl
    · rw [if_neg room, Nat.sub_eq_zero_of_le (Nat.le_of_not_lt room), List.take_zero, paired_nil]
      exact (if_pos (Nat.succ_pos _)).symm

/-- Whatever the queue holds, offering the transfers of a strip changes of the store where that strip is being sent. -/
theorem offerTransfers_keeps (l : List Nat) (s : State) : Keeps [.is, .im, .cp] s (offerTransfers id l s)
    ∧ (offerTransfers id l s).is = { s.is with strips := (offerTransfers id l s).is.strips }
    ∧ ∀ y, s.strip id = some y → ∃ d, (offerTransfers id l s).strip id = some { y with sending := d } := by
  induction l generalizing s with
  | nil => exact ⟨.refl _ s, rfl, fun y hy => ⟨_, hy⟩⟩
  | cons h l ih =>
    unfold offerTransfers
    split
    · exact ih s
    split
    · obtain ⟨k, is, kept⟩ := ih (s.paired id [h])
      refine ⟨Keeps.trans (((keeps_onIm _ _).mono (by decide)).trans ((keeps_onStrip _ _ _).mono (by decide))) k,
        is.trans rfl, fun y hy => ?_⟩
      exact kept (y.sentTo [h]) (strip_onStrip (Strip.sentTo [h]) (fun _ => rfl) hy)
    · exact ⟨(keeps_notify _ _).mono (by decide), rfl, fun y hy => ⟨_, hy⟩⟩

/-! ### The jobs of a closed strip -/

/-- Taking up a job changes of the store which strips are being scanned. -/
theorem takeUpFrom_keeps (q : List Job) (s : State) : (takeUpFrom q s).is = { s.is with strips := (takeUpFrom q s).is.strips }
    ∧ ∀ y, s.strip id = some y → ∃ b, (takeUpFrom q s).strip id = some { y with scanning := b } := by
  induction q generalizing s with
  | nil => exact ⟨rfl, fun y hy => ⟨_, hy⟩⟩
  | cons j q ih =>
    unfold takeUpFrom
    split
    · refine ⟨rfl, fun y hy => ?_⟩
      by_cases h : j.strip = id
      · subst h
        exact ⟨true, strip_onStrip (fun x => { x with scanning := true }) (fun _ => rfl) hy⟩
      · exact ⟨y.scanning, (strip_onStrip_other (fun x => { x with scanning := true }) (fun _ => rfl) h).trans hy⟩
    · obtain ⟨is, kept⟩ := ih (s.onMs (fun m => { m with void := satInc m.void }))
      exact ⟨is, kept⟩


theorem offerJob_keeps (s : State) (j : Job) : (s.offerJob j).is = { s.is with strips := (s.offerJob j).is.strips }
    ∧ ∀ y, s.strip id = some y → ∃ b, (s.offerJob j).strip id = some { y with scanning := b } := by
  unfold State.offerJob
  split
  · exact ⟨rfl, fun y hy => ⟨_, hy⟩⟩
  split
  · unfold State.takeUp
    split
    · exact ⟨rfl, fun y hy => ⟨_, hy⟩⟩
    · exact takeUpFrom_keeps _ _
  · exact ⟨rfl, fun y hy => ⟨_, hy⟩⟩

/-- Offering jobs changes of the store which strips are being scanned. -/
theorem offerJobs_keeps (l : List Job) (s : State) :
    (l.foldl State.offerJob s).is = { s.is with strips := (l.foldl State.offerJob s).is.strips }
    ∧ ∀ y, s.strip id = some y → ∃ b, (l.foldl State.offerJob s).strip id = some { y with scanning := b } := by
  induction l generalizing s with
  | nil => exact ⟨rfl, fun y hy => ⟨_, hy⟩⟩
  | cons j l ih =>
    obtain ⟨is, kept⟩ := offerJob_keeps (id := id) s j
    obtain ⟨is', kept'⟩ := ih (s.offerJob j)
    refine ⟨is'.trans ((congrArg (fun m : IS => { m with strips := (l.foldl State.offerJob (s.offerJob j)).is.strips }) is).trans rfl),
      fun y hy => ?_⟩
    obtain ⟨b, hb⟩ := kept y hy
    obtain ⟨b', hb'⟩ := kept' _ hb
    exact ⟨b', hb'⟩

/-- The rows of a strip in the window of a loop. -/
noncomputable def State.seen (s : State) (x : Strip) (theta : Angle) (i : SlotNo) : List Nat :=
  selectedRows theta (s.camera x.camera).pitch x.rows (s.loop i).mexp (s.loop i).window

/-- The jobs of a strip whose stamp is KNOWN, one for each loop that takes marks of it. -/
noncomputable def State.jobsOf (s : State) (x : Strip) (theta : Angle) : List Job :=
  ((List.finRange 16).filter (fun i => decide ((s.loop i).source = .image x.camera ∧ s.seen x theta i ≠ []))).map
    (fun i => (⟨x.id, i⟩ : Job))

theorem jobsOf_nodup (s : State) (x : Strip) (theta : Angle) : (s.jobsOf x theta).Nodup :=
  ((List.nodup_finRange 16).filter _).map fun _ _ h => congrArg Job.slot h

theorem jobsOf_length (s : State) (x : Strip) (theta : Angle) : (s.jobsOf x theta).length ≤ 16 := by
  rw [State.jobsOf, List.length_map]
  exact (List.length_filter_le _ _).trans (List.length_finRange ..).le

theorem jobsOf_strip {j : Job} {theta : Angle} (h : j ∈ s.jobsOf x theta) : j.strip = x.id ∧ s.seen x theta j.slot ≠ [] := by
  obtain ⟨i, hi, rfl⟩ := List.mem_map.1 h
  exact ⟨rfl, (of_decide_eq_true (List.mem_filter.1 hi).2).2⟩

theorem readyForSearch_unknown (hx : s.strip id = some x) (h : ∀ a k, x.stamp ≠ .known a k) : s.readyForSearch id = s := by
  unfold State.readyForSearch
  rw [hx]
  dsimp only
  cases x.origin with
  | remote _ _ => rfl
  | here _ =>
    cases x.complete with
    | false => rfl
    | true =>
      cases e : x.stamp with
      | known a k => exact absurd e (h a k)
      | _ => rfl

theorem readyForSearch_known {theta : Angle} {k : BitVec 16} (hx : s.strip id = some x) (here : x.origin = .here p)
    (complete : x.complete = true) (known : x.stamp = .known theta k) :
    s.readyForSearch id = (s.jobsOf x theta).foldl State.offerJob s := by
  have hid := (strip_some hx).2
  subst hid
  unfold State.readyForSearch State.jobsOf
  rw [hx, List.foldl_map]
  dsimp only
  rw [here, complete, known]
  refine congrArg (fun l => List.foldl _ s (List.filter l (List.finRange 16))) (funext fun i => ?_)
  unfold State.loopMatches
  rw [Bool.decide_and]
  refine congrArg (_ && ·) ?_
  show (!(s.seen x theta i).isEmpty) = _
  cases s.seen x theta i <;> rfl

/-- Jobs beside the scan in progress join the queue as far as it has room, and the others are counted. -/
theorem offerJobs_queued {q : Scan} (l : List Job) (s : State) (scan : s.ms.scan = some q) (nodup : l.Nodup)
    (new : ∀ j ∈ l, j ∉ s.ms.queue ∧ q.job ≠ j) : l.foldl State.offerJob s = s.onMs (fun m => { m with
      queue := m.queue ++ l.take (16 - s.ms.queue.length)
      skipped := (l.drop (16 - s.ms.queue.length)).foldl (fun n _ => satInc n) m.skipped }) := by
  induction l generalizing s with
  | nil => rw [List.take_nil, List.drop_nil]; exact congrArg (fun l => s.onMs (fun m => { m with queue := l })) (List.append_nil s.ms.queue).symm
  | cons j l ih =>
    obtain ⟨apart, nodup⟩ := List.nodup_cons.1 nodup
    obtain ⟨notQueued, notScanned⟩ := new j (List.mem_cons_self ..)
    have fresh : ¬ (s.ms.queue.contains j || decide (s.ms.scan.map (fun p => p.job) = some j)) = true := by
      rw [Bool.or_eq_true, List.contains_iff_mem, decide_eq_true_iff, scan]
      exact not_or.2 ⟨notQueued, fun e => notScanned (Option.some.inj e)⟩
    rw [List.foldl_cons]
    by_cases room : s.ms.queue.length < 16
    · obtain ⟨n, hn⟩ := Nat.exists_eq_add_one.mpr (Nat.sub_pos_of_lt room)
      have one : s.offerJob j = s.onMs (fun m => { m with queue := m.queue ++ [j] }) := by
        unfold State.offerJob State.takeUp
        rw [if_neg fresh, if_pos room]
        exact if_pos (congrArg Option.isSome scan)
      have left : 16 - (s.ms.queue ++ [j]).length = n := by
        rw [List.length_append, List.length_singleton, Nat.sub_add_eq, hn, Nat.add_sub_cancel]
      rw [one]
      refine (ih (s.onMs (fun m => { m with queue := m.queue ++ [j] })) scan nodup fun i hi => ?_).trans ?_
      · obtain ⟨h1, h2⟩ := new i (List.mem_cons_of_mem j hi)
        refine ⟨fun h => (List.mem_append.1 h).elim h1 fun h => apart ?_, h2⟩
        cases List.mem_singleton.1 h
        exact hi
      · show s.onMs (fun m => { m with
          queue := m.queue ++ [j] ++ l.take (16 - (s.ms.queue ++ [j]).length)
          skipped := (l.drop (16 - (s.ms.queue ++ [j]).length)).foldl (fun n _ => satInc n) m.skipped }) = _
        rw [left, hn, List.take_succ_cons, List.drop_succ_cons]
        simp only [List.append_assoc, List.singleton_append]
    · have one : s.offerJob j = s.onMs (fun m => { m with skipped := satInc m.skipped }) := by
        unfold State.offerJob
        rw [if_neg fresh, if_neg room]
      have none := Nat.sub_eq_zero_of_le (Nat.le_of_not_lt room)
      rw [one]
      refine (ih (s.onMs (fun m => { m with skipped := satInc m.skipped })) scan nodup
        fun i hi => new i (List.mem_cons_of_mem j hi)).trans ?_
      show s.onMs (fun m => { m with
          queue := m.queue ++ l.take (16 - s.ms.queue.length)
          skipped := (l.drop (16 - s.ms.queue.length)).foldl (fun n _ => satInc n) (satInc m.skipped) }) = _
      rw [none, List.take_zero, List.take_zero, List.drop_zero, List.drop_zero]
      rfl

theorem planFor_seen {j : Job} {theta : Angle} {k : BitVec 16} (hx : s.strip j.strip = some x) (known : x.stamp = .known theta k)
    (rows : s.seen x theta j.slot ≠ []) :
    ∃ q, s.planFor j = some q ∧ q.job = j ∧ q.theta = theta ∧ q.rows = s.seen x theta j.slot := by
  unfold State.planFor
  rw [hx]
  dsimp only
  rw [known]
  exact ⟨_, if_neg (fun e => rows (List.isEmpty_iff.1 e)), rfl, rfl, rfl⟩

/-- The first job offered to an idle scanner is taken up at once. -/
theorem offerJob_idle {j : Job} {q : Scan} (scan : s.ms.scan = none) (queue : s.ms.queue = []) (plan : s.planFor j = some q) :
    s.offerJob j = (s.onMs (fun m => { m with queue := [], scan := some q })).onStrip j.strip (fun x => { x with scanning := true }) := by
  unfold State.offerJob State.takeUp
  rw [if_neg (by rw [queue, scan]; exact Bool.false_ne_true), if_pos (by rw [queue]; decide)]
  refine (if_neg (fun h => Bool.false_ne_true ((congrArg Option.isSome scan).symm.trans h))).trans ?_
  show takeUpFrom (s.ms.queue ++ [j]) _ = _
  rw [queue]
  have plan' : (s.onMs (fun m => { m with queue := m.queue ++ [j] })).planFor j = some q := plan
  rw [List.nil_append, takeUpFrom, plan']
  rfl

end Sys2Proof.Machine
end

section
namespace Sys2Proof.Machine
/-! SUPPORT. STRIP CLOSE: the store after the cut, and the ports after the answer. -/

variable {s a s' : State} {t : HubTime} {p : PortNo} {g : Tag} {id rows : Nat} {x y : Strip}

/-- The ports after a request that is answered at once, where its block has given one routed notice or none. -/
theorem replied_ports {k : Notice} {d : Prop} [Decidable d] {st : Status} {bytes : List Byte}
    (ha : a.cp = if d then ((s.handed t p g).notify k).cp else (s.handed t p g).cp)
    (hs : s'.cp = a.cp.withPort p ((a.port p).ready g st bytes)) :
    (s'.port p).responses = (s.port p).responses ++ [⟨g, st, bytes⟩]
      ∧ ∀ q : PortNo, (s'.port q).pending = (s.port q).pending
          ||| (if (s.cp.routes.of k).getLsbD q = true ∧ d then k.mask else 0#11) := by
  have port (q : PortNo) : s'.port q = if p = q then (a.port p).ready g st bytes else a.port q := by
    show s'.cp.ports.get q = _
    rw [hs]
    exact Table.get_set _ _ _ _
  have told (q : PortNo) : a.port q = if (s.cp.routes.of k).getLsbD q = true ∧ d then ((s.handed t p g).port q).addNotice k
      else (s.handed t p g).port q := by
    show a.cp.ports.get q = _
    rw [ha]
    by_cases hd : d
    · rw [if_pos hd]
      refine (port_notify _ k q).trans ?_
      by_cases c : (s.cp.routes.of k).getLsbD q = true
      · rw [if_pos (by exact c), if_pos ⟨c, hd⟩]
      · rw [if_neg (by exact c), if_neg fun h => c h.1]
    · rw [if_neg hd, if_neg fun h => hd h.2]
      rfl
  have handed (q : PortNo) : (s.handed t p g).port q = if p = q then (s.port p).taken g else s.port q := port_onPort _ _ _ _
  refine ⟨?_, fun q => ?_⟩
  · rw [port, if_pos rfl, told, handed, if_pos rfl]
    split <;> rfl
  · rw [port]
    have same : (if p = q then (a.port p).ready g st bytes else a.port q).pending = (a.port q).pending := by
      split
      next h => rw [← h]; rfl
      · rfl
    have old : ((s.handed t p g).port q).pending = (s.port q).pending := by
      rw [handed]
      split
      next h => rw [← h]; rfl
      · rfl
    rw [same, told]
    split
    · exact congrArg (· ||| k.mask) old
    · exact old.trans (BitVec.or_zero).symm

/-- A strip as it is closed with its whole rows. -/
noncomputable def Strip.closed (x : Strip) (rows : Nat) : Strip :=
  if rows < x.rows then { x with
      rows := rows, byteSize := rows * (x.width * Mode.bytesPerPixel x.mode), fill := rows * (x.width * Mode.bytesPerPixel x.mode)
      tiles := x.tiles.take (tilesFor (rows * (x.width * Mode.bytesPerPixel x.mode))), complete := true }
  else { x with complete := true }

/-- The store after a strip is closed. -/
noncomputable def IS.closing (m : IS) (x : Strip) (rows : Nat) (l : List Strip) : IS :=
  { m with
    strips := l
    age := m.age ++ [x.id]
    free := m.free ++ (if rows < x.rows then x.tiles.drop (tilesFor (rows * (x.width * Mode.bytesPerPixel x.mode))) else []) }

theorem cut_complete (hx : s.strip id = some x) (rows : Nat) :
    ∃ l, (if rows < x.rows then s.truncateStrip x rows else s).completeStrip id = s.onIs (fun m => m.closing x rows l)
      ∧ (s.onIs (fun m => m.closing x rows l)).strip id = some (x.closed rows) := by
  have hid := (strip_some hx).2
  subst hid
  unfold IS.closing Strip.closed
  by_cases cut : rows < x.rows
  · simp only [if_pos cut]
    refine ⟨_, rfl, ?_⟩
    exact strip_onStrip (fun y => { y with complete := true }) (fun _ => rfl)
      (strip_onStrip (fun y => { y with
        rows := rows, byteSize := rows * (x.width * Mode.bytesPerPixel x.mode)
        fill := rows * (x.width * Mode.bytesPerPixel x.mode)
        tiles := y.tiles.take (tilesFor (rows * (x.width * Mode.bytesPerPixel x.mode))) }) (fun _ => rfl) hx)
  · simp only [if_neg cut, List.append_nil]
    exact ⟨_, rfl, strip_onStrip (fun y => { y with complete := true }) (fun _ => rfl) hx⟩

theorem closed_rows (h : rows ≤ x.rows) : (x.closed rows).rows = rows := by
  unfold Strip.closed
  split
  · rfl
  next c => exact Nat.le_antisymm (Nat.le_of_not_lt c) h

/-- What the closing of a strip leaves of it. -/
structure ClosedFrom (y x : Strip) : Prop where
  id : y.id = x.id
  origin : y.origin = x.origin
  camera : y.camera = x.camera
  stamp : y.stamp = x.stamp
  complete : y.complete = true
  sending : y.sending = x.sending
  width : y.width = x.width
  mode : y.mode = x.mode
  freeze : y.freezeSet = x.freezeSet
  holds : y.holds = x.holds

theorem closed_from (x : Strip) (rows : Nat) : ClosedFrom (x.closed rows) x := by
  unfold Strip.closed
  split <;> exact ⟨rfl, rfl, rfl, rfl, rfl, rfl, rfl, rfl, rfl, rfl⟩

theorem reqStripClose_eq (hx : s.strip id = some x) (here : x.origin = .here p) (filling : x.complete = false) :
    reqStripClose p (some id) s = if x.wholeRows = 0 then (s.removeStrip id, some (.done, valuesBytes [val 1 0]))
      else ((((if x.wholeRows < x.rows then s.truncateStrip x x.wholeRows else s).completeStrip id).offerClosed id x.camera).readyForSearch
        id, some (.done, valuesBytes [val 1 x.wholeRows])) := by
  have mine : x.ownedBy p = true := by rw [Strip.ownedBy, here]; exact decide_eq_true rfl
  unfold reqStripClose
  dsimp only
  rw [hx]
  dsimp only
  rw [if_neg (not_not.2 mine), filling]
  rfl

theorem mem_destinations (s : State) (m : BitVec 32) (d : Nat) : d ∈ s.destinations m ↔
    d < 32 ∧ m.getLsbD d = true ∧ s.rc.hubAddress ≠ some d ∧ ∃ n ∈ s.rc.hubCount, d < n := by
  have known : s.knownHub d = true ↔ ∃ n ∈ s.rc.hubCount, d < n := by
    rw [← Bool.not_eq_false, knownHub_eq_false]
    simp only [not_forall, Nat.not_le, exists_prop]
  unfold State.destinations
  rw [List.mem_filter, List.mem_range, Bool.and_eq_true, Bool.and_eq_true, Bool.not_eq_true', ← Bool.not_eq_true, ownAddress_iff,
    known, and_assoc]

/-! ### The search -/

theorem readyForSearch_strip (hx : s.strip id = some x) (here : x.origin = .here p) (complete : x.complete = true) :
    (s.readyForSearch id).is = { s.is with strips := (s.readyForSearch id).is.strips }
      ∧ ∃ b, (s.readyForSearch id).strip id = some { x with scanning := b } := by
  by_cases h : ∀ a k, x.stamp ≠ .known a k
  · rw [readyForSearch_unknown hx h]
    exact ⟨rfl, x.scanning, hx⟩
  · simp only [not_forall, not_not] at h
    obtain ⟨theta, k, known⟩ := h
    rw [readyForSearch_known hx here complete known]
    exact ⟨(offerJobs_keeps (id := id) _ s).1, (offerJobs_keeps _ s).2 x hx⟩

/-- What a search queue that names no job of the strip takes beside the scan of another strip. -/
theorem readyForSearch_queued {theta : Angle} {k : BitVec 16} {q : Scan} (hx : s.strip id = some x) (here : x.origin = .here p)
    (complete : x.complete = true) (known : x.stamp = .known theta k) (scan : s.ms.scan = some q) (other : q.job.strip ≠ id)
    (none : ∀ j ∈ s.ms.queue, j.strip ≠ id) : (s.readyForSearch id).ms = { s.ms with
      queue := s.ms.queue ++ (s.jobsOf x theta).take (16 - s.ms.queue.length)
      skipped := ((s.jobsOf x theta).drop (16 - s.ms.queue.length)).foldl (fun n _ => satInc n) s.ms.skipped } := by
  rw [readyForSearch_known hx here complete known]
  have mine : ∀ j ∈ s.jobsOf x theta, j.strip = id := fun j hj => (jobsOf_strip hj).1.trans (strip_some hx).2
  rw [offerJobs_queued _ s scan (jobsOf_nodup s x theta)
    fun j hj => ⟨fun h => none j h (mine j hj), fun e => other (e ▸ mine j hj)⟩]
  rfl

/-- The first job of the strip is taken up at once by an idle scanner, and the others are queued. -/
theorem readyForSearch_idle {theta : Angle} {k : BitVec 16} {j : Job} {rest : List Job} (hx : s.strip id = some x)
    (here : x.origin = .here p) (complete : x.complete = true) (known : x.stamp = .known theta k) (scan : s.ms.scan = none)
    (queue : s.ms.queue = []) (jobs : s.jobsOf x theta = j :: rest) :
    ∃ q, (s.readyForSearch id).ms = { s.ms with scan := some q, queue := rest }
      ∧ q.job = j ∧ q.theta = theta ∧ q.rows = s.seen x theta j.slot := by
  have hid := (strip_some hx).2
  obtain ⟨strip, rows⟩ := jobsOf_strip (s := s) (jobs ▸ List.mem_cons_self .. : j ∈ s.jobsOf x theta)
  obtain ⟨q, plan, job, angle, sees⟩ := planFor_seen (j := j) ((congrArg s.strip (strip.trans hid)).trans hx) known rows
  refine ⟨q, ?_, job, angle, sees⟩
  have nodup := jobsOf_nodup s x theta
  have most := jobsOf_length s x theta
  rw [jobs] at nodup most
  obtain ⟨apart, nodup⟩ := List.nodup_cons.1 nodup
  have short : rest.length ≤ 16 := (Nat.le_succ _).trans most
  rw [readyForSearch_known hx here complete known, jobs, List.foldl_cons, offerJob_idle scan queue plan,
    offerJobs_queued rest _ rfl nodup fun i hi => ⟨List.not_mem_nil, fun e => apart (by rw [← job, e]; exact hi)⟩]
  show ({ s.ms with
    queue := [] ++ rest.take (16 - 0), scan := some q
    skipped := (rest.drop (16 - 0)).foldl (fun n _ => satInc n) s.ms.skipped } : MS) = _
  rw [List.take_of_length_le short, List.drop_of_length_le short]
  rfl

/-! ### The transfers offered at the close -/

/-- Whether a routed notice tells that a pair of a closed strip was not queued. -/
theorem offerClosed_cp (s : State) (id : Nat) (c : Fin 4) :
    (s.offerClosed id c).cp = s.cp ∨ (s.offerClosed id c).cp = (s.notify .imageDropped).cp := by
  have transfers (l : List Nat) (a : State) :
      (offerTransfers id l a).cp = a.cp ∨ (offerTransfers id l a).cp = (a.notify .imageDropped).cp := by
    induction l generalizing a with
    | nil => exact .inl rfl
    | cons d l ih =>
      unfold offerTransfers
      split
      · exact ih a
      split
      · exact ih _
      · exact .inr rfl
  unfold State.offerClosed
  dsimp only
  split
  · exact transfers _ s
  split
  · exact .inr rfl
  · exact .inl rfl

theorem offerClosed_keeps (s : State) (id : Nat) (c : Fin 4) : Keeps [.is, .im, .cp] s (s.offerClosed id c)
    ∧ (s.offerClosed id c).is = { s.is with strips := (s.offerClosed id c).is.strips }
    ∧ ∀ y, s.strip id = some y → ∃ d, (s.offerClosed id c).strip id = some { y with sending := d } := by
  unfold State.offerClosed
  dsimp only
  split
  · exact offerTransfers_keeps _ s
  split
  · exact ⟨(keeps_notify _ _).mono (by decide), rfl, fun y hy => ⟨_, hy⟩⟩
  · exact ⟨.refl _ s, rfl, fun y hy => ⟨_, hy⟩⟩

/-- Outside RUNNING no pair is queued, and the notice tells of a mask that names another hub. -/
theorem offerClosed_stays (h : s.rc.ringState ≠ .running) (c : Fin 4) : s.offerClosed id c =
    if ∃ d ∈ List.range 32, (s.camera c).mask.getLsbD d = true ∧ s.rc.hubAddress ≠ some d then s.notify .imageDropped else s := by
  unfold State.offerClosed
  refine (if_neg (fun r => h (of_decide_eq_true r))).trans (if_congr ?_ rfl rfl)
  rw [List.any_eq_true]
  refine exists_congr fun d => and_congr_right fun _ => ?_
  rw [Bool.and_eq_true, Bool.not_eq_true', ← Bool.not_eq_true, ownAddress_iff]

theorem offerClosed_runs (h : s.rc.ringState = .running) (c : Fin 4)
    (new : ∀ d ∈ s.destinations (s.camera c).mask, (id, d) ∉ s.im.sendQueue
      ∧ s.im.transfer.map (fun k => (k.strip, k.dst)) ≠ some (id, d)) :
    s.offerClosed id c = if 32 - s.im.sendQueue.length < (s.destinations (s.camera c).mask).length
      then (s.paired id ((s.destinations (s.camera c).mask).take (32 - s.im.sendQueue.length))).notify .imageDropped
      else s.paired id ((s.destinations (s.camera c).mask).take (32 - s.im.sendQueue.length)) :=
  (if_pos (decide_eq_true h)).trans (offerTransfers_new _ s ((List.nodup_range).filter _) new)

end Sys2Proof.Machine
end

section
namespace Sys2Proof.Machine
/-! SUPPORT. STRIP CLOSE of a strip that is kept. -/

variable {s s' : State} {t : HubTime} {p : PortNo} {g : Tag} {id rows : Nat} {x : Strip}

theorem seen_closed {b : State} (hc : b.is.cameras = s.is.cameras) (hr : b.ru = s.ru) (le : rows ≤ x.rows) (theta : Angle) (i : SlotNo) :
    b.seen (x.closed rows) theta i = (List.range rows).filter (fun r => decide
      ((Machine.sdiff (theta + BitVec.ofNat 24 (r * (s.camera x.camera).pitch)) (s.loop i).mexp).natAbs ≤ (s.loop i).window)) := by
  unfold State.seen selectedRows inWindow State.camera State.loop
  rw [closed_rows le, (closed_from x rows).camera, hc, hr]

theorem jobs_closed {b : State} (hc : b.is.cameras = s.is.cameras) (hr : b.ru = s.ru) (le : rows ≤ x.rows) (theta : Angle) :
    b.jobsOf (x.closed rows) theta =
      ((List.finRange 16).filter (fun i => decide ((s.loop i).source = .image x.camera
        ∧ (List.range rows).filter (fun r => decide
          ((Machine.sdiff (theta + BitVec.ofNat 24 (r * (s.camera x.camera).pitch)) (s.loop i).mexp).natAbs ≤ (s.loop i).window)) ≠ []))).map
        (fun i => (⟨x.id, i⟩ : Job)) := by
  unfold State.jobsOf
  have loop (i : SlotNo) : b.loop i = s.loop i := congrArg (fun r : RU => r.loops.get i) hr
  simp only [seen_closed hc hr le, (closed_from x rows).id, (closed_from x rows).camera, loop]

theorem closed_size (x : Strip) (rows : Nat) : if rows < x.rows then
      (x.closed rows).byteSize = rows * (x.width * (if x.mode = .grey then 1 else 4)) ∧ (x.closed rows).fill = (x.closed rows).byteSize
        ∧ (x.closed rows).tiles = x.tiles.take (((x.closed rows).byteSize + 2047) / 2048)
    else (x.closed rows).byteSize = x.byteSize ∧ (x.closed rows).fill = x.fill ∧ (x.closed rows).tiles = x.tiles := by
  rw [← bytesPerPixel_eq]
  unfold Strip.closed
  by_cases cut : rows < x.rows
  · simp only [if_pos cut]
    exact ⟨trivial, trivial, rfl⟩
  · simp only [if_neg cut, and_self]

/-- At a RUNNING hub the new pairs join the send queue, the strip is pinned for them, and a pair without room is told. -/
theorem offerClosed_paired (h : s.rc.ringState = .running) (hx : s.strip id = some x) (c : Fin 4) {all : List Nat}
    (hl : s.destinations (s.camera c).mask = all) (new : ∀ d ∈ all, (id, d) ∉ s.im.sendQueue
      ∧ s.im.transfer.map (fun k => (k.strip, k.dst)) ≠ some (id, d)) :
    (s.offerClosed id c).im = { s.im with
        sendQueue := s.im.sendQueue ++ (all.take (32 - s.im.sendQueue.length)).map (fun d => (id, d)) }
      ∧ (s.offerClosed id c).strip id = some (x.sentTo (all.take (32 - s.im.sendQueue.length)))
      ∧ (s.offerClosed id c).cp = if 32 - s.im.sendQueue.length < all.length then (s.notify .imageDropped).cp else s.cp := by
  subst hl
  rw [offerClosed_runs h c new]
  split
  · exact ⟨rfl, strip_onStrip (s := s.onIm _) (Strip.sentTo _) (fun _ => rfl) hx, rfl⟩
  · exact ⟨rfl, strip_onStrip (s := s.onIm _) (Strip.sentTo _) (fun _ => rfl) hx, rfl⟩

/-- What offering the transfers and the jobs of a closed strip `x` does to a state. -/
structure Closing (s a : State) (id : Nat) (x : Strip) : Prop where
  keeps : Keeps [.is, .im, .ms, .cp] s a
  is : a.is = { s.is with strips := a.is.strips }
  told : a.cp = s.cp ∨ a.cp = (s.notify .imageDropped).cp
  strip : ∃ dst b, a.strip id = some { x with sending := dst, scanning := b }
    ∧ (s.rc.ringState ≠ .running → dst = x.sending ∧ a.im = s.im ∧ a.cp =
        if ∃ d ∈ List.range 32, (s.camera x.camera).mask.getLsbD d = true ∧ s.rc.hubAddress ≠ some d
        then (s.notify .imageDropped).cp else s.cp)
    ∧ (s.rc.ringState = .running → ∀ all, s.destinations (s.camera x.camera).mask = all →
        (∀ d ∈ all, (id, d) ∉ s.im.sendQueue ∧ s.im.transfer.map (fun k => (k.strip, k.dst)) ≠ some (id, d)) →
        dst = x.sending ++ all.take (32 - s.im.sendQueue.length)
        ∧ a.im = { s.im with sendQueue := s.im.sendQueue ++ (all.take (32 - s.im.sendQueue.length)).map (fun d => (id, d)) }
        ∧ a.cp = if 32 - s.im.sendQueue.length < all.length then (s.notify .imageDropped).cp else s.cp)
  unknown : (∀ theta k, x.stamp ≠ .known theta k) → a.ms = s.ms
  queued : ∀ theta k q, x.stamp = .known theta k → s.ms.scan = some q → q.job.strip ≠ id → (∀ j ∈ s.ms.queue, j.strip ≠ id) →
    a.ms = { s.ms with
      queue := s.ms.queue ++ (s.jobsOf x theta).take (16 - s.ms.queue.length)
      skipped := ((s.jobsOf x theta).drop (16 - s.ms.queue.length)).foldl (fun n _ => satInc n) s.ms.skipped }
  jobless : ∀ theta k, x.stamp = .known theta k → s.jobsOf x theta = [] → a.ms = s.ms
  idle : ∀ theta k j rest, x.stamp = .known theta k → s.ms.scan = none → s.ms.queue = [] → s.jobsOf x theta = j :: rest →
    ∃ q, a.ms = { s.ms with scan := some q, queue := rest } ∧ q.job = j ∧ q.theta = theta ∧ q.rows = s.seen x theta j.slot

theorem closing_offers (hx : s.strip id = some x) (here : x.origin = .here p) (complete : x.complete = true) :
    Closing s ((s.offerClosed id x.camera).readyForSearch id) id x := by
  have sent (run : s.rc.ringState = .running) (all) := offerClosed_paired (all := all) run hx x.camera
  have still (c : s.rc.ringState ≠ .running) := offerClosed_stays (id := id) c x.camera
  have told := offerClosed_cp s id x.camera
  obtain ⟨offers, is, kept⟩ := offerClosed_keeps s id x.camera
  generalize s.offerClosed id x.camera = d at sent still told offers is kept ⊢
  obtain ⟨dst, hd⟩ := kept _ hx
  obtain ⟨isReady, sc, he⟩ := readyForSearch_strip hd here complete
  have ready := keeps_readyForSearch d id
  have ms : d.ms = s.ms := offers.2.2.2 .ms (by decide)
  have loop : d.ru = s.ru := offers.2.2.2 .ru (by decide)
  have cameras : d.is.cameras = s.is.cameras := by rw [is]
  have sees (theta) : d.seen { x with sending := dst } theta = s.seen x theta := by
    unfold State.seen State.camera State.loop
    rw [cameras, loop]
  have jobs (theta) : d.jobsOf { x with sending := dst } theta = s.jobsOf x theta := by
    unfold State.jobsOf
    rw [sees]
    unfold State.loop
    rw [loop]
  have im := ready.2.2.2 .im (by decide)
  have cp := ready.2.2.2 .cp (by decide)
  refine ⟨(offers.mono (by decide)).trans (ready.mono (by decide)), isReady.trans ?_, told.imp cp.trans cp.trans,
    ⟨dst, sc, he, fun c => ?_, fun run all hall new => ?_⟩, fun h => ?_, fun theta k q known scan other none => ?_, fun theta k known none => ?_,
    fun theta k j rest known scan queue h => ?_⟩
  · exact congrArg (fun m : IS => { m with strips := (d.readyForSearch id).is.strips }) is
  · have same : d.im = s.im ∧ d.strip id = s.strip id ∧ d.cp = if ∃ d ∈ List.range 32,
        (s.camera x.camera).mask.getLsbD d = true ∧ s.rc.hubAddress ≠ some d then (s.notify .imageDropped).cp else s.cp := by
      rw [still c]
      split <;> exact ⟨rfl, rfl, rfl⟩
    obtain ⟨h1, h2, h3⟩ := same
    rw [hd, hx] at h2
    exact ⟨congrArg Strip.sending (Option.some.inj h2), im.trans h1, cp.trans h3⟩
  · obtain ⟨h1, h2, h3⟩ := sent run all hall new
    rw [hd] at h2
    exact ⟨congrArg Strip.sending (Option.some.inj h2), im.trans h1, cp.trans h3⟩
  · exact (congrArg State.ms (readyForSearch_unknown hd h)).trans ms
  · rw [← ms] at scan none ⊢
    rw [readyForSearch_queued hd here complete known scan other none, jobs]
  · rw [readyForSearch_known hd here complete known, jobs, none]
    exact ms
  · rw [← ms] at scan queue ⊢
    obtain ⟨q, h1, h2, h3, h4⟩ := readyForSearch_idle hd here complete known scan queue ((jobs theta).trans h)
    exact ⟨q, h1, h2, h3, h4.trans (congrFun (sees theta) _)⟩

/-- What a STRIP CLOSE of a filling strip with a whole row does. -/
theorem reqStripClose_kept (hx : s.strip id = some x) (here : x.origin = .here p) (filling : x.complete = false)
    (whole : rows = x.wholeRows) (kept : rows ≠ 0) :
    ∃ l a, reqStripClose p (some id) s = (a, some (.done, valuesBytes [val 1 rows]))
      ∧ Closing (s.onIs (fun m => m.closing x rows l)) a id (x.closed rows) := by
  subst whole
  obtain ⟨l, cut, closed⟩ := cut_complete hx x.wholeRows
  have same := closed_from x x.wholeRows
  refine ⟨l, _, (reqStripClose_eq hx here filling).trans (if_neg kept), ?_⟩
  rw [cut, ← same.camera]
  exact closing_offers closed (same.origin.trans here) same.complete

end Sys2Proof.Machine

open Sys2Proof Sys2Proof.Machine

/-- Settles O41: a strip without a whole row leaves the directory; any other is cut to its rows, then its transfers and its jobs are
offered. -/
theorem stripClose : Obligations.StripClose := by
  intro s t p g id rows x ht hx here filling whole
  rw [← bytesPerPixel_eq] at whole
  have hid : x.id = id := (strip_some (s := s) hx).2
  by_cases none : rows = 0
  · obtain ⟨s', a1, a2, a3⟩ := request_answered (l' := [.is, .ms, .cp]) ht
      ((reqStripClose_eq (s := s.handed t p g) hx here filling).trans (if_pos (whole.symm.trans none))) (keeps_removeStrip _ id)
      (by decide) (by decide)
    refine ⟨s', a1, a3.su, a3.se, a3.tu, a3.ru, ?_, (if_pos none).mpr ⟨a2, a3.is.trans (removeStrip_changes (s := s.handed t p g) hx)⟩⟩
    rw [none]
    refine (congrArg (fun c : CP => (c.ports.get p).responses) a3.cp).trans ?_
    exact congrArg Port.responses (Table.get_set_self _ _ _)
  have le : rows ≤ x.rows := whole ▸ Nat.min_le_left _ _
  obtain ⟨l, e, act, c⟩ := reqStripClose_kept (s := s.handed t p g) hx here filling whole none
  have same := closed_from x rows
  obtain ⟨s', a1, ans⟩ := request_replied ht act (((keeps_onIs _ _).mono (by decide : ∀ b ∈ [Blk.is], b ∈ [.is, .im, .ms, .cp])).trans c.keeps)
  have ports {d : Prop} [Decidable d] := replied_ports (a := e) (s := s) (t := t) (p := p) (g := g) (k := .imageDropped) (d := d)
    (hs := ans.cp)
  have store : s'.is = s.is.closing x rows e.is.strips := ans.is.trans c.is
  obtain ⟨dst, sc, strip, ends⟩ := c.strip
  rw [same.camera, same.sending] at ends
  refine ⟨s', a1, ans.su (by decide), ans.se (by decide), ans.tu (by decide), ans.ru (by decide),
    c.told.elim (fun h => (ports (d := False) h).1) (fun h => (ports (d := True) h).1), (if_neg none).mpr
    ⟨(congrArg IS.age store).trans (congrArg (fun i => s.is.age ++ [i]) hid), (congrArg IS.mem store).trans rfl,
      (congrArg IS.cameras store).trans rfl, (congrArg IS.free store).trans (by rw [← bytesPerPixel_eq]; rfl), ⟨{ x.closed rows with sending := dst, scanning := sc },
        (congrArg (fun m : IS => m.strips.find? (fun z : Strip => z.id == id)) ans.is).trans strip, same.complete, closed_rows le,
        same.stamp, same.width, same.mode, same.origin, same.freeze, same.holds, closed_size x rows, fun still => ?_, fun run new => ?_⟩,
      mem_destinations s _, fun h => ans.ms.trans (c.unknown fun a k e => h a k (same.stamp.symm.trans e)), fun a k known => ?_⟩⟩
  · obtain ⟨h1, h2, h3⟩ := ends.1 still
    exact ⟨h1, ans.im.trans h2, (ports h3).2⟩
  · obtain ⟨h1, h2, h3⟩ := ends.2 run (s.destinations (s.camera x.camera).mask) rfl new
    exact ⟨ans.im.trans h2, h1, (ports h3).2⟩
  · have known' := same.stamp.trans known
    have jobs := jobs_closed (s := s) (b := (s.handed t p g).onIs (fun m => m.closing x rows l)) rfl rfl le a
    have sees := seen_closed (s := s) (b := (s.handed t p g).onIs (fun m => m.closing x rows l)) rfl rfl le a
    rw [hid] at jobs
    refine ⟨fun q scan other no => ?_, fun scan queue => ⟨fun empty => ?_, fun j rest h => ?_⟩⟩
    · exact jobs ▸ ans.ms.trans (c.queued a k q known' scan other no)
    · exact ans.ms.trans (c.jobless a k known' (jobs.trans empty))
    · obtain ⟨q, h1, h2, h3, h4⟩ := c.idle a k j rest known' scan queue (jobs.trans h)
      exact ⟨q, ans.ms.trans h1, h2, h3, h4.trans (sees j.slot)⟩

end

section
/-! SUPPORT. What a scan finds: the first run of hits of the first selected row that holds one. -/

namespace Sys2Proof.Machine

variable {hit : Nat → Bool} {hits : Nat → Nat → Bool} {need : Nat} {columns : List Nat}

/-- A run of hits begins at the `i`-th column of a row. -/
def RunAt (hit : Nat → Bool) (need : Nat) (columns : List Nat) (i : Nat) : Prop :=
  i + need ≤ columns.length ∧ ∀ j < need, hit (columns.getD (i + j) 0) = true

/-- What a scan of a row that has taken `n` columns finds with `r.2` more. -/
def RowFinds (hit : Nat → Bool) (need : Nat) (columns : List Nat) (n : Nat) (r : Option Nat × Nat) : Prop :=
  (r.1 = none → n + r.2 = columns.length ∧ ∀ i, ¬ RunAt hit need columns i)
    ∧ ∀ c, r.1 = some c → ∃ i, RunAt hit need columns i ∧ columns.getD i 0 = c ∧ (∀ k < i, ¬ RunAt hit need columns k)
      ∧ n + r.2 = i + need

theorem RowFinds.one {n : Nat} {r : Option Nat × Nat} (h : RowFinds hit need columns (n + 1) r) :
    RowFinds hit need columns n (r.1, r.2 + 1) := by
  have e : n + (r.2 + 1) = n + 1 + r.2 := by rw [Nat.add_comm r.2, Nat.add_assoc]
  unfold RowFinds
  rw [e]
  exact h

/-- A scan that stands behind `run` hits from column `b` on, with no run before them. -/
theorem scanRow_finds (cs : List Nat) (b run first : Nat) (rest : columns.drop (b + run) = cs)
    (within : b + run ≤ columns.length) (short : run < need)
    (open_ : ∀ j < run, hit (columns.getD (b + j) 0) = true) (begun : 0 < run → columns.getD b 0 = first)
    (clear : ∀ k < b, ¬ RunAt hit need columns k) :
    RowFinds hit need columns (b + run) (scanRow hit need run first cs) := by
  induction cs generalizing b run first with
  | nil =>
    have short' : columns.length ≤ b + run := List.drop_eq_nil_iff.1 rest
    have none : ∀ i, ¬ RunAt hit need columns i := fun i h => by
      rcases Nat.lt_or_ge i b with hi | hi
      · exact clear i hi h
      · exact absurd (h.1.trans short') (Nat.not_le_of_lt (Nat.add_lt_add_of_le_of_lt hi short))
    exact ⟨fun _ => ⟨Nat.le_antisymm within short', none⟩, fun _ h => nomatch h⟩
  | cons c cs ih =>
    have inside : b + run < columns.length := by
      by_contra h
      rw [List.drop_eq_nil_of_le (Nat.le_of_not_lt h)] at rest
      cases rest
    have here : columns.getD (b + run) 0 = c ∧ columns.drop (b + run + 1) = cs := by
      rw [List.drop_eq_getElem_cons inside] at rest
      rw [List.getD_eq_getElem _ _ inside]
      exact List.cons.inj rest
    rw [scanRow]
    by_cases h : hit c = true
    · rw [if_pos h]
      have more : ∀ j < run + 1, hit (columns.getD (b + j) 0) = true := fun j hj =>
        (Nat.lt_succ_iff_lt_or_eq.1 hj).elim (open_ j) fun e => by rw [e, here.1]; exact h
      have start : columns.getD b 0 = if run = 0 then c else first := by
        split
        next e => rw [← here.1, e]; rfl
        next e => exact begun (Nat.pos_of_ne_zero e)
      by_cases full : need ≤ run + 1
      · rw [if_pos full]
        have e := Nat.le_antisymm full short
        refine ⟨(fun h => nomatch h), fun d hd => ⟨b, ⟨?_, ?_⟩, start.trans (Option.some.inj hd), clear, ?_⟩⟩
        · rw [e]; exact inside
        · rw [e]; exact more
        · rw [e]; rfl
      · rw [if_neg full]
        exact (ih b (run + 1) _ here.2 inside (Nat.lt_of_not_le full) more (fun _ => start) clear).one
    · rw [if_neg h]
      refine (ih (b + run + 1) 0 c here.2 inside (Nat.zero_lt_of_lt short) (fun j hj => absurd hj (Nat.not_lt_zero j))
        (fun h => absurd h (Nat.lt_irrefl 0)) fun k hk r => ?_).one
      rcases Nat.lt_or_ge k b with hb | hb
      · exact clear k hb r
      · obtain ⟨j, rfl⟩ := Nat.exists_eq_add_of_le hb
        have le : j ≤ run := Nat.le_of_lt_succ (Nat.lt_of_add_lt_add_left hk)
        have miss := r.2 (run - j) (Nat.lt_of_le_of_lt (Nat.sub_le run j) short)
        rw [Nat.add_assoc, Nat.add_sub_cancel' le, here.1] at miss
        exact h miss

/-- What a scan of some rows finds, for what counts as a run in them. -/
structure RowsFind (run : Nat → Nat → Prop) (need : Nat) (columns rows : List Nat) (r : ScanResult × Nat) : Prop where
  none : r.1 = .none ↔ ∀ q ∈ rows, ∀ i, ¬ run q i
  all : r.1 = .none → r.2 = rows.length * columns.length
  first : ∀ q c, r.1 = .hit q c → ∃ before after i, rows = before ++ q :: after ∧ (∀ q ∈ before, ∀ i, ¬ run q i) ∧ run q i
    ∧ columns.getD i 0 = c ∧ (∀ k < i, ¬ run q k) ∧ r.2 = before.length * columns.length + i + need

theorem scanRows_found {r c n : Nat} {rows : List Nat} (h : scanRow (hits r) need 0 0 columns = (some c, n)) :
    scanRows hits need columns (r :: rows) = (.hit r c, n) := by rw [scanRows, h]

theorem scanRows_next {r n : Nat} {rows : List Nat} (h : scanRow (hits r) need 0 0 columns = (none, n)) :
    scanRows hits need columns (r :: rows) =
      ((scanRows hits need columns rows).1, (scanRows hits need columns rows).2 + n) := by rw [scanRows, h]

theorem scanRows_find (h : 1 ≤ need) (rows : List Nat) :
    RowsFind (fun r => RunAt (hits r) need columns) need columns rows (scanRows hits need columns rows) := by
  induction rows with
  | nil => exact ⟨⟨fun _ q hq => absurd hq List.not_mem_nil, fun _ => rfl⟩, fun _ => (Nat.zero_mul _).symm, fun q c h => nomatch h⟩
  | cons r rows ih =>
    have row := scanRow_finds (hit := hits r) (need := need) columns 0 0 0 rfl (Nat.zero_le _) h (fun j hj => absurd hj (Nat.not_lt_zero j))
      (fun h => absurd h (Nat.lt_irrefl 0)) fun k hk => absurd hk (Nat.not_lt_zero k)
    rcases e : scanRow (hits r) need 0 0 columns with ⟨o, n⟩
    rw [e] at row
    obtain ⟨empty, found⟩ := row
    rcases o with _ | c
    · obtain ⟨length, clear⟩ := empty rfl
      rw [Nat.zero_add] at length
      change n = columns.length at length
      subst length
      rw [scanRows_next e]
      refine ⟨ih.none.trans (List.forall_mem_cons.trans (and_iff_right clear)).symm, fun h => ?_, fun q c h => ?_⟩
      · rw [ih.all h, List.length_cons, Nat.succ_mul]
      · obtain ⟨before, after, i, rfl, h1, h2, h3, h4, h5⟩ := ih.first q c h
        refine ⟨r :: before, after, i, rfl, List.forall_mem_cons.2 ⟨clear, h1⟩, h2, h3, h4, ?_⟩
        rw [h5, List.length_cons, Nat.succ_mul, Nat.add_right_comm, Nat.add_right_comm _ i]
    · obtain ⟨i, h1, h2, h3, h4⟩ := found c rfl
      rw [scanRows_found e]
      refine ⟨⟨(fun h => nomatch h), fun h => absurd h1 (h r (List.mem_cons_self ..) i)⟩, (fun h => nomatch h), fun q d h => ?_⟩
      cases h
      refine ⟨[], rows, i, rfl, fun q hq => absurd hq List.not_mem_nil, h1, h2, h3, ?_⟩
      rw [List.length_nil, Nat.zero_mul, Nat.zero_add, ← h4, Nat.zero_add]

/-! ### The columns and the pixels of a strip -/

theorem scanColumns_at (d : Direction) (start width : Nat) :
    (scanColumns d start width).length = (if d = .right then width - start else start + 1)
      ∧ ∀ i < (scanColumns d start width).length, (scanColumns d start width).getD i 0 =
        if d = .right then start + i else start - i := by
  cases d with
  | right =>
    have length : (scanColumns .right start width).length = width - start := by rw [scanColumns, List.length_map, List.length_range]
    refine ⟨length, fun i hi => ?_⟩
    rw [List.getD_eq_getElem _ _ hi, if_pos rfl]
    exact (List.getElem_map _).trans (congrArg (start + ·) (List.getElem_range _))
  | left =>
    have length : (scanColumns .left start width).length = start + 1 := by rw [scanColumns, List.length_reverse, List.length_range]
    refine ⟨length, fun i hi => ?_⟩
    rw [List.getD_eq_getElem _ _ hi, if_neg (fun h => nomatch h)]
    refine (List.getElem_reverse _).trans ((List.getElem_range _).trans ?_)
    rw [List.length_range]
    rfl

theorem pixelValue_at (m : Memory) (x : Strip) (channel row column : Nat) : pixelValue m x channel row column =
    (memRead m (tileAddr x.tiles (if x.mode = .grey then row * x.width + column
      else (row * x.width + column) * 4 + channel))).toNat := by
  unfold pixelValue tileByte
  cases x.mode with
  | grey =>
    show (memRead m (tileAddr x.tiles (row * (x.width * 1) + column * 1))).toNat = _
    rw [Nat.mul_one, Nat.mul_one, if_pos rfl]
  | cmyk => rw [if_neg (fun h => nomatch h), Nat.add_mul, Nat.mul_assoc]; rfl

theorem runScan_columns (m : Memory) (x : Strip) (rows : List Nat) (start : Nat) (spec : SearchSpec) :
    ∃ columns : List Nat, columns.length = (if spec.direction = .right then x.width - start else start + 1)
        ∧ (∀ i < columns.length, columns.getD i 0 = (if spec.direction = .right then start + i else start - i))
        ∧ runScan m x rows start spec = scanRows (fun r c => decide (spec.threshold ≤ (memRead m (tileAddr x.tiles
            (if x.mode = .grey then r * x.width + c else (r * x.width + c) * 4 + spec.channel))).toNat))
            spec.runLength columns rows := by
  obtain ⟨length, at_⟩ := scanColumns_at spec.direction start x.width
  refine ⟨_, length, at_, ?_⟩
  unfold runScan
  simp only [pixelValue_at]

end Sys2Proof.Machine
end

section
/-! SUPPORT. The completion of a scan: what it hands to the loop, what it leaves of the store, and the next job taken up. -/

namespace Sys2Proof.Machine

variable {s a b : State} {t : HubTime} {i : SlotNo} {mark : Angle} {p : Scan} {x y : Strip}

/-! ### What a judged mark and a miss leave of the loops -/

/-- A loop that has judged a mark. -/
noncomputable def State.judged (s : State) (i : SlotNo) (mark : Angle) : Loop :=
  if (s.loop i).window < (sdiff mark (s.loop i).mexp).natAbs then (s.loop i).stray (sdiff mark (s.loop i).mexp)
  else { (s.loop i).accept (sdiff mark (s.loop i).mexp) (s.markError i mark) ((s.loop i).correction (s.markError i mark)) with
    state := .locked }

theorem setLoopState_ru (s : State) (i : SlotNo) (st : LoopState) :
    (s.setLoopState i st).ru = (s.onLoop i (fun l => { l with state := st })).ru := by
  by_cases h : (s.loop i).state = st
  · rw [setLoopState_same h]
  · rw [setLoopState_changed h]
    rfl

theorem judgeMark_loop (s : State) (i : SlotNo) (mark : Angle) (j : SlotNo) :
    (s.judgeMark i mark).loop j = if i = j then s.judged i mark else s.loop j := by
  unfold State.judged
  by_cases h : (s.loop i).window < (sdiff mark (s.loop i).mexp).natAbs
  · rw [judgeMark_stray h, if_pos h]
    exact loop_onLoop _ _ _ _
  · rw [judgeMark_accepts h, if_neg h, State.loop, setLoopState_ru, onLoop_onLoop]
    exact loop_onLoop _ _ _ _

theorem countMiss_loop (s : State) (i j : SlotNo) :
    (s.countMiss i).loop j = if i = j then (s.loop i).miss else s.loop j := by
  have ru : (s.countMiss i).ru = (s.onLoop i Loop.miss).ru := by
    unfold State.countMiss
    dsimp only
    split
    · exact (keeps_raise _ _).2.2.2 .ru (by decide)
    · rfl
  rw [State.loop, ru]
  exact loop_onLoop _ _ _ _

theorem miss_misses (l : Loop) : l.miss.misses = min 15 (l.misses + 1) := by
  show (if l.misses < 15 then l.misses + 1 else 15) = _
  split
  next h => exact (Nat.min_eq_right h).symm
  next h => exact (Nat.min_eq_left ((Nat.le_of_not_lt h).trans (Nat.le_succ _))).symm

/-- The loop of a section after a result of a scan. -/
noncomputable def State.resulted (s : State) (i : SlotNo) (c : Fin 4) (mark : Option Angle) : Loop :=
  if (s.loop i).source = .image c ∧ s.loopActive i = true then mark.elim (s.loop i).miss (s.judged i) else s.loop i

theorem judged_same (s : State) (i : SlotNo) (mark : Angle) : (s.judged i mark).mexp = (s.loop i).mexp
    ∧ (s.judged i mark).window = (s.loop i).window ∧ (s.judged i mark).search = (s.loop i).search := by
  unfold State.judged
  split <;> exact ⟨rfl, rfl, rfl⟩

theorem resulted_same (s : State) (i : SlotNo) (c : Fin 4) (mark : Option Angle) : (s.resulted i c mark).mexp = (s.loop i).mexp
    ∧ (s.resulted i c mark).window = (s.loop i).window ∧ (s.resulted i c mark).search = (s.loop i).search := by
  unfold State.resulted
  split
  · rcases mark with _ | m
    · exact ⟨rfl, rfl, rfl⟩
    · exact judged_same s i m
  · exact ⟨rfl, rfl, rfl⟩

/-- What a result leaves of a hub whose loop takes it. -/
structure ResultTaken (s a : State) (i : SlotNo) (l : Loop) : Prop where
  keeps : Keeps [.rc, .se, .tu, .is, .ru, .cp] s a
  store : a.is = { s.is with strips := a.is.strips, walk := a.is.walk }
  strips : a.is.strips.map Strip.unfrozen = s.is.strips.map Strip.unfrozen
  loops : ∀ j, a.loop j = if i = j then l else s.loop j

theorem takeResult_taken (s : State) (i : SlotNo) (c : Fin 4) (mark : Option Angle) :
    ResultTaken s (s.takeResult i c mark) i (s.resulted i c mark) := by
  unfold State.takeResult State.resulted
  by_cases h : (s.loop i).source = .image c ∧ s.loopActive i = true
  · rw [if_pos (by rw [Bool.and_eq_true, decide_eq_true_iff]; exact h), if_pos h]
    rcases mark with _ | m
    · refine ⟨?_, ?_, ?_, countMiss_loop s i⟩ <;> unfold State.countMiss <;> dsimp only <;> split
      · exact ((keeps_onLoop s i _).mono (by decide)).trans
          (((keeps_notify _ _).mono (by decide)).trans ((keeps_raise _ _).mono (by decide)))
      · exact (keeps_onLoop s i _).mono (by decide)
      · exact (raise_store _ _).1
      · rfl
      · exact (raise_store _ _).2
      · rfl
    · have keeps := keeps_judgeMark s i m
      have is : (s.judgeMark i m).is = s.is := keeps.2.2.2 .is (by decide)
      refine ⟨keeps.mono (by decide), ?_, ?_, judgeMark_loop s i m⟩ <;> dsimp only <;> rw [is]
  · rw [if_neg (by rw [Bool.and_eq_true, decide_eq_true_iff]; exact h), if_neg h]
    exact ⟨.refl _ s, rfl, rfl, fun j => by split; · next e => rw [e]
                                            · rfl⟩

theorem strip_unfrozen {id : Nat} (h : a.is.strips.map Strip.unfrozen = s.is.strips.map Strip.unfrozen) :
    (a.strip id).map Strip.unfrozen = (s.strip id).map Strip.unfrozen := by
  have find (l : List Strip) : (l.find? (fun x => x.id == id)).map Strip.unfrozen =
      (l.map Strip.unfrozen).find? (fun x => x.id == id) := by rw [List.find?_map]; rfl
  exact (find _).trans ((congrArg _ h).trans (find _).symm)

/-! ### The take-up of a job -/

/-- The completion of a scan leaves of a hub what the take-up of a job reads. -/
structure Rescanned (s a : State) : Prop where
  time : a.hubTime = s.hubTime
  mem : a.is.mem = s.is.mem
  cameras : a.is.cameras = s.is.cameras
  strip : ∀ id y, s.strip id = some y → ∃ f r b, a.strip id = some { y with freezeSet := f, results := r, scanning := b }
  loop : ∀ i, (a.loop i).mexp = (s.loop i).mexp ∧ (a.loop i).window = (s.loop i).window ∧ (a.loop i).search = (s.loop i).search

/-- The scan of a strip whose angle is known, for a job. -/
noncomputable def State.scanOf (s : State) (j : Job) (y : Strip) (theta : Angle) : Scan :=
  { job := j, camera := y.camera, mode := y.mode, width := y.width, theta := theta
    pitch := (s.camera y.camera).pitch, rows := s.seen y theta j.slot
    startColumn := min (s.loop j.slot).search.startColumn (y.width - 1), search := (s.loop j.slot).search
    completeAt := later s.hubTime (16 + ceilDiv (runScan s.is.mem y (s.seen y theta j.slot)
      (min (s.loop j.slot).search.startColumn (y.width - 1)) (s.loop j.slot).search).2 4) }

theorem Rescanned.plan {j : Job} {theta : Angle} {k : BitVec 16} (h : Rescanned s a) (hy : s.strip j.strip = some y)
    (known : y.stamp = .known theta k) :
    a.planFor j = if s.seen y theta j.slot = [] then none else some (s.scanOf j y theta) := by
  obtain ⟨f, r, b, e⟩ := h.strip _ _ hy
  obtain ⟨mexp, window, search⟩ := h.loop j.slot
  have camera : a.camera y.camera = s.camera y.camera := congrArg (fun c => c.get y.camera) h.cameras
  unfold State.planFor
  rw [e]
  dsimp only
  rw [known]
  dsimp only
  rw [camera, mexp, window, search, h.mem, h.time]
  exact if_congr List.isEmpty_iff rfl rfl

/-- The void jobs at the head of a queue are counted. -/
theorem takeUpFrom_voids (before after : List Job) (a : State) (h : ∀ j ∈ before, a.planFor j = none) :
    takeUpFrom (before ++ after) a =
      takeUpFrom after (a.onMs (fun m => { m with void := before.foldl (fun n _ => satInc n) m.void })) := by
  induction before generalizing a with
  | nil => rfl
  | cons j l ih =>
    obtain ⟨none, h⟩ := List.forall_mem_cons.1 h
    rw [List.cons_append, takeUpFrom, none]
    exact ih (a.onMs (fun m => { m with void := satInc m.void })) h

theorem takeUpFrom_planned {j : Job} {rest : List Job} (h : a.planFor j = some p) : takeUpFrom (j :: rest) a =
    (a.onMs (fun m => { m with queue := rest, scan := some p })).onStrip j.strip (fun x => { x with scanning := true }) := by
  rw [takeUpFrom, h]

/-! ### The completion -/

/-- A strip that keeps the result of a scan for a section. -/
noncomputable def Strip.scannedFor (i : SlotNo) (r : ScanResult) (x : Strip) : Strip := { x with results := x.results.set i (some r) }

/-- A hub whose loop has a result counts it, and its scan is over. -/
noncomputable def State.scanOver (a : State) (id : Nat) (r : ScanResult) : State :=
  ((a.onMs (fun m => m.countResult r)).onStrip id (fun x => { x with scanning := false })).onMs (fun m => { m with scan := none })

/-- A hub that has handed on and counted a result, before the next job is taken up. -/
noncomputable def State.scanned (s : State) (p : Scan) : State :=
  ((s.onStrip p.job.strip (Strip.scannedFor p.job.slot (s.scanResult p))).takeResult p.job.slot p.camera
    (p.markAngle (s.scanResult p))).scanOver p.job.strip (s.scanResult p)

/-- What a completed scan leaves. -/
structure Scanned (s a : State) (p : Scan) (x : Strip) (r : ScanResult) : Prop where
  su : a.su = s.su
  im : a.im = s.im
  ms : a.ms = { s.ms.countResult r with scan := none }
  loop : a.loop p.job.slot = s.resulted p.job.slot p.camera (p.markAngle r)
  strip : ∃ f, a.strip p.job.strip = some { x with
    freezeSet := f, results := x.results.set p.job.slot (some r), scanning := false }
  rest : Rescanned s a

theorem unfrozen_eq (h : x.unfrozen = y.unfrozen) : x = { y with freezeSet := x.freezeSet } :=
  congrArg (fun z : Strip => { z with freezeSet := x.freezeSet }) h

theorem ResultTaken.strip {l : Loop} (h : ResultTaken s a i l) {id : Nat} (hy : s.strip id = some y) :
    ∃ f, a.strip id = some { y with freezeSet := f } := by
  have e := strip_unfrozen (id := id) h.strips
  rw [hy] at e
  obtain ⟨z, hz, same⟩ := Option.map_eq_some_iff.1 e
  exact ⟨_, hz.trans (congrArg some (unfrozen_eq same))⟩

theorem scanOver_leaves {r : ScanResult} (h : ResultTaken (s.onStrip p.job.strip (Strip.scannedFor p.job.slot r)) a p.job.slot
    (s.resulted p.job.slot p.camera (p.markAngle r))) (hx : s.strip p.job.strip = some x) :
    Scanned s (a.scanOver p.job.strip r) p x r := by
  have su : a.su = s.su := h.keeps.2.2.2 .su (by decide)
  have im : a.im = s.im := h.keeps.2.2.2 .im (by decide)
  have ms : a.ms = s.ms := h.keeps.2.2.2 .ms (by decide)
  have time : a.hubTime = s.hubTime := h.keeps.1
  have mem : a.is.mem = s.is.mem := (congrArg IS.mem h.store).trans rfl
  have cameras : a.is.cameras = s.is.cameras := (congrArg IS.cameras h.store).trans rfl
  have loop : a.loop p.job.slot = s.resulted p.job.slot p.camera (p.markAngle r) := (h.loops _).trans (if_pos rfl)
  have strip {id : Nat} {y : Strip} (hy : s.strip id = some y) : ∃ f l b,
      (a.scanOver p.job.strip r).strip id = some { y with freezeSet := f, results := l, scanning := b } := by
    by_cases c : p.job.strip = id
    · subst c
      obtain ⟨f, hf⟩ := h.strip (strip_onStrip (Strip.scannedFor p.job.slot r) (fun _ => rfl) hy)
      exact ⟨f, _, false, strip_onStrip (fun x => { x with scanning := false }) (fun _ => rfl) hf⟩
    · obtain ⟨f, hf⟩ := h.strip ((strip_onStrip_other (Strip.scannedFor p.job.slot r) (fun _ => rfl) c).trans hy)
      exact ⟨f, y.results, y.scanning, (strip_onStrip_other (fun x => { x with scanning := false }) (fun _ => rfl) c).trans hf⟩
  refine ⟨su, im, congrArg (fun m : MS => { m.countResult r with scan := none }) ms, loop, ?_, time, mem, cameras, fun _ _ => strip,
    fun j => ?_⟩
  · obtain ⟨f, hf⟩ := h.strip (strip_onStrip (Strip.scannedFor p.job.slot r) (fun _ => rfl) hx)
    exact ⟨f, strip_onStrip (fun x => { x with scanning := false }) (fun _ => rfl) hf⟩
  · have e := h.loops j
    split at e
    next c => subst c; rw [show (a.scanOver p.job.strip r).loop p.job.slot = _ from e]; exact resulted_same ..
    next c => rw [show (a.scanOver p.job.strip r).loop j = _ from e]; exact ⟨rfl, rfl, rfl⟩

theorem scanned_leaves (hx : s.strip p.job.strip = some x) : Scanned s (s.scanned p) p x (s.scanResult p) :=
  scanOver_leaves (takeResult_taken ..) hx

/-- The completion of a scan whose time has come, up to the take-up of the next job. -/
theorem scanCompletion_due (scan : s.ms.scan = some p) (due : isDue p.completeAt s.hubTime = true)
    (hx : s.strip p.job.strip = some x) : s.scanCompletion = takeUpFrom s.ms.queue (s.scanned p) := by
  have ms := (scanned_leaves (p := p) hx).ms
  have queue : (s.scanned p).ms.queue = s.ms.queue := by
    rw [ms]
    cases s.scanResult p <;> rfl
  unfold State.scanCompletion
  rw [scan]
  refine (if_pos due).trans ?_
  show (s.scanned p).takeUp = _
  unfold State.takeUp
  rw [if_neg (by rw [congrArg MS.scan ms]; exact Bool.false_ne_true), queue]

theorem scanCompletion_idle (h : ∀ p ∈ s.ms.scan, isDue p.completeAt s.hubTime = false) : s.scanCompletion = s := by
  unfold State.scanCompletion
  rcases e : s.ms.scan with _ | p
  · rfl
  · exact if_neg (by rw [h p e]; exact Bool.false_ne_true)

/-- The completion of a scan whose time has come. -/
theorem exec_scanCompletion (scan : s.ms.scan = some p) (due : isDue p.completeAt t = true) (hx : s.strip p.job.strip = some x) :
    ∃ s' b, exec (.scanCompletion t) s = .next s'
      ∧ Scanned (s.advance t) b p x (runScan s.is.mem x p.rows p.startColumn p.search).1
      ∧ Keeps [.vu] (takeUpFrom s.ms.queue b) s' := by
  have result : (s.advance t).scanResult p = (runScan s.is.mem x p.rows p.startColumn p.search).1 := by
    unfold State.scanResult
    rw [show (s.advance t).strip p.job.strip = some x from hx]
    rfl
  refine ⟨_, (s.advance t).scanned p, congrArg (finish s) (scanCompletion_due (s := s.advance t) scan due hx), ?_, ?_⟩
  · rw [← result]
    exact scanned_leaves (s := s.advance t) hx
  · exact keeps_markDirty _ _

end Sys2Proof.Machine

open Sys2Proof Sys2Proof.Machine

/-- Settles O48: what the scan of the rows finds, what a completed one hands on, and the next job taken up. -/
theorem scanCompletion : Obligations.ScanCompletion := by
  refine ⟨fun hit need columns rows run h hr => ?_, fun m x rows start spec _ => runScan_columns m x rows start spec,
    fun s t p x e scan hx => ⟨fun due queue => ?_, fun due before after queue => ?_, fun early => ?_⟩, fun s t scan => ?_⟩
  · obtain rfl : run = fun r => RunAt (hit r) need columns := funext fun r => funext fun i => propext (hr r i)
    have found := scanRows_find (hits := hit) (columns := columns) h rows
    exact ⟨found.none, found.all, found.first⟩
  · obtain ⟨s', b, acts, ⟨su, im, ms, loop, ⟨f, strip⟩, -⟩, end_⟩ := exec_scanCompletion scan due hx
    rw [queue] at end_
    have ended : s'.ms = { b.ms with queue := [] } := end_.2.2.2 .ms (by decide)
    have kept : s'.is = b.is := end_.2.2.2 .is (by decide)
    have stays : s'.loop p.job.slot = b.loop p.job.slot := congrArg (fun r : RU => r.loops.get p.job.slot) (end_.2.2.2 .ru (by decide))
    rw [ms] at ended
    rw [loop] at stays
    refine ⟨s', acts, congrArg MS.scan ended, congrArg MS.queue ended, (end_.2.2.2 .su (by decide)).trans su,
      (end_.2.2.2 .im (by decide)).trans im,
      ⟨_, (congrArg (fun m : IS => m.strips.find? (fun z : Strip => z.id == p.job.strip)) kept).trans strip, rfl, rfl, rfl, rfl⟩, ?_⟩
    generalize (runScan s.is.mem x p.rows p.startColumn p.search).1 = r at ended stays ⊢
    cases r with
    | none =>
      refine ⟨congrArg MS.nones ended, (congrArg MS.hits ended).trans rfl, ?_⟩
      split
      next h => exact (congrArg Loop.misses (stays.trans (if_pos h))).trans (miss_misses _)
      next h => exact stays.trans (if_neg h)
    | hit row c =>
      refine ⟨congrArg MS.hits ended, (congrArg MS.nones ended).trans rfl, fun he => ?_⟩
      subst he
      split
      next h =>
        have judged := stays.trans (if_pos h)
        split
        next within =>
          have accepts := judged.trans (if_neg (Nat.not_lt.2 within))
          exact ⟨congrArg Loop.state accepts, congrArg Loop.lastE accepts, congrArg Loop.misses accepts, congrArg Loop.markSeen accepts⟩
        next beyond => exact judged.trans (if_pos (Nat.lt_of_not_le beyond))
      next h => exact stays.trans (if_neg h)
  · obtain ⟨s', b, acts, ⟨-, -, ms, -, -, rest⟩, end_⟩ := exec_scanCompletion scan due hx
    have counts : b.ms.void = s.ms.void ∧ b.ms.scan = none := by
      rw [ms]
      refine ⟨?_, rfl⟩
      cases (runScan s.is.mem x p.rows p.startColumn p.search).1 <;> rfl
    intro seen void
    have none : ∀ j ∈ before, b.planFor j = none := fun j hj => by
      obtain ⟨y, a, k, hy, known, empty⟩ := void j hj
      exact (rest.plan hy known).trans (if_pos empty)
    rw [queue, takeUpFrom_voids _ _ _ none] at end_
    have void : (b.onMs (fun m => { m with void := before.foldl (fun n _ => satInc n) m.void })).ms.void =
      before.foldl (fun n _ => satInc n) s.ms.void := congrArg (before.foldl (fun n _ => satInc n)) counts.1
    refine ⟨s', acts, fun h => ?_, fun j jobs y a k h hy known some => ?_⟩
    · subst h
      have ended := end_.2.2.2 .ms (by decide)
      exact ⟨(congrArg MS.scan ended).trans counts.2, congrArg MS.queue ended, (congrArg MS.void ended).trans void⟩
    · subst h
      rw [takeUpFrom_planned (a := b.onMs _) ((rest.plan hy known).trans (if_neg some))] at end_
      have ended := end_.2.2.2 .ms (by decide)
      obtain ⟨f, r, c, strip⟩ := rest.strip _ _ hy
      refine ⟨congrArg MS.queue ended, (congrArg MS.void ended).trans void, congrArg MS.scan ended, _,
        (congrArg (fun m : IS => m.strips.find? (fun z : Strip => z.id == j.strip)) (end_.2.2.2 .is (by decide))).trans
          (strip_onStrip (fun x => { x with scanning := true }) (fun _ => rfl) strip), rfl, rfl⟩
  · refine ⟨_, rfl, ?_⟩
    rw [scanCompletion_idle (s := s.advance t) fun q hq => ?_]
    · exact finish_idle s t
    · cases (show some p = some q from scan.symm.trans hq)
      exact early
  · refine ⟨_, rfl, ?_⟩
    rw [scanCompletion_idle (s := s.advance t) fun q hq => ?_]
    · exact finish_idle s t
    · cases (show none = some q from scan.symm.trans hq)

end
